-- ==== Sys2Proof/Word.lean ====
section
/-! DEFINITION. The word types of the model: bytes and the fixed widths the manual's field maps use
(00_scope.md R10: bit 0 is the least significant bit). -/

namespace Sys2Proof

/-- One byte. -/
abbrev Byte := BitVec 8
/-- A 32-bit word (counters, keys, FP32 patterns). -/
abbrev W32 := BitVec 32
/-- A 64-bit word (pointers, tags, registers of the site window). -/
abbrev W64 := BitVec 64

end Sys2Proof
end

