-- ==== Sys2Proof/Syntax.lean ====
section
/-! DEFINITION. The commands the block takes: one constructor of `Instr` per row of
spec/opcode_table.json, with the row's operands. Fields the manual lays out as bits are bit vectors of
the stated width; unit numbers (core, port, step number, ring) are naturals that `Instr.wf` bounds. -/

namespace Sys2Proof

/-! ## Core instructions (03_cores_and_courses.md R75) -/

/-- Format C. -/
structure FmtC where
  dst   : BitVec 4
  src   : BitVec 4
  cmp   : BitVec 3
  imm32 : W32
  imm64 : W64
  deriving DecidableEq, Repr

/-- Format E. For ENG.ATS and ENG.ATV `fmtW` holds the tag register in its low three bits, `cbase` and
`tstart` the two parts of the offset field; for ENG.MM `woff` is that field whole. -/
structure FmtE where
  emask  : BitVec 8
  fmtA   : BitVec 4
  fmtW   : BitVec 4
  fmtO   : BitVec 4
  accin  : BitVec 2
  sparse : Bool
  append : Bool
  kb     : BitVec 16
  pa     : BitVec 4
  pw     : BitVec 4
  po     : BitVec 4
  aoff   : BitVec 21
  woff   : BitVec 21
  ooff   : BitVec 21
  deriving DecidableEq, Repr

/-- The issue signature of an engine instruction (R67), but for the opcode. -/
structure EngSig where
  emask  : BitVec 8
  fmtA   : BitVec 4
  fmtW   : BitVec 4
  fmtO   : BitVec 4
  accin  : BitVec 2
  sparse : Bool
  append : Bool
  kb     : BitVec 16
  deriving DecidableEq, Repr

/-- A fault of the cells in one engine operation (R61, R62): position and engine, row and column of the result it
disturbs, and the FP32 result there. -/
structure EngFault where
  pos    : Nat
  engine : Nat
  row    : Nat
  col    : Nat
  value  : W32
  deriving DecidableEq, Repr

/-- Format V (VEC). -/
structure FmtV where
  func : BitVec 6
  pa   : BitVec 4
  pb   : BitVec 4
  pd   : BitVec 4
  aoff : BitVec 21
  boff : BitVec 21
  doff : BitVec 21
  n    : BitVec 16
  deriving DecidableEq, Repr

/-- Format X (CVT). -/
structure FmtX where
  fromF : BitVec 4
  toF   : BitVec 4
  rnd   : BitVec 2
  pa    : BitVec 4
  pd    : BitVec 4
  aoff  : BitVec 21
  doff  : BitVec 21
  n     : BitVec 16
  deriving DecidableEq, Repr

/-- Format T (transfers). -/
structure FmtT where
  ps   : BitVec 4
  pd   : BitVec 4
  sq   : BitVec 3
  dir  : Bool
  soff : W32
  doff : W32
  len  : BitVec 24
  deriving DecidableEq, Repr

/-- Format P (STR.PAGE). -/
structure FmtP where
  pd    : BitVec 4
  sq    : BitVec 3
  tag   : BitVec 3
  seq   : BitVec 10
  lg    : BitVec 8
  page  : BitVec 14
  poff  : BitVec 21
  len64 : BitVec 16
  doff  : BitVec 21
  deriving DecidableEq, Repr

/-- Format M (messages and remote operations). -/
structure FmtM where
  ps     : BitVec 4
  pt     : BitVec 4
  tpos   : BitVec 10
  remote : Bool
  ksel   : BitVec 2
  sig    : BitVec 3
  width  : BitVec 2
  aop    : BitVec 4
  len64  : BitVec 10
  inc    : BitVec 16
  soff   : W32
  toff   : W32
  deriving DecidableEq, Repr

/-- Format W (WAIT). -/
structure FmtW where
  sel   : BitVec 2
  idx   : BitVec 3
  value : W32
  bound : W32
  deriving DecidableEq, Repr

/-- Format K, PPOINT: the four live ranges, each a base and a length in 256-byte units. -/
structure FmtPp where
  base0 : BitVec 13
  len0  : BitVec 9
  base1 : BitVec 13
  len1  : BitVec 9
  base2 : BitVec 13
  len2  : BitVec 9
  base3 : BitVec 13
  len3  : BitVec 9
  deriving DecidableEq, Repr

/-- Format K, APND. The ARM bit tells APND_WRITE from APND_ARM. -/
structure FmtA where
  section_ : Bool
  ps     : BitVec 4
  seq0   : BitVec 10
  rows   : BitVec 5
  lg     : BitVec 8
  slot   : BitVec 24
  cbase  : BitVec 13
  nch    : BitVec 13
  soff   : BitVec 21
  rowmap : Bool
  deriving DecidableEq, Repr

/-- Format K, POST. -/
structure FmtPost where
  event   : BitVec 16
  payload : W64
  deriving DecidableEq, Repr

/-- A decoded instruction word (R74, R75). -/
inductive Isn where
  | nop | setp (f : FmtC) | addp (f : FmtC) | setc (f : FmtC) | ldc (f : FmtC) | setk (f : FmtC)
  | loop (f : FmtC) | brc (f : FmtC) | jmp (f : FmtC) | endProg
  | engMm (f : FmtE) | engAts (f : FmtE) | engAtv (f : FmtE)
  | vec (f : FmtV) | cvt (f : FmtX)
  | dmaLs (f : FmtT) | dmaCs (f : FmtT) | strRd (f : FmtT) | strWr (f : FmtT) | strSpread (f : FmtT)
  | strPage (f : FmtP)
  | put (f : FmtM) | addput (f : FmtM) | signal (f : FmtM) | wait (f : FmtW) | get (f : FmtM) | atom (f : FmtM)
  | barrier | ppoint (f : FmtPp) | apndWrite (f : FmtA) | apndArm (f : FmtA) | post (f : FmtPost)
  | unlisted (op : BitVec 8)
  deriving DecidableEq, Repr

/-! ## Queue entries (11_host_site.md R322, R323; 03 R96) -/

/-- The step descriptor of R96, field by field. -/
structure StepDesc where
  deadline  : W32
  chainEnd  : Bool
  job       : BitVec 16
  base3     : W64
  base2     : W64
  base1     : W64
  base0     : W64
  userTag   : W64
  argAddr   : BitVec 48
  appendMax : BitVec 24
  seqAddr   : BitVec 48
  cq        : BitVec 6
  seqCount  : BitVec 10
  lgCount   : BitVec 8
  firstLg   : BitVec 8
  seed      : W32
  argLen    : BitVec 16
  hbmShare  : BitVec 16
  ppGap     : BitVec 24
  period    : W32
  wcet      : W32
  progLen   : BitVec 12
  progAddr  : BitVec 48
  binding   : BitVec 8
  adapter   : BitVec 12
  kind      : BitVec 4
  qfmt      : BitVec 4
  quads     : BitVec 8
  adapterEn : Bool
  append    : Bool
  periodic  : Bool
  wholeCl   : Bool
  jclass    : BitVec 2
  ctx       : BitVec 8
  dver      : BitVec 8
  deriving DecidableEq, Repr

/-- Command entry header, bytes 0 to 15 (R322). -/
structure CmdHdr where
  tag : W64
  cq  : BitVec 6
  ctx : BitVec 8
  deriving DecidableEq, Repr

/-- Binding record (05 R131). -/
structure BindRec where
  dV       : BitVec 12
  dK       : BitVec 12
  kvh      : BitVec 8
  parkMask : BitVec 3
  resFmt   : BitVec 4
  lgn      : BitVec 8
  bver     : BitVec 8
  deriving DecidableEq, Repr

/-- Adapter version record (05 R155). -/
structure AdapterRec where
  weightAddr : BitVec 48
  weightLen  : W32
  fmt        : BitVec 4
  binding    : BitVec 8
  version    : BitVec 16
  rankM1     : BitVec 8
  adapter    : BitVec 12
  aver       : BitVec 12
  deriving DecidableEq, Repr

/-- The H fields of a lease table entry (06 R165). -/
structure LeaseRec where
  base      : W64
  key       : W32
  len       : W32
  partner   : BitVec 12
  demoteTo  : BitVec 12
  demoteTtl : W32
  demoteEn  : Bool
  partnerEn : Bool
  tier      : BitVec 3
  deriving DecidableEq, Repr

/-- The H fields of a region table entry (07 R214). -/
structure RegionRec where
  tbase : BitVec 48
  key   : W32
  first : BitVec 16
  len   : BitVec 36
  sro   : Bool
  atom  : Bool
  write : Bool
  read  : Bool
  deriving DecidableEq, Repr

/-- A command of the command table (R323) with its operands. -/
inductive HostCmd where
  | sessionCreate (handle : BitVec 24) (binding : BitVec 8) (homeDie : BitVec 2) (eventCq : BitVec 6)
  | sessionDrop (handle : BitVec 24)
  | sessionTruncate (handle : BitVec 24) (n : W32)
  | sessionRelease (handle : BitVec 24)
  | sessionPin (handle : BitVec 24) (set : Bool) (first count : W32)
  | sessionQuery (handle : BitVec 24) (dest : W64)
  | bindInstall (binding : BitVec 8) (rcd : BindRec)
  | bindRemove (binding : BitVec 8)
  | adapterInstall (eventCq : BitVec 6) (rcd : AdapterRec)
  | adapterRemove (adapter : BitVec 12)
  | park (handle : BitVec 24) (pfmt : BitVec 4) (lease : BitVec 12) (expiry : BitVec 2) (dual dirOut : Bool) (ttlMs : W32)
  | revive (handle : BitVec 24) (narrow : Bool)
  | reviveHint (handle : BitVec 24) (narrow : Bool)
  | ttlSet (handle : BitVec 24) (expiry : BitVec 2) (ttlMs : W32)
  | migrate (handle : BitVec 24) (peerDev : BitVec 16) (peerHandle : BitVec 24)
  | migrateIn (handle : BitVec 24) (srcDev : BitVec 16) (eventCq : BitVec 6) (cancel : Bool) (srcHandle : BitVec 24)
  | leaseSet (lease : BitVec 12) (eventCq : BitVec 6) (rcd : LeaseRec)
  | leaseClear (lease : BitVec 12)
  | leaseLost (lease : BitVec 12)
  | vocabLoad (vocab : BitVec 4) (addr : BitVec 48) (imageLen : W32)
  | vocabRemove (vocab : BitVec 4)
  | stopsetSet (stopset : BitVec 8) (countM1 : BitVec 4) (addr : BitVec 48) (lens : BitVec 128)
  | streamOpen (stream : BitVec 14) (vocab : BitVec 4) (stopset : BitVec 16) (includeStop : Bool) (eventCq : BitVec 6)
  | streamClose (stream : BitVec 14)
  | tokenize (stream : BitVec 14) (last : Bool) (inAddr : BitVec 48) (len : W32) (outAddr : BitVec 48) (outCap : W32)
  | grammarLoad (grammar : BitVec 6) (addr : BitVec 48)
  | grammarRemove (grammar : BitVec 6)
  | grammarBind (stream : BitVec 14) (grammar : BitVec 6) (escape : BitVec 18) (maskAddr : BitVec 48)
  | grammarUnbind (stream : BitVec 14)
  | regionSet (first : BitVec 16) (rcd : RegionRec)
  | regionClear (first : BitVec 16)
  | keystoneArm (hold : BitVec 20)
  | keystoneDisarm
  deriving DecidableEq, Repr

/-! ## Fabric packets (07_octica_line_fabric.md, 08_bulk_transport.md) -/

/-- Link frame control block (07 R201) with the frame's eight flits. -/
structure LinkFrame where
  crc     : W32
  seq     : BitVec 12
  ack     : BitVec 12
  retry   : Bool
  cvc     : BitVec 2
  credits : BitVec 10
  flits   : BitVec 48
  data    : List (BitVec 256)
  deriving DecidableEq, Repr

/-- Line request header, plain or combined (R211, R213), with its 64-byte payload where it has one.
In a combined request (`cmb`) `line` is COUNT_M1. -/
structure LineReq where
  cmb     : Bool
  epoch   : W32
  key     : W32
  addr    : W64
  dstNode : BitVec 16
  srcNode : BitVec 16
  txn     : BitVec 16
  op      : BitVec 6
  comb    : Bool
  replay  : Bool
  line    : BitVec 8
  operand : W64
  payload : List Byte
  deriving DecidableEq, Repr

/-- Line response header (R212) with the 64-byte payload of a READ64 answered ST_OK. -/
structure LineRsp where
  epoch    : W32
  hintNode : BitVec 16
  countM1  : BitVec 8
  line     : BitVec 8
  value    : W64
  dstNode  : BitVec 16
  srcNode  : BitVec 16
  txn      : BitVec 16
  op       : BitVec 6
  status   : BitVec 16
  payload  : List Byte
  deriving DecidableEq, Repr

/-- Bulk packet header (08 R236), payload bytes and the 128-bit tag of the trailer flit (R238). -/
structure BulkPkt where
  epoch     : W32
  key       : W32
  addr      : W64
  msgLen    : W32
  offset    : W32
  dstNode   : BitVec 16
  srcNode   : BitVec 16
  floor     : BitVec 48
  xmit      : W32
  ts        : W32
  len       : BitVec 13
  typ       : BitVec 4
  sink      : BitVec 2
  ce        : Bool
  retx      : Bool
  finalNode : BitVec 16
  hver      : BitVec 8
  msgId     : W64
  payload   : List Byte
  tag       : BitVec 128
  deriving DecidableEq, Repr

/-- Bulk answer header, ACK or PLACED (R237), with its tag. -/
structure BulkAns where
  epoch     : W32
  tsEcho    : W32
  offset    : W32
  hintNode  : BitVec 16
  delay     : BitVec 16
  dstNode   : BitVec 16
  srcNode   : BitVec 16
  finalNode : BitVec 16
  status    : BitVec 16
  ceEcho    : Bool
  typ       : BitVec 4
  hver      : BitVec 8
  msgId     : W64
  tag       : BitVec 128
  deriving DecidableEq, Repr

/-! ## Migration messages (06_parking_and_revival.md R187) -/

/-- One page the source will send: entry index, fill, format, CRC and dirty flag as its entry holds them. -/
structure OfferPage where
  index : Nat
  tier  : Nat
  frame : Nat
  fmt   : Nat
  fill  : Nat
  crc   : W32
  gen   : W32
  dual  : Bool
  pinned : Bool
  deriving DecidableEq, Repr

/-- One lease the parked copies use, as OFFER carries it. -/
structure OfferLease where
  index  : Nat
  rcd    : LeaseRec
  deriving DecidableEq, Repr

/-- OFFER: descriptor, binding record, TOTAL, remaining time to live and leases used (R187 step 3). -/
structure Offer where
  srcDev    : BitVec 16
  srcHandle : BitVec 24
  dstHandle : BitVec 24
  ctx       : BitVec 8
  parked    : Bool
  homeDie   : BitVec 2
  binding   : BitVec 8
  rcd       : BindRec
  total     : Nat
  tokens    : Nat
  ttlLeft   : Nat
  ttlMs     : W32
  expiry    : BitVec 2
  parkFmt   : BitVec 4
  dual      : Bool
  dirTier   : Nat
  dirRoot   : Nat
  dirDepth  : Nat
  leaves    : List Nat
  pins      : List Nat
  pages     : List OfferPage
  leases    : List OfferLease
  deriving DecidableEq, Repr

/-! ## Management messages (14_management_and_firmware.md R390) -/

/-- Message header with the outcome of its signature: `signer` is the public key under which the signature verifies, none when it
verifies under no key. `payload` is the length of the UDP payload in bytes; `layoutOk` says that the body is laid out as OP asks. OP is that
of the row, or one that R390 does not list, which any row of a signed request carries (DESIGN CHOICE, log entry 69). -/
structure MgmtHdr where
  serial    : BitVec 128
  bootEpoch : BitVec 16
  seq       : BitVec 48
  keySlot   : BitVec 8
  mver      : BitVec 8
  op        : BitVec 8
  bodyLen   : BitVec 16
  payload   : Nat
  layoutOk  : Bool
  signer    : Option (BitVec 256)
  deriving DecidableEq, Repr

/-- An item of a READ or WRITE (R398): a WRITE's data as one little-endian number of `len` bytes. -/
structure MgmtItem where
  index : BitVec 16
  sub   : BitVec 8
  typ   : BitVec 8
  row   : BitVec 16
  rows  : BitVec 16
  len   : BitVec 16
  data  : Nat
  deriving DecidableEq, Repr

/-! ## Key exchange (12_security.md R349, R350) -/

/-- A certificate (R344). -/
structure Cert where
  sig       : BitVec 512
  serial    : BitVec 128
  bootEpoch : BitVec 16
  kind      : BitVec 8
  cver      : BitVec 8
  subject   : BitVec 256
  deriving DecidableEq, Repr

/-- A quote (R345), field by field, without its signature. -/
structure Quote where
  stagedHash : BitVec 512
  measFp  : BitVec 512
  measCr  : BitVec 512
  measSe  : BitVec 512
  measMc  : BitVec 512
  akPub   : Nat
  nonce   : BitVec 256
  counter : Nat
  bootEpoch : Nat
  node    : Nat
  ownId   : Nat
  stagedImg : Nat
  resetDomain : Nat
  profile : Nat
  blevel  : Nat
  flags   : Nat
  deriving DecidableEq, Repr

/-- A KEYX payload (R349) and the node it comes from. -/
structure Keyx where
  srcNode   : BitVec 16
  role      : BitVec 8
  kver      : BitVec 8
  startXmit : W32
  fresh     : BitVec 256
  peerFresh : BitVec 256
  ephPub    : BitVec 256
  quote     : Quote
  quoteSig  : BitVec 512
  idCert    : Cert
  akCert    : Cert
  deriving DecidableEq, Repr

/-- The outcome of the ECC check of a line (16 R443). -/
inductive Ecc where
  | clean | corrected | uncorrectable
  deriving DecidableEq, Repr

/-- What carries a host transaction (11 R313, R315): the UCIe module and the host's transaction number SEQ. -/
structure SiteHdr where
  module_ : Nat
  seq     : BitVec 12
  deriving DecidableEq, Repr

/-- A host transaction and what it names: an offset in the site window, a ring, or a queue pair. -/
structure SiteRef where
  hdr : SiteHdr
  n   : Nat
  deriving DecidableEq, Repr

/-- A host read HRD (11 R315). -/
structure SiteRead where
  hdr    : SiteHdr
  offset : Nat
  tag    : BitVec 16
  lenM1  : BitVec 8
  deriving DecidableEq, Repr

/-- The commands: one constructor per row of spec/opcode_table.json, in the table's order. -/
inductive Instr where
  -- core instructions and course events (03, 04)
  | nop (core : Nat)
  | setp (core : Nat) (f : FmtC)
  | addp (core : Nat) (f : FmtC)
  | setc (core : Nat) (f : FmtC)
  | ldc (core : Nat) (f : FmtC)
  | setk (core : Nat) (f : FmtC)
  | loop (core : Nat) (f : FmtC)
  | brc (core : Nat) (f : FmtC)
  | jmp (core : Nat) (f : FmtC)
  | endProg (core : Nat)
  | engMm (step : Nat) (sig : EngSig) (fault : Option EngFault)
  | engAts (step : Nat) (sig : EngSig) (fault : Option EngFault)
  | engAtv (step : Nat) (sig : EngSig) (fault : Option EngFault)
  | vec (core : Nat) (f : FmtV)
  | cvt (core : Nat) (f : FmtX)
  | dmaLs (core : Nat) (f : FmtT)
  | dmaCs (core : Nat) (f : FmtT)
  | strRd (core : Nat) (f : FmtT)
  | strWr (core : Nat) (f : FmtT)
  | strSpread (core : Nat) (f : FmtT)
  | strPage (core : Nat) (f : FmtP)
  | streamRequestComplete (core : Nat) (ue : Option Nat)
  | put (core : Nat) (f : FmtM)
  | addput (core : Nat) (f : FmtM)
  | signal (core : Nat) (f : FmtM)
  | messageDeliver (step src dst : Nat)
  | signalApply (step src dst : Nat)
  | wait (core : Nat) (f : FmtW)
  | waitMet (core : Nat)
  | waitBoundExpiry (core : Nat)
  | get (core : Nat) (f : FmtM)
  | atom (core : Nat) (f : FmtM)
  | barrier (core : Nat)
  | barrierRelease (step : Nat)
  | ppoint (core : Nat) (f : FmtPp)
  | ppointRelease (step : Nat)
  | courseRealign (step : Nat)
  | apndWrite (core : Nat) (f : FmtA)
  | apndArm (core : Nat) (f : FmtA)
  | post (core : Nat) (f : FmtPost)
  | wcetOverrun (step : Nat)
  | stepDeadline (step : Nat)
  | streamStall (step : Nat)
  | ppGapExpiry (step : Nat)
  -- scheduling (03 R96, 10)
  | stepDescriptor (sq : Nat) (d : StepDesc)
  | stepDispatch (step : Nat)
  | courseRestoreDone (step : Nat)
  | periodicRelease (ctx job : Nat)
  | tokenRefill
  | keystoneArm (sq : Nat) (h : CmdHdr) (hold : BitVec 20)
  | keystoneDisarm (sq : Nat) (h : CmdHdr)
  | keystoneArmExpiry (ctx : Nat)
  -- sessions, bindings, adapters (05)
  | sessionCreate (sq : Nat) (h : CmdHdr) (handle : BitVec 24) (binding : BitVec 8) (homeDie : BitVec 2) (eventCq : BitVec 6)
  | sessionDrop (sq : Nat) (h : CmdHdr) (handle : BitVec 24)
  | sessionTruncate (sq : Nat) (h : CmdHdr) (handle : BitVec 24) (n : W32)
  | sessionRelease (sq : Nat) (h : CmdHdr) (handle : BitVec 24)
  | sessionPin (sq : Nat) (h : CmdHdr) (handle : BitVec 24) (set : Bool) (first count : W32)
  | sessionQuery (sq : Nat) (h : CmdHdr) (handle : BitVec 24) (dest : W64)
  | bindInstall (sq : Nat) (h : CmdHdr) (binding : BitVec 8) (rcd : BindRec)
  | bindRemove (sq : Nat) (h : CmdHdr) (binding : BitVec 8)
  | adapterInstall (sq : Nat) (h : CmdHdr) (eventCq : BitVec 6) (rcd : AdapterRec)
  | adapterRemove (sq : Nat) (h : CmdHdr) (adapter : BitVec 12)
  -- parking, revival, migration (06)
  | park (sq : Nat) (h : CmdHdr) (handle : BitVec 24) (pfmt : BitVec 4) (lease : BitVec 12) (expiry : BitVec 2) (dual dirOut : Bool) (ttlMs : W32)
  | parkPendStart (handle : Nat)
  | revive (sq : Nat) (h : CmdHdr) (handle : BitVec 24) (narrow : Bool)
  | reviveHint (sq : Nat) (h : CmdHdr) (handle : BitVec 24) (narrow : Bool)
  | hintLapse (handle : Nat)
  | ttlSet (sq : Nat) (h : CmdHdr) (handle : BitVec 24) (expiry : BitVec 2) (ttlMs : W32)
  | ttlExpiry (handle : Nat)
  | pageMoverStart (mover : Nat) (ue : Option Nat)
  | pageLand (mover : Nat)
  | migrate (sq : Nat) (h : CmdHdr) (handle : BitVec 24) (peerDev : BitVec 16) (peerHandle : BitVec 24)
  | migrateIn (sq : Nat) (h : CmdHdr) (handle : BitVec 24) (srcDev : BitVec 16) (eventCq : BitVec 6) (srcHandle : BitVec 24)
  | migrateInCancel (sq : Nat) (h : CmdHdr) (handle : BitVec 24) (srcDev : BitVec 16) (eventCq : BitVec 6) (srcHandle : BitVec 24)
  | offer (o : Offer)
  | accept (handle : Nat)
  | refuse (handle : Nat) (status : BitVec 16)
  | ready (handle : Nat)
  | release (handle : Nat)
  | abort (handle : Nat)
  | migrateReadyTimeout (handle : Nat)
  | migratePeerTimeout (handle : Nat)
  | leaseSet (sq : Nat) (h : CmdHdr) (lease : BitVec 12) (eventCq : BitVec 6) (rcd : LeaseRec)
  | leaseClear (sq : Nat) (h : CmdHdr) (lease : BitVec 12)
  | leaseLost (sq : Nat) (h : CmdHdr) (lease : BitVec 12)
  | lossSweep (handle : Nat)
  | frameScrub (frame : Nat)
  | patrolRead (line : Nat) (ecc : Ecc)
  -- text and grammar (09)
  | vocabLoad (sq : Nat) (h : CmdHdr) (vocab : BitVec 4) (addr : BitVec 48) (imageLen : W32)
  | vocabRemove (sq : Nat) (h : CmdHdr) (vocab : BitVec 4)
  | stopsetSet (sq : Nat) (h : CmdHdr) (stopset : BitVec 8) (countM1 : BitVec 4) (addr : BitVec 48) (lens : BitVec 128)
  | streamOpen (sq : Nat) (h : CmdHdr) (stream : BitVec 14) (vocab : BitVec 4) (stopset : BitVec 16) (includeStop : Bool) (eventCq : BitVec 6)
  | streamClose (sq : Nat) (h : CmdHdr) (stream : BitVec 14)
  | tokenize (sq : Nat) (h : CmdHdr) (stream : BitVec 14) (last : Bool) (inAddr : BitVec 48) (len : W32) (outAddr : BitVec 48) (outCap : W32)
  | tokenizeDone (stream : Nat)
  | tokenEvent (stream : Nat)
  | grammarLoad (sq : Nat) (h : CmdHdr) (grammar : BitVec 6) (addr : BitVec 48)
  | grammarRemove (sq : Nat) (h : CmdHdr) (grammar : BitVec 6)
  | grammarBind (sq : Nat) (h : CmdHdr) (stream : BitVec 14) (grammar : BitVec 6) (escape : BitVec 18) (maskAddr : BitVec 48)
  | grammarUnbind (sq : Nat) (h : CmdHdr) (stream : BitVec 14)
  -- line fabric (07)
  | regionSet (sq : Nat) (h : CmdHdr) (first : BitVec 16) (rcd : RegionRec)
  | regionClear (sq : Nat) (h : CmdHdr) (first : BitVec 16)
  | regionClearDone (first : Nat)
  | linkFrameReceive (port : Nat) (fr : LinkFrame)
  | lineRequestSend (txn : Nat)
  | lineRequestReceive (port : Nat) (q : LineReq)
  | lineResponseReceive (port : Nat) (r : LineRsp)
  | lineTimeout (txn : Nat)
  | epochWaitReplay (txn : Nat)
  | gatewayBusyReplay (txn : Nat)
  | portBringup (node id : BitVec 16)
  | mapBegin (epoch : W32) (idBytes extBytes gwBytes : Nat)
  | mapData (offset : Nat) (data : List Byte)
  | mapCommit (epoch crc : W32)
  | mapAckSend
  | ckptNotice
  -- bulk transport and gateways (08), key exchange (12)
  | bulkPacketSend (node : Nat)
  | bulkPacketReceive (port : Nat) (p : BulkPkt)
  | bulkAckReceive (port : Nat) (a : BulkAns)
  | flushSend (node : Nat)
  | placedSend (node : Nat)
  | bulkPlacedReceive (port : Nat) (a : BulkAns)
  | bulkRetxTimeout (node seq offset : Nat)
  | bulkMessageHorizon (node seq : Nat)
  | getDataSend (node seq : Nat)
  | getTimeout (node seq : Nat)
  | lwRecordDiscard (node : Nat)
  | gatewayRelay (port : Nat) (p : BulkPkt) (waitNs : Nat)
  | gatewayRelayDrop (port : Nat) (p : BulkPkt)
  | gwBatchClose (far : Nat)
  | keyxReceive (port : Nat) (k : Keyx)
  | quarantineEnd (node first : Nat)
  | ringBufferRelease (step : Nat)
  -- host site (11)
  | siteLinkBringup (widths : List Nat)
  | siteBringupRetry
  | ucieFlitReplay (module_ : Nat)
  | siteRegisterWrite (offset : SiteRef) (data : List Byte)
  | doorbellSqTail (ring : SiteRef) (tail : BitVec 9)
  | doorbellCqHead (qp : SiteRef) (head : BitVec 16)
  | qpEnable (qp : SiteRef)
  | qpDisable (qp : SiteRef)
  | rdyPendRead (rd : SiteRead)
  | completionSpillWrite (qp : Nat)
  -- management and firmware (14), with the objects that have behaviour of their own
  | ident (m : MgmtHdr)
  | read (m : MgmtHdr) (items : List MgmtItem)
  | write (m : MgmtHdr) (items : List MgmtItem)
  | claim (m : MgmtHdr) (key : BitVec 256)
  | imgData (m : MgmtHdr) (kind : BitVec 8) (offset : W32) (data : List Byte)
  | imageVerified (kind : Nat)
  | imgActivate (m : MgmtHdr) (kind : BitVec 8)
  | activationDone
  | activationDrainExpiry
  | imgDiscard (m : MgmtHdr) (kind : BitVec 8)
  | imgCommit (m : MgmtHdr) (value : BitVec 8)
  | mgmtStop (m : MgmtHdr)
  | mgmtStart (m : MgmtHdr)
  | mgmtService (m : MgmtHdr)
  | mgmtLeaveService (m : MgmtHdr)
  | ctxEnable (m : MgmtHdr) (ctx : BitVec 8) (value : BitVec 8)
  | quoteNonce (m : MgmtHdr) (nonce : BitVec 256)
  | joinOut (m : MgmtHdr) (ctx : BitVec 8) (peerId : BitVec 16) (peerCtx : BitVec 8) (armed : Bool)
  | ckptCheckpoint (m : MgmtHdr) (ctx : BitVec 8)
  | ckptRestore (m : MgmtHdr) (ctx : BitVec 8)
  | ckptAbort (m : MgmtHdr) (ctx : BitVec 8)
  | cutInstant (ctx : Nat)
  | ckptHoldExpiry (ctx : Nat)
  | cutComplete (ctx : Nat)
  | cbwRelease (ctx frame : Nat)
  | powerCapW (m : MgmtHdr) (watts : BitVec 16)
  | hostVset (m : MgmtHdr) (mv : BitVec 16)
  | fenceDie (m : MgmtHdr) (die : BitVec 8)
  | fatalClear (m : MgmtHdr) (value : BitVec 8)
  | deviceReset (m : MgmtHdr)
  | plinthPartialReset (m : MgmtHdr)
  | diePartialReset (m : MgmtHdr) (die : Nat)
  | portPartialReset (m : MgmtHdr) (port : Nat)
  -- power, reset, sensors, faults (15, 16, 17)
  | plinthResetEnding
  | plinthResetPhase3
  | plinthResetRelease
  | dieResetRelease (die : Nat)
  | dieResetTimeout (die : Nat)
  | powerOn (mv : Nat) (phySel claimClr rstLow : Bool)
  | startUpComplete (badStacks : List Nat) (failedRow : Option Nat)
  | supplyLevelChange (mv : Nat)
  | supplyWarningClear
  | hostRailFault
  | sensorRead (temps : List Int)
  | rootLockLoss
  | rstNAssert
  | rstNRelease
  | serviceDegradedClear
  | unlistedOpcode (core : Nat) (op : BitVec 8)
  | unknownCommandEntry (sq : Nat) (typ : BitVec 8)
  | portLaneLoss (port : Nat) (lanes : BitVec 4)
  | portTrainingDone (port : Nat) (width : Nat)
  | ucieRetrainDone (module_ width : Nat)
  | memoryIslandFailure (die : Nat)
  | dieSequencerOrRailFault (die : Nat) (rail : Bool)
  deriving DecidableEq, Repr

end Sys2Proof
end

