-- ==== Sys2Proof/Decode.lean ====
section
/-! DEFINITION. The command that a word spells by the bits of spec/opcode_table.json. Every row of the table gives an
empty list of fields, so no word spells a command; the words and entries the manual itself lays out (instruction words,
submission entries) are read in Machine/Entry.lean. -/

namespace Sys2Proof

def decodeTableWord (_nbits _w : Nat) : Option Instr := none

end Sys2Proof
end

