-- ==== Sys2Proof/Machine/Tables.lean ====
section
/-! DEFINITION. Sparse tables and byte memories: lists in one canonical form, ascending keys without
repeats. A `Table` lists the entries that exist; a `Mem` lists the bytes that differ from 0, the value
every unlisted byte reads as (all HBM is written with zeros at start-up, 15 R427). -/

namespace Sys2Proof.Machine

/-- A sparse table: keys strictly rising. -/
abbrev Table (α : Type) := List (Nat × α)

/-- The entry under key `k`, if there is one. -/
def tblFind {α : Type} : Table α → Nat → Option α
  | [], _ => none
  | (j, a) :: t, k => if j = k then some a else tblFind t k

/-- The entry under key `k`, or `d`. -/
def tblGet {α : Type} (d : α) (t : Table α) (k : Nat) : α := (tblFind t k).getD d

/-- The table with `a` under key `k`. -/
def tblIns {α : Type} : Table α → Nat → α → Table α
  | [], k, a => [(k, a)]
  | (j, b) :: t, k, a =>
    if k < j then (k, a) :: (j, b) :: t
    else if k = j then (k, a) :: t
    else (j, b) :: tblIns t k a

/-- The table without key `k`. -/
def tblDel {α : Type} : Table α → Nat → Table α
  | [], _ => []
  | (j, b) :: t, k => if j = k then t else (j, b) :: tblDel t k

/-- The entry under `k` changed by `f`, where there is one. -/
def tblMod {α : Type} (t : Table α) (k : Nat) (f : α → α) : Table α :=
  match tblFind t k with
  | some a => tblIns t k (f a)
  | none => t

/-- `a` under `k`, or no entry when `a` is the default `d`. -/
def tblPut {α : Type} [DecidableEq α] (d : α) (t : Table α) (k : Nat) (a : α) : Table α :=
  if a = d then tblDel t k else tblIns t k a

/-- Every entry changed by `f`. -/
def tblMap {α : Type} (t : Table α) (f : Nat → α → α) : Table α := t.map fun e => (e.1, f e.1 e.2)

/-- The entries `p` keeps. -/
def tblKeep {α : Type} (t : Table α) (p : Nat → α → Bool) : Table α := t.filter fun e => p e.1 e.2

/-- The first entry `p` holds of. -/
def tblFirst {α : Type} (t : Table α) (p : Nat → α → Bool) : Option (Nat × α) := t.find? fun e => p e.1 e.2

/-- Some entry has `p`. -/
def tblAny {α : Type} (t : Table α) (p : Nat → α → Bool) : Bool := t.any fun e => p e.1 e.2

/-- How many entries have `p`. -/
def tblCount {α : Type} (t : Table α) (p : Nat → α → Bool) : Nat := (t.filter fun e => p e.1 e.2).length

/-- The least key from `k` on, within `n` keys, that has no entry. -/
def tblFreeKey {α : Type} (t : Table α) (k n : Nat) : Option Nat :=
  match n with
  | 0 => none
  | m + 1 => if (tblFind t k).isNone then some k else tblFreeKey t (k + 1) m

/-- Keys strictly rising, all above `lo`. -/
def tblAbove {α : Type} : Nat → Table α → Bool
  | _, [] => true
  | lo, (k, _) :: t => decide (lo < k) && tblAbove k t

/-- The canonical form of a table. -/
def tblWf {α : Type} : Table α → Bool
  | [] => true
  | (k, _) :: t => tblAbove k t

/-- A byte memory. -/
abbrev Mem := List Host.Cell

/-- Every unlisted byte reads as this: HBM, stores and buffers are zeroed (15 R427, 03 R73). -/
def memDefault : Byte := 0

/-- One byte read. -/
def memGet (m : Mem) (a : Nat) : Byte := tblGet memDefault m a

/-- One byte written, the canonical form kept. -/
def memSet (m : Mem) (a : Nat) (b : Byte) : Mem := tblPut memDefault m a b

/-- `n` bytes from `a` on. -/
def memRead (m : Mem) (a : Nat) : Nat → List Byte
  | 0 => []
  | n + 1 => memGet m a :: memRead m (a + 1) n

/-- A byte string written from `a` on. -/
def memWrite (m : Mem) (a : Nat) : List Byte → Mem
  | [] => m
  | b :: bs => memWrite (memSet m a b) (a + 1) bs

/-- The memory with the `n` bytes from `a` on zeroed. -/
def memZero (m : Mem) (a n : Nat) : Mem := m.filter fun c => !(decide (a ≤ c.1) && decide (c.1 < a + n))

/-- No listed byte equals the unlisted value. -/
def memDense : Mem → Bool
  | [] => true
  | (_, b) :: m => (b != memDefault) && memDense m

/-- The canonical form of a memory. -/
def memWf (m : Mem) : Bool := tblWf m && memDense m

/-- Bytes of a number, least significant first (R10). -/
def leBytes : Nat → Nat → List Byte
  | 0, _ => []
  | n + 1, v => BitVec.ofNat 8 v :: leBytes n (v / 256)

/-- The number a byte string spells, least significant first (R10). -/
def leNat : List Byte → Nat
  | [] => 0
  | b :: bs => b.toNat + 256 * leNat bs

/-- Bits `hi:lo` of a number (R10). -/
def bits (v hi lo : Nat) : Nat := v / 2 ^ lo % 2 ^ (hi + 1 - lo)

/-- Bit `i` of a number. -/
def bit (v i : Nat) : Bool := v.testBit i

/-- One bit as a number. -/
def b2n (b : Bool) : Nat := if b then 1 else 0

/-- ⌈a / b⌉. -/
def ceilDiv (a b : Nat) : Nat := (a + b - 1) / b

/-- The signed value of the low `w` bits. -/
def sext (w v : Nat) : Int :=
  let u := v % 2 ^ w
  if u < 2 ^ (w - 1) then (u : Int) else (u : Int) - (2 ^ w : Nat)

/-- An integer reduced modulo 2^w. -/
def wrap (w : Nat) (v : Int) : Nat := (v % (2 ^ w : Nat)).toNat

/-- Does [a, a+n) stay inside [b, b+m)? -/
def within (a n b m : Nat) : Bool := decide (b ≤ a) && decide (a + n ≤ b + m)

/-- Do [a, a+n) and [b, b+m) share an address? -/
def overlaps (a n b m : Nat) : Bool := decide (a < b + m) && decide (b < a + n) && decide (0 < n) && decide (0 < m)

/-- An association list with `k` mapped to `v` put in front, older entries under `k` removed. -/
def setAt {α : Type} (l : List α) (i : Nat) (a : α) : List α := l.set i a

end Sys2Proof.Machine
end

