-- ==== Sys2Proof/Machine/Num.lean ====
section
/-! DEFINITION. Number formats (02_arithmetic.md R33-R46): exact values, the element encodings of R34, the
one rounding function behind every conversion (R38-R42), and the FP32 operations of R50 and R51. Values
are exact dyadic numbers; every operation rounds once. -/

namespace Sys2Proof.Machine

/-- A value of any format: NaN, an infinity, or sign and magnitude m × 2^e (zeros keep their sign). -/
inductive Num where
  | nan
  | inf (neg : Bool)
  | fin (neg : Bool) (m : Nat) (e : Int)
  deriving DecidableEq, Repr

/-- Rounding of a magnitude: the modes of R38, SR with its 16 random bits (R42), and the rounding toward
+∞ that R41 and R45 use for scales. -/
inductive Rnd where
  | rne | rtz | up
  | sr (r : Nat)
  deriving DecidableEq, Repr

/-- The element formats of R34 that carry values (PK3 codes and E8M0 scales have functions of their own). -/
inductive Elem where
  | fp32 | bf16 | fp16 | e4m3 | e5m2 | e3m2 | e2m3 | e2m1 | int8
  deriving DecidableEq, Repr

/-- Bits of an element (R34). -/
def elemBits : Elem → Nat
  | .fp32 => 32 | .bf16 => 16 | .fp16 => 16 | .e4m3 => 8 | .e5m2 => 8
  | .e3m2 => 6 | .e2m3 => 6 | .e2m1 => 4 | .int8 => 8

/-- Mantissa bits (R34). -/
def elemMant : Elem → Nat
  | .fp32 => 23 | .bf16 => 7 | .fp16 => 10 | .e4m3 => 3 | .e5m2 => 2
  | .e3m2 => 2 | .e2m3 => 3 | .e2m1 => 1 | .int8 => 0

/-- Exponent bias (R34). -/
def elemBias : Elem → Nat
  | .fp32 => 127 | .bf16 => 127 | .fp16 => 15 | .e4m3 => 7 | .e5m2 => 15
  | .e3m2 => 3 | .e2m3 => 1 | .e2m1 => 1 | .int8 => 0

/-- Does the all-ones exponent hold infinities and NaNs as in IEEE 754 (R34)? -/
def elemIeee : Elem → Bool
  | .fp32 | .bf16 | .fp16 | .e5m2 => true
  | _ => false

/-- Canonical NaN codes (R39); formats without a NaN have none. -/
def elemNan : Elem → Option Nat
  | .fp32 => some 0x7FC00000 | .bf16 => some 0x7FC0 | .fp16 => some 0x7E00
  | .e4m3 => some 0x7F | .e5m2 => some 0x7F | _ => none

/-- Code of the largest finite magnitude (R34). -/
def elemMax : Elem → Nat
  | .fp32 => 0x7F7FFFFF | .bf16 => 0x7F7F | .fp16 => 0x7BFF | .e4m3 => 0x7E | .e5m2 => 0x7B
  | .e3m2 => 0x1F | .e2m3 => 0x1F | .e2m1 => 0x7 | .int8 => 127

/-- The value of an element code (R34). -/
def elemDec (f : Elem) (code : Nat) : Num :=
  match f with
  | .int8 => let i := sext 8 code; .fin (decide (i < 0)) i.natAbs 0
  | f =>
    let mb := elemMant f
    let w := elemBits f
    let neg := bit code (w - 1)
    let man := code % 2 ^ mb
    let ex := code / 2 ^ mb % 2 ^ (w - 1 - mb)
    if elemIeee f && ex == 2 ^ (w - 1 - mb) - 1 then (if man = 0 then .inf neg else .nan)
    else if f = .e4m3 ∧ code % 128 = 127 then .nan
    else if ex = 0 then .fin neg man (1 - (elemBias f : Int) - mb)
    else .fin neg (man + 2 ^ mb) ((ex : Int) - elemBias f - mb)

/-- Magnitude p/q × 2^sh in units of 2^qe, rounded under the mode (R38, R42). -/
def roundAt (md : Rnd) (p q : Nat) (sh qe : Int) : Nat :=
  let num := p * 2 ^ (sh - qe).toNat
  let den := q * 2 ^ (qe - sh).toNat
  let n := num / den
  let r := num % den
  match md with
  | .rtz => n
  | .up => if r = 0 then n else n + 1
  | .rne => if 2 * r < den then n else if den < 2 * r then n + 1 else n + n % 2
  | .sr x => if r = 0 then n else if x < 65536 * r / den then n + 1 else n

/-- ⌊log2 (p/q × 2^sh)⌋ for positive p and q. -/
def floorLog2 (p q : Nat) (sh : Int) : Int :=
  let d : Int := (Nat.log2 p : Int) - Nat.log2 q
  let ok := if 0 ≤ d then decide (q * 2 ^ d.toNat ≤ p) else decide (q ≤ p * 2 ^ (-d).toNat)
  (if ok then d else d - 1) + sh

/-- Sign bit of an element. -/
def signBit (f : Elem) (neg : Bool) : Nat := if neg then 2 ^ (elemBits f - 1) else 0

/-- The code of a finite magnitude p/q × 2^sh of the given sign, with R39's handling of values beyond the
largest finite one. INT8 codes are two's complement. R39's table has no row for FP32, as which a block-scaled value can be beyond the
largest one: it becomes infinity, or under RTZ the largest finite value, as BF16 and FP16 do (DESIGN CHOICE, log entry 30). -/
def encMag (f : Elem) (md : Rnd) (neg : Bool) (p q : Nat) (sh : Int) : Nat :=
  match f with
  | .int8 =>
    let n := roundAt md p q sh 0
    if neg then (if n ≤ 128 then (256 - n) % 256 else 128) else min n 127
  | f =>
    if p = 0 then signBit f neg
    else
      let mb := elemMant f
      let emin : Int := 1 - elemBias f
      let qe := max (floorLog2 p q sh) emin - mb
      let n0 := roundAt md p q sh qe
      let n := if n0 = 2 ^ (mb + 1) then 2 ^ mb else n0
      let qe := if n0 = 2 ^ (mb + 1) then qe + 1 else qe
      let code := if n < 2 ^ mb then n else (qe + mb + elemBias f).toNat * 2 ^ mb + (n - 2 ^ mb)
      if code ≤ elemMax f then signBit f neg + code
      else if elemIeee f && f != .e5m2 && md != .rtz then signBit f neg + elemMax f + 1
      else signBit f neg + elemMax f

/-- A value converted into an element format (R38, R39). An infinity or NaN into a block-scaled element is
the block's affair (R39); here it gives code 0. -/
def elemEnc (f : Elem) (md : Rnd) (v : Num) : Nat :=
  match v with
  | .fin neg m e => encMag f md neg m 1 e
  | .nan => (elemNan f).getD 0
  | .inf neg =>
    match f with
    | .int8 => if neg then 128 else 127
    | .e4m3 => 0x7F
    | f => if elemIeee f then signBit f neg + (if f = .e5m2 then 0x7C else elemMax f + 1) else 0

/-- FP32 code rounded to nearest even. -/
def f32 (v : Num) : Nat := elemEnc .fp32 .rne v

/-- The value rounded RNE to FP32. -/
def rne32 (v : Num) : Num := elemDec .fp32 (f32 v)

/-- The value of an FP32 code. -/
def of32 (code : Nat) : Num := elemDec .fp32 code

/-- Exact product (R49, R50: 0 × ∞ is NaN). -/
def numMul : Num → Num → Num
  | .nan, _ => .nan
  | _, .nan => .nan
  | .inf a, .inf b => .inf (a != b)
  | .inf a, .fin b m _ => if m = 0 then .nan else .inf (a != b)
  | .fin a m _, .inf b => if m = 0 then .nan else .inf (a != b)
  | .fin a m e, .fin b n k => .fin (a != b) (m * n) (e + k)

/-- Sign changed. -/
def numNeg : Num → Num
  | .nan => .nan
  | .inf a => .inf (!a)
  | .fin a m e => .fin (!a) m e

/-- Magnitude. -/
def numAbs : Num → Num
  | .nan => .nan
  | .inf _ => .inf false
  | .fin _ m e => .fin false m e

/-- Is it NaN? -/
def numIsNan : Num → Bool
  | .nan => true
  | _ => false

/-- Is it finite? -/
def numFinite : Num → Bool
  | .fin _ _ _ => true
  | _ => false

/-- Least exponent of the finite terms. -/
def minExp : List Num → Option Int
  | [] => none
  | .fin _ _ e :: t => some (match minExp t with | some k => min e k | none => e)
  | _ :: t => minExp t

/-- Integer total of the finite terms in units of 2^k. -/
def sumUnits (k : Int) : List Num → Int
  | [] => 0
  | .fin neg m e :: t =>
    let x : Int := (m * 2 ^ (e - k).toNat : Nat)
    (if neg then -x else x) + sumUnits k t
  | _ :: t => sumUnits k t

/-- exact_sum of R49 with the special values of R50. -/
def exactSum (l : List Num) : Num :=
  if l.any numIsNan then .nan
  else
    let pos := l.any fun x => x == .inf false
    let neg := l.any fun x => x == .inf true
    if pos && neg then .nan
    else if pos then .inf false
    else if neg then .inf true
    else
      let k := (minExp l).getD 0
      let s := sumUnits k l
      if s = 0 then .fin (l.all fun x => match x with | .fin n _ _ => n | _ => false) 0 0
      else .fin (decide (s < 0)) s.natAbs k

/-- FP32 addition, multiplication and fused multiply-add (R51). -/
def add32 (a b : Num) : Num := rne32 (exactSum [a, b])
def mul32 (a b : Num) : Num := rne32 (numMul a b)
def fma32 (a b c : Num) : Num := rne32 (exactSum [numMul a b, c])

/-- a < b, −0 below +0; false when either is NaN (R51). -/
def numLt (a b : Num) : Bool :=
  match a, b with
  | .nan, _ => false
  | _, .nan => false
  | .inf x, .inf y => x && !y
  | .inf x, .fin _ _ _ => x
  | .fin _ _ _, .inf y => !y
  | .fin x m e, .fin y n k =>
    let z := min e k
    let u : Nat := m * 2 ^ (e - z).toNat
    let w : Nat := n * 2 ^ (k - z).toNat
    match x, y with
    | true, false => true
    | false, true => false
    | false, false => decide (u < w)
    | true, true => decide (w < u)

/-- *maximum* and *minimum* of IEEE 754-2019 (R51). -/
def numMax (a b : Num) : Num := if numIsNan a || numIsNan b then .nan else if numLt a b then b else a
def numMin (a b : Num) : Num := if numIsNan a || numIsNan b then .nan else if numLt b a then b else a

/-- The largest magnitude of a list by the maximum of R51; +0 of an empty list. -/
def amax (l : List Num) : Num := l.foldl (fun a x => numMax a (numAbs x)) (.fin false 0 0)

/-- The FP32 code of a/b rounded RNE, for the quotients of R41, R45 and the reciprocal. -/
def div32 (a b : Num) : Num :=
  match a, b with
  | .nan, _ => .nan
  | _, .nan => .nan
  | .inf _, .inf _ => .nan
  | .inf x, .fin y _ _ => .inf (x != y)
  | .fin x _ _, .inf y => .fin (x != y) 0 0
  | .fin x m e, .fin y n k =>
    if n = 0 then (if m = 0 then .nan else .inf (x != y))
    else of32 (encMag .fp32 .rne (x != y) m n (e - k))

/-- ⌊√n⌋ by bisection on `k` bits. -/
def isqrtGo (n : Nat) : Nat → Nat → Nat
  | 0, r => r
  | k + 1, r => let t := r + 2 ^ k; isqrtGo n k (if t * t ≤ n then t else r)

/-- ⌊√n⌋. -/
def isqrt (n : Nat) : Nat := isqrtGo n (Nat.log2 n / 2 + 1) 0

/-- Fractional bits of the fixed-point evaluations of EXP2 and LOG2. -/
def fixBits : Nat := 200

/-- Σ_{j=n}^{n+k-1} one/(j·2^j): ln 2 in fixed point. -/
def ln2Go : Nat → Nat → Nat
  | 0, _ => 0
  | k + 1, j => 2 ^ fixBits / (j * 2 ^ j) + ln2Go k (j + 1)

/-- ln 2 × 2^200, truncated. -/
def ln2Fix : Nat := ln2Go 200 1

/-- e^y for 0 ≤ y < 1 in fixed point: Σ y^j/j!. -/
def expGo (y : Nat) : Nat → Nat → Nat → Nat
  | 0, _, _ => 0
  | k + 1, j, t => t + expGo y k (j + 1) (t * y / 2 ^ fixBits / (j + 1))

/-- EXP2 correctly rounded (R51). A non-integer argument has an irrational power; the 200-bit evaluation
decides its rounding. -/
def exp2f (v : Num) : Num :=
  match v with
  | .nan => .nan
  | .inf true => .fin false 0 0
  | .inf false => .inf false
  | .fin neg m e =>
    if m = 0 then .fin false 1 0
    else if decide (16 < (Nat.log2 m : Int) + e) then (if neg then .fin false 0 0 else .inf false)
    else
      -- x = ip + fp/2^200 with ip = floor x
      let x : Int :=
        let u : Int := (m * 2 ^ (e + fixBits).toNat / 2 ^ (-(e + fixBits)).toNat : Nat)
        if neg then -u else u
      let ip : Int := x / (2 ^ fixBits : Nat)
      let fp : Nat := (x % (2 ^ fixBits : Nat)).toNat
      -- a magnitude below 2^-200 leaves no bit: 1 plus or minus something, rounding to 1
      if fp = 0 ∧ decide (0 ≤ e + fixBits) then of32 (encMag .fp32 .rne false 1 1 ip)
      else
        let y := fp * ln2Fix / 2 ^ fixBits
        let p := expGo y 80 0 (2 ^ fixBits)
        of32 (encMag .fp32 .rne false (2 * p + 1) (2 ^ (fixBits + 1)) ip)

/-- 2·atanh z in fixed point: 2·Σ z^(2j+1)/(2j+1). -/
def atanhGo (z2 : Nat) : Nat → Nat → Nat → Nat
  | 0, _, _ => 0
  | k + 1, j, t => 2 * t / j + atanhGo z2 k (j + 2) (t * z2 / 2 ^ fixBits)

/-- LOG2 correctly rounded (R51). -/
def log2f (v : Num) : Num :=
  match v with
  | .nan => .nan
  | .inf true => .nan
  | .inf false => .inf false
  | .fin neg m e =>
    if m = 0 then .inf true
    else if neg then .nan
    else
      let k := Nat.log2 m
      let ip : Int := (k : Int) + e
      if m = 2 ^ k then rne32 (.fin (decide (ip < 0)) ip.natAbs 0)
      else
        let z := (m - 2 ^ k) * 2 ^ fixBits / (m + 2 ^ k)
        let ln := atanhGo (z * z / 2 ^ fixBits) 80 1 z
        let fr := ln * 2 ^ fixBits / ln2Fix
        let x : Int := ip * (2 ^ fixBits : Nat) + fr
        of32 (encMag .fp32 .rne (decide (x < 0)) (2 * x.natAbs + 1) 2 (-(fixBits : Int)))

/-- RCP (R51). -/
def rcpf (v : Num) : Num := div32 (.fin false 1 0) v

/-- RSQRT correctly rounded (R51): 1/√x from an integer square root with a sticky bit. -/
def rsqrtf (v : Num) : Num :=
  match v with
  | .nan => .nan
  | .inf true => .nan
  | .inf false => .fin false 0 0
  | .fin neg m e =>
    if m = 0 then .inf neg
    else if neg then .nan
    else
      -- x = m·2^e, made e even; 1/√x = √(2^(2t)/m) · 2^(-t - e/2)
      let m2 := if e % 2 = 0 then m else 2 * m
      let e2 := if e % 2 = 0 then e else e - 1
      let t := 64 + Nat.log2 m2
      let n := 2 ^ (2 * t) / m2
      let r := isqrt n
      let exact := decide (2 ^ (2 * t) % m2 = 0) && decide (r * r = n)
      of32 (encMag .fp32 .rne false (if exact then 2 * r else 2 * r + 1) 2 (-(t : Int) - e2 / 2))

/-! ### Stochastic rounding (R42) -/

/-- The 16 random bits for ordinal n at position p. -/
def srDraw (seed n p : Nat) : Nat :=
  let x := (seed + 0x9E3779B9 * n + 0x27D4EB2F * p) % 2 ^ 32
  let x := x ^^^ (x / 2 ^ 16)
  let x := x * 0x85EBCA6B % 2 ^ 32
  let x := x ^^^ (x / 2 ^ 13)
  let x := x * 0xC2B2AE35 % 2 ^ 32
  let x := x ^^^ (x / 2 ^ 16)
  x % 2 ^ 16

/-! ### Format codes (R33) -/

/-- Block scale of a format. -/
inductive Scale where
  | one | e8m0 | e4m3
  deriving DecidableEq, Repr

/-- Element of an engine operand format, codes 0x1 to 0xC (R33). -/
def fmtElem : Nat → Option Elem
  | 1 => some .bf16 | 2 => some .fp16 | 3 => some .e4m3 | 4 => some .e5m2 | 5 => some .int8
  | 6 => some .e4m3 | 7 => some .e5m2 | 8 => some .e2m3 | 9 => some .e3m2 | 10 => some .e2m1
  | 11 => some .int8 | 12 => some .e2m1 | _ => none

/-- Block scale of an engine operand format (R33). -/
def fmtScale (f : Nat) : Scale :=
  if 6 ≤ f ∧ f ≤ 11 then .e8m0 else if f = 12 then .e4m3 else .one

/-- Is it an MX format, codes 0x6 to 0xB (R35)? -/
def isMx (f : Nat) : Bool := decide (6 ≤ f) && decide (f ≤ 11)

/-- A page format code (R33). -/
def isPageFmt (f : Nat) : Bool := decide (1 ≤ f ∧ f ≤ 4) || decide (13 ≤ f ∧ f ≤ 15)

/-- A format the append port writes, and a resident page format (R33, R47). -/
def isAppendFmt (f : Nat) : Bool := decide (1 ≤ f ∧ f ≤ 4)

/-- A parked format PK8, PK4 or PK3. -/
def isParkFmt (f : Nat) : Bool := decide (13 ≤ f ∧ f ≤ 15)

/-- Value of an E8M0 scale code (R34, R35). -/
def e8m0 (c : Nat) : Num := if c % 256 = 255 then .nan else .fin false 1 ((c % 256 : Nat) - 127)

/-- Value of an E4M3 scale code, the sign bit read as 0 (R36). -/
def e4m3s (c : Nat) : Num := elemDec .e4m3 (c % 128)

/-- Value of a block scale code in an engine operand format; MXINT8 folds its 2^-6 in (R35, R53). -/
def scaleVal (f c : Nat) : Num :=
  match fmtScale f with
  | .one => .fin false 1 0
  | .e4m3 => e4m3s c
  | .e8m0 => if f = 11 then numMul (e8m0 c) (.fin false 1 (-6)) else e8m0 c

/-- emax of R40. -/
def emaxOf : Nat → Int
  | 6 => 8 | 7 => 15 | 9 => 4 | 8 => 2 | 10 => 2 | _ => 0

/-- Shared exponent of R40 for a finite amax. -/
def sharedExp (amx : Num) (emx : Int) : Int :=
  match amx with
  | .fin _ m e => if m = 0 then -127 else max (-127) (min 127 (floorLog2 m 1 e - emx))
  | _ => 127

/-- Largest finite element of an MXINT8 block by sign (R39: ± largest finite element). -/
def encMxElem (f : Nat) (el : Elem) (md : Rnd) (v : Num) : Nat :=
  if f = 11 then
    match v with
    | .fin neg m e =>
      let n := min 127 (roundAt md m 1 e (-6))
      if neg then (256 - n) % 256 else n
    | _ => 0
  else elemEnc el md v

/-- A block of 32 values into an MX format (R40): scale code and element codes. `md i` is the rounding of
element i. -/
def mxBlock (f : Nat) (el : Elem) (md : Nat → Rnd) (vs : List Num) : Nat × List Nat :=
  if vs.all numFinite then
    let x := sharedExp (amax vs) (emaxOf f)
    ((x + 127).toNat, vs.mapIdx fun i v => encMxElem f el (md i) (numMul v (.fin false 1 (-x))))
  else (0xFF, vs.map fun _ => 0)

/-- A block of 32 values into FP4S (R41). -/
def fp4sBlock (md : Rnd) (vs : List Num) : Nat × List Nat :=
  if vs.all numFinite then
    let q := div32 (amax vs) (.fin false 6 0)
    match q with
    | .fin _ 0 _ => (0, vs.map fun _ => 0)
    | q =>
      let sc := elemEnc .e4m3 .up q
      (sc, vs.map fun v => elemEnc .e2m1 md (div32 v (e4m3s sc)))
  else (0x7F, vs.map fun _ => 0)

/-! ### Packing (R37) -/

/-- Codes of width `w`, lower index in lower bits, as one number. -/
def packBits (w : Nat) : List Nat → Nat
  | [] => 0
  | c :: cs => c % 2 ^ w + 2 ^ w * packBits w cs

/-- Codes of width `w` as bytes. -/
def packBytes (w : Nat) (cs : List Nat) : List Byte := leBytes (ceilDiv (w * cs.length) 8) (packBits w cs)

/-- Code of width `w` at index `i` of a packed array whose byte `j` is `rd j`. -/
def unpackAt (rd : Nat → Byte) (w i : Nat) : Nat :=
  let o := i * w
  let b := o / 8
  leNat [rd b, rd (b + 1), rd (b + 2), rd (b + 3)] / 2 ^ (o % 8) % 2 ^ w

/-- A list cut into blocks of `n`. -/
def chunks {α : Type} (n : Nat) (l : List α) : Nat → List (List α)
  | 0 => []
  | k + 1 => if l.isEmpty then [] else l.take n :: chunks n (l.drop n) k

/-- The byte image of `vs` in format `f` (0 is FP32): elements, then, at once after them, block scales
(R78's order). `md i` is the rounding of element i. -/
def encodeArray (f : Nat) (md : Nat → Rnd) (vs : List Num) : List Byte :=
  match fmtElem f with
  | none => packBytes 32 (vs.mapIdx fun i v => elemEnc .fp32 (md i) v)
  | some el =>
    match fmtScale f with
    | .one => packBytes (elemBits el) (vs.mapIdx fun i v => elemEnc el (md i) v)
    | .e8m0 =>
      let bl := (chunks 32 vs vs.length).mapIdx fun j b => mxBlock f el (fun i => md (32 * j + i)) b
      packBytes (elemBits el) (bl.flatMap fun b => b.2) ++ bl.map fun b => BitVec.ofNat 8 b.1
    | .e4m3 =>
      let bl := (chunks 32 vs vs.length).map fun b => fp4sBlock (md 0) b
      packBytes (elemBits el) (bl.flatMap fun b => b.2) ++ bl.map fun b => BitVec.ofNat 8 b.1

/-- Bytes of `n` elements in format `f` with their block scales. -/
def arrayBytes (f n : Nat) : Nat :=
  match fmtElem f with
  | none => 4 * n
  | some el => ceilDiv (elemBits el * n) 8 + (if fmtScale f = .one then 0 else n / 32)

/-- Element `i` of an array of `n` in format `f` at which byte `j` is `rd j`: element value and scale. -/
def arrayElem (f n : Nat) (rd : Nat → Byte) (i : Nat) : Num × Num :=
  match fmtElem f with
  | none => (of32 (unpackAt rd 32 i), .fin false 1 0)
  | some el =>
    let sc := ceilDiv (elemBits el * n) 8
    (elemDec el (unpackAt rd (elemBits el) i), scaleVal f (rd (sc + i / 32)).toNat)

/-- An exact integer power is a value too: SR draws start at ordinal `n0`. -/
def srMode (seed n0 pos i : Nat) : Rnd := .sr (srDraw seed (n0 + i) pos)

end Sys2Proof.Machine
end

