-- ==== Sys2Proof/Machine/Engine.lean ====
section
/-! DEFINITION. Engine arithmetic (02_arithmetic.md R43-R60, 04_attention.md R106-R110): page layouts, the
parking codec, the accumulation of R49, and the three engine operations as functions of a byte reader. -/

namespace Sys2Proof.Machine

/-! ### Computation formats (R53, R54) -/

/-- Exact widening of R53's table. -/
def widens : Elem → Elem → Bool
  | .e2m1, .e2m3 | .e2m1, .e3m2 | .e2m1, .e4m3 | .e2m1, .e5m2 | .e2m1, .bf16 | .e2m1, .fp16 => true
  | .e2m3, .e4m3 | .e2m3, .bf16 | .e2m3, .fp16 => true
  | .e3m2, .e4m3 | .e3m2, .e5m2 | .e3m2, .bf16 | .e3m2, .fp16 => true
  | .e4m3, .bf16 | .e4m3, .fp16 | .e5m2, .bf16 | .e5m2, .fp16 => true
  | .int8, .bf16 | .int8, .fp16 => true
  | _, _ => false

/-- Computation format of two element formats, if they are comparable (R53). -/
def compElem (a b : Elem) : Option Elem :=
  if a = b then some a else if widens a b then some b else if widens b a then some a else none

/-- Computation format of a query format and a page format (R54). -/
def compPair (q pg : Nat) : Option Elem :=
  match q, pg with
  | 3, 1 => some .bf16 | 3, 2 => some .fp16 | 3, 3 => some .e4m3
  | 3, 13 => some .e4m3 | 3, 14 => some .e4m3 | 3, 15 => some .e4m3
  | 4, 1 => some .bf16 | 4, 2 => some .fp16 | 4, 4 => some .e5m2 | 4, 14 => some .e5m2 | 4, 15 => some .e5m2
  | 1, 1 | 1, 3 | 1, 4 | 1, 13 | 1, 14 | 1, 15 => some .bf16
  | 2, 2 | 2, 3 | 2, 4 | 2, 13 | 2, 14 | 2, 15 => some .fp16
  | _, _ => none

/-- Multiply-accumulates per cell and beat of a computation format (R48). -/
def macsPerBeat : Elem → Nat
  | .bf16 | .fp16 | .fp32 => 1
  | .e2m1 => 4
  | _ => 2

/-- Group size G of R49. -/
def groupOf (e : Elem) : Nat := if macsPerBeat e = 1 then 1 else 32

/-- Beats of an operation: data beats (R48, R58) and, unless checks are off, check beats (R61). -/
def beats (e : Elem) (k : Nat) (sparse checks : Bool) : Nat :=
  let d := k / macsPerBeat e
  let n := if sparse then d / 2 else d
  if checks then n + ceilDiv n 32 else n

/-! ### Accumulation (R49, R50) -/

/-- The update of one accumulator by one group; a group with no term makes no update. -/
def accGroup (acc : Num) (terms : List (Option Num)) : Num :=
  match terms.filterMap id with
  | [] => acc
  | ts => rne32 (exactSum (acc :: ts))

/-- The accumulator after all groups of `g` positions, ascending. -/
def accumulate (g : Nat) (terms : List (Option Num)) (acc : Num) : Num :=
  (chunks g terms terms.length).foldl accGroup acc

/-- A product of two scaled elements, formed exactly (R49). -/
def term (a w : Num × Num) : Num := numMul (numMul a.1 a.2) (numMul w.1 w.2)

/-! ### ENG.MM (R58, R59, R78) -/

/-- Bytes of one W tile. -/
def wTileBytes (f k : Nat) (sparse : Bool) : Nat :=
  if sparse then
    match fmtElem f with
    | none => 0
    | some el => ceilDiv (elemBits el * (8 * k)) 8 + (if fmtScale f = .one then 0 else k / 2) + 2 * k
  else arrayBytes f (16 * k)

/-- W element at reduction position `k` of column `j`: none when skipped; and whether its nibble is bad. -/
def wElem (f kk : Nat) (sparse : Bool) (rd : Nat → Byte) (j k : Nat) : Option (Num × Num) :=
  if !sparse then some (arrayElem f (16 * kk) rd (j * kk + k))
  else
    match fmtElem f with
    | none => none
    | some el =>
      let eb := ceilDiv (elemBits el * (8 * kk)) 8
      let nb := eb + (if fmtScale f = .one then 0 else kk / 2)
      let g := k / 4
      let nib := unpackAt (fun i => rd (nb + i)) 4 (j * kk / 4 + g)
      let i0 := nib % 4
      let i1 := nib / 4
      let st := j * kk / 2 + 2 * g
      let sc := scaleVal f (rd (eb + j * (kk / 32) + k / 32)).toNat
      if i1 ≤ i0 then none
      else if k % 4 = i0 then some (elemDec el (unpackAt rd (elemBits el) st), sc)
      else if k % 4 = i1 then some (elemDec el (unpackAt rd (elemBits el) (st + 1)), sc)
      else none

/-- Some index nibble of column tile `rd` has i0 ≥ i1 (R59). -/
def badNibble (f kk : Nat) (rd : Nat → Byte) : Bool :=
  match fmtElem f with
  | none => false
  | some el =>
    let nb := ceilDiv (elemBits el * (8 * kk)) 8 + (if fmtScale f = .one then 0 else kk / 2)
    (List.range (4 * kk)).any fun i =>
      let nib := unpackAt (fun k => rd (nb + k)) 4 i
      decide (nib / 4 ≤ nib % 4)

/-- Terms of one output of ENG.MM: row `i` of A against column `j` of one W tile. -/
def mmTerms (fa fw kk : Nat) (sparse : Bool) (rdA rdW : Nat → Byte) (i j : Nat) : List (Option Num) :=
  (List.range kk).map fun k => (wElem fw kk sparse rdW j k).map fun w => term (arrayElem fa (16 * kk) rdA (i * kk + k)) w

/-- One output of ENG.MM from the start `acc`. -/
def mmCell (fa fw kk : Nat) (sparse : Bool) (g : Nat) (rdA rdW : Nat → Byte) (i j : Nat) (acc : Num) : Num :=
  accumulate g (mmTerms fa fw kk sparse rdA rdW i j) acc

/-! ### The result check (R62) -/

/-- The check of one column fails: `starts`, `terms` and `ys` are the starting values, exact terms and FP32 results of its 16
rows. z_j and mag_j are formed exactly (DESIGN CHOICE, log entry 56), y_j in FP32; a column with a value that is not finite,
`ins` included, is not checked. -/
def colFails (kg : Nat) (ins starts : List Num) (terms : List (List (Option Num))) (ys : List Num) : Bool :=
  let ts := terms.flatten.filterMap id
  (ins ++ starts ++ ts ++ ys).all numFinite &&
    let y := ys.tail.foldl add32 (ys.headD (.fin false 0 0))
    let z := exactSum (starts ++ ts)
    let mag := exactSum (ts.map numAbs)
    numLt (exactSum [numMul (.fin false (kg + 48) (-22)) mag, .fin false 1 (-120)]) (numAbs (exactSum [y, numNeg z]))

/-! ### Page payloads (R43, R44) -/

/-- Bits of a key element and of a value element of a page format. -/
def keyBits : Nat → Nat
  | 1 => 16 | 2 => 16 | 3 => 8 | 4 => 8 | 13 => 8 | 14 => 4 | 15 => 3 | _ => 0
def valBits : Nat → Nat
  | 15 => 4 | f => keyBits f

/-- Bytes of one scale section. -/
def scaleBytes (f c : Nat) : Nat := if f = 13 then c else if f = 14 ∨ f = 15 then 8 * c else 0

/-- Section offsets: values, key scales, value scales, key offsets, end of payload. -/
def valOff (f ck : Nat) : Nat := 32 * keyBits f * ck
def kScaleOff (f ck cv : Nat) : Nat := valOff f ck + 32 * valBits f * cv
def vScaleOff (f ck cv : Nat) : Nat := kScaleOff f ck cv + scaleBytes f ck
def kOffsOff (f ck cv : Nat) : Nat := vScaleOff f ck cv + scaleBytes f cv
/-- Payload bytes of a page (R43). -/
def payloadBytes (f ck cv : Nat) : Nat := kOffsOff f ck cv + (if f = 14 ∨ f = 15 then 2 * ck else 0)

/-- Has the page format key offsets? -/
def hasOffsets (f : Nat) : Bool := decide (f = 14 ∨ f = 15)

/-- Value of a PK3 code, c + 0.5 (R34). -/
def pk3Val (c : Nat) : Num := let i := 2 * sext 3 c + 1; .fin (decide (i < 0)) i.natAbs (-1)

/-- Element format of a page's elements other than PK3 codes. -/
def pageElemFmt : Nat → Elem
  | 1 => .bf16 | 2 => .fp16 | 3 => .e4m3 | 4 => .e5m2 | 13 => .e4m3 | _ => .e2m1

/-- Key (t, c) of a page: element and scale. -/
def pageKey (f ck cv : Nat) (rd : Nat → Byte) (t c : Nat) : Num × Num :=
  let code := unpackAt rd (keyBits f) (t * ck + c)
  let so := kScaleOff f ck cv
  match f with
  | 13 => (elemDec .e4m3 code, e4m3s (rd (so + c)).toNat)
  | 14 => (elemDec .e2m1 code, e8m0 (rd (so + t * (ck / 32) + c / 32)).toNat)
  | 15 => (pk3Val code, e4m3s (rd (so + t * (ck / 32) + c / 32)).toNat)
  | f => (elemDec (pageElemFmt f) code, .fin false 1 0)

/-- Value (t, c) of a page: element and scale. -/
def pageVal (f ck cv : Nat) (rd : Nat → Byte) (t c : Nat) : Num × Num :=
  let code := unpackAt (fun i => rd (valOff f ck + i)) (valBits f) (t * cv + c)
  let so := vScaleOff f ck cv
  match f with
  | 13 => (elemDec .e4m3 code, e4m3s (rd (so + c)).toNat)
  | 14 | 15 => (elemDec .e2m1 code, e8m0 (rd (so + t * (cv / 32) + c / 32)).toNat)
  | f => (elemDec (pageElemFmt f) code, .fin false 1 0)

/-- Key offset of channel c; 0 in a format without offsets. -/
def pageOffset (f ck cv : Nat) (rd : Nat → Byte) (c : Nat) : Num :=
  if hasOffsets f then elemDec .fp16 (unpackAt (fun i => rd (kOffsOff f ck cv + i)) 16 c) else .fin false 0 0

/-! ### The parking codec (R45, R46) -/

/-- Offset of key channel c over the filled slots (R45). -/
def codecOffset (fill : Nat) (x : Nat → Num) : Nat :=
  if fill = 0 then 0
  else elemEnc .fp16 .rne (div32 ((List.range fill).foldl (fun s t => add32 s (x t)) (.fin false 0 0)) (.fin false fill 0))

/-- PK8 scale and elements of one channel (R45). -/
def pk8Channel (fill : Nat) (x : Nat → Num) : Nat × List Nat :=
  let am := amax ((List.range fill).map x)
  let s := match am with | .fin _ 0 _ => 0x38 | a => elemEnc .e4m3 .up (div32 a (.fin false 448 0))
  (s, (List.range 256).map fun t => if t < fill then elemEnc .e4m3 .rne (div32 (x t) (e4m3s s)) else 0)

/-- A PK4 block of 32 residuals (R45, R40 with emax 2). -/
def pk4Block (r : List Num) : Nat × List Nat := mxBlock 10 .e2m1 (fun _ => .rne) r

/-- ⌊v⌋ clamped to [−4, 3] as a 3-bit code. -/
def pk3Code (v : Num) : Nat :=
  match v with
  | .fin neg m e =>
    let a : Int := (m * 2 ^ e.toNat / 2 ^ (-e).toNat : Nat)
    let exact := decide (m * 2 ^ e.toNat % 2 ^ (-e).toNat = 0)
    let fl := if neg then (if exact then -a else -a - 1) else a
    wrap 3 (max (-4) (min 3 fl))
  | .inf true => 4
  | _ => 3

/-- A PK3 key block of 32 residuals (R45). -/
def pk3Block (r : List Num) : Nat × List Nat :=
  if r.all numFinite then
    let s := elemEnc .e4m3 .up (div32 (amax r) (.fin false 7 (-1)))
    (s, r.map fun v => if s = 0 then 0 else pk3Code (div32 v (e4m3s s)))
  else (0x7F, r.map fun _ => 0)

/-- Residual of a key against its channel offset. -/
def residual (x o : Num) : Num := add32 x (numNeg o)

/-- The parked payload of a resident page (R45): `f` the resident format, `pf` the parked one. -/
def codecEncode (f pf ck cv fill : Nat) (rd : Nat → Byte) : List Byte :=
  let key := fun t c => (pageKey f ck cv rd t c).1
  let val := fun t c => (pageVal f ck cv rd t c).1
  let b8 := fun (l : List Nat) => l.map (BitVec.ofNat 8)
  if pf = 13 then
    let ks := (List.range ck).map fun c => pk8Channel fill fun t => key t c
    let vs := (List.range cv).map fun c => pk8Channel fill fun t => val t c
    let elems := fun (l : List (Nat × List Nat)) => (List.range 256).flatMap fun t => l.map fun ch => ch.2.getD t 0
    packBytes 8 (elems ks) ++ packBytes 8 (elems vs) ++ b8 (ks.map fun c => c.1) ++ b8 (vs.map fun c => c.1)
  else
    let offs := (List.range ck).map fun c => codecOffset fill fun t => key t c
    let o := fun c => elemDec .fp16 (offs.getD c 0)
    let blank : Nat × List Nat := (0, List.replicate 32 0)
    let kb := (List.range 256).flatMap fun t => (List.range (ck / 32)).map fun b =>
      if t < fill then
        let r := (List.range 32).map fun i => residual (key t (32 * b + i)) (o (32 * b + i))
        if pf = 15 then pk3Block r else pk4Block r
      else blank
    let vb := (List.range 256).flatMap fun t => (List.range (cv / 32)).map fun b =>
      if t < fill then pk4Block ((List.range 32).map fun i => val t (32 * b + i)) else blank
    packBytes (if pf = 15 then 3 else 4) (kb.flatMap fun b => b.2) ++ packBytes 4 (vb.flatMap fun b => b.2)
      ++ b8 (kb.map fun b => b.1) ++ b8 (vb.map fun b => b.1) ++ packBytes 16 offs

/-- The resident payload of a parked page (R46): one fused multiply-add for each element. Where R44 gives an element no
offset (PK4 and PK3 values) the addend is +0, as R46 says of PK8 pages, so that an element −0 expands to +0 (DESIGN CHOICE,
log entry 57). -/
def codecExpand (pf f ck cv : Nat) (rd : Nat → Byte) : List Byte :=
  let el := pageElemFmt f
  let dec := fun (p : Num × Num) (o : Num) => elemEnc el .rne (fma32 p.1 p.2 o)
  packBytes (elemBits el) ((List.range 256).flatMap fun t => (List.range ck).map fun c =>
    dec (pageKey pf ck cv rd t c) (pageOffset pf ck cv rd c))
  ++ packBytes (elemBits el) ((List.range 256).flatMap fun t => (List.range cv).map fun c =>
    dec (pageVal pf ck cv rd t c) (.fin false 0 0))

/-! ### Attention on a page (R56, R106-R110) -/

/-- ω of a query row over the channels from `cb` on (R56). -/
def omega (n : Nat) (q o : Nat → Num) : Num :=
  (List.range n).foldl (fun w c => fma32 (q c) (o c) w) (.fin false 0 0)

/-- Where the accumulator of a query row starts (R106, R108): `init` the loaded start, none under ACCIN 0b00. -/
def atsStart (f ck cv k cb : Nat) (q : Nat → Num) (rd : Nat → Byte) (init : Option Num) : Num :=
  if hasOffsets f then
    let w := omega k q (fun c => pageOffset f ck cv rd (cb + c))
    match init with | some a => add32 a w | none => w
  else init.getD (.fin false 0 0)
/-- Terms of one query row and one slot. -/
def atsTerms (f ck cv k cb : Nat) (q : Nat → Num) (rd : Nat → Byte) (t : Nat) : List (Option Num) :=
  (List.range k).map fun c => some (term (q c, .fin false 1 0) (pageKey f ck cv rd t (cb + c)))
/-- Score of one query row and one slot (R106, R108). -/
def atsCell (f ck cv k cb : Nat) (g : Nat) (q : Nat → Num) (rd : Nat → Byte) (t : Nat) (init : Option Num) : Num :=
  accumulate g (atsTerms f ck cv k cb q rd t) (atsStart f ck cv k cb q rd init)

/-- σ_r of R110. -/
def sigma (ps : List (Option Num)) : Num :=
  (ps.filterMap id).foldl add32 (.fin true 0 0)

/-- Where the accumulator of one row and one channel starts (R106, R110): `p i` is the converted probability of slot
tstart + i, none when the slot is masked. -/
def atvStart (f ck cv k : Nat) (p : Nat → Option Num) (rd : Nat → Byte) (c : Nat) (init : Option Num) : Num :=
  if cv = 0 ∧ hasOffsets f then
    let so := mul32 (sigma ((List.range k).map p)) (pageOffset f ck cv rd c)
    match init with | some a => add32 a so | none => so
  else init.getD (.fin false 0 0)
/-- Terms of one row and one channel (R107). -/
def atvTerms (f ck cv k ts : Nat) (p : Nat → Option Num) (rd : Nat → Byte) (c : Nat) : List (Option Num) :=
  let v := fun t => if cv = 0 then pageKey f ck cv rd t c else pageVal f ck cv rd t c
  (List.range k).map fun i => (p i).map fun pr => term (pr, .fin false 1 0) (v (ts + i))
/-- Sum of one row and one channel. -/
def atvCell (f ck cv k ts : Nat) (g : Nat) (p : Nat → Option Num) (rd : Nat → Byte) (c : Nat) (init : Option Num) : Num :=
  accumulate g (atvTerms f ck cv k ts p rd c) (atvStart f ck cv k p rd c init)

/-- Byte ranges of a page payload that ATS over slots [t, t+n) and channels [cb, cb+k) reads. -/
def keyRanges (f ck cv t n cb k : Nat) : List (Nat × Nat) :=
  (List.range n).flatMap fun i =>
    let b0 := keyBits f * ((t + i) * ck + cb)
    let el := (b0 / 8, ceilDiv (b0 + keyBits f * k) 8 - b0 / 8)
    let so := kScaleOff f ck cv
    let sc :=
      if f = 13 then [(so + cb, k)]
      else if hasOffsets f then [(so + (t + i) * (ck / 32) + cb / 32, ceilDiv (cb + k) 32 - cb / 32), (kOffsOff f ck cv + 2 * cb, 2 * k)]
      else []
    el :: sc

/-- As `keyRanges`, for the value section. -/
def valRanges (f ck cv t n cb k : Nat) : List (Nat × Nat) :=
  (List.range n).flatMap fun i =>
    let b0 := valBits f * ((t + i) * cv + cb)
    let el := (valOff f ck + b0 / 8, ceilDiv (b0 + valBits f * k) 8 - b0 / 8)
    let so := vScaleOff f ck cv
    let sc :=
      if f = 13 then [(so + cb, k)]
      else if hasOffsets f then [(so + (t + i) * (cv / 32) + cb / 32, ceilDiv (cb + k) 32 - cb / 32)]
      else []
    el :: sc

/-! ### The vector unit (R51, R74) -/

/-- RSUM: 64 lanes from −0, then six pairwise levels. -/
def pairUp (f : Num → Num → Num) : List Num → List Num
  | a :: b :: t => f a b :: pairUp f t
  | l => l

/-- Lane reduction of R74 with start `z`. -/
def laneReduce (f : Num → Num → Num) (z : Num) (vs : List Num) : Num :=
  let lanes := (List.range 64).map fun l => ((vs.mapIdx fun i v => (i, v)).filter fun p => p.1 % 64 = l).foldl (fun a p => f a p.2) z
  (pairUp f (pairUp f (pairUp f (pairUp f (pairUp f (pairUp f lanes)))))).headD z

/-- Result of VEC function `fn` on element lists a, b and the old destination d; none for a code the
function list does not name. -/
def vecFunc (fn : Nat) (a b d : List Num) : Option (List Num) :=
  match fn with
  | 0x00 => some (List.zipWith add32 a b)
  | 0x01 => some (List.zipWith (fun x y => add32 x (numNeg y)) a b)
  | 0x02 => some (List.zipWith mul32 a b)
  | 0x03 => some (List.zipWith (fun p z => fma32 p.1 p.2 z) (List.zip a b) d)
  | 0x04 => some (List.zipWith numMin a b)
  | 0x05 => some (List.zipWith numMax a b)
  | 0x06 => some (a.map exp2f)
  | 0x07 => some (a.map log2f)
  | 0x08 => some (a.map rcpf)
  | 0x09 => some (a.map rsqrtf)
  | 0x0A => some [laneReduce numMax (.inf true) a]
  | 0x0B => some [laneReduce add32 (.fin true 0 0) a]
  | 0x0C => some (a.map fun x => mul32 x (b.headD .nan))
  | 0x0D => some (a.map fun x => add32 x (b.headD .nan))
  | _ => none

/-- Cost of VEC in cycles of ACLK (R74). -/
def vecCost (fn n : Nat) : Nat :=
  if 6 ≤ fn ∧ fn ≤ 9 then 12 + 2 * ceilDiv n 64
  else if fn = 10 ∨ fn = 11 then 10 + ceilDiv n 64
  else 4 + ceilDiv n 64

end Sys2Proof.Machine
end

