-- ==== Sys2Proof/Config.lean ====
section
/-! DEFINITION. What the manual fixes once for the part, and the FREE VALUES: constants with no body,
so that nothing in Lean can evaluate them or prove a value of them. Every use names its log entry. -/

namespace Sys2Proof

/-- Fresh value number `n` (random bytes, keys, ephemeral keys; 12 R338, R349): one per use of the
state's counter. -/
opaque Config.fresh : Nat → Nat

/-- The key an agreement (R351) or a derivation yields from its inputs. -/
opaque Config.kdf : List Nat → Nat

/-- AES-256 key stream byte `i` under (key, nonce) (12 R340, R352). -/
opaque Config.keyStream : Nat → Nat → Nat → Byte

/-- The 128-bit GCM tag of (key, nonce) over additional data and text (12 R340, R352). -/
opaque Config.gcmTag : Nat → Nat → List Byte → List Byte → BitVec 128

/-- The Ed25519 signature over a byte string that a public key accepts (12 R344, R345). -/
opaque Config.signature : Nat → List Byte → BitVec 512

/-- Byte `i` of the AES-256-XTS ciphertext of a 64-byte line under (key, tweak) (12 R342). -/
opaque Config.xts : Nat → Nat → List Byte → Nat → Byte

/-- The HBM frame behind a context frame (03 R76 names the translation and does not give it). -/
opaque Config.ctxFrame : Nat → Nat

/-- Byte `i` of free value `n`: what a reserved slot that the step has not appended holds (04 R118). -/
opaque Config.freeByte : Nat → Nat → Byte

/-- Body of the image of each kind that a module's banks hold as it leaves the factory, and further rows of its matrix (17 R474). -/
opaque Config.factoryImage : Nat → List Byte

/-- Versions and interface revisions of those images (17 R474). -/
opaque Config.factoryNumber : Nat → Nat

/-- Codes that the manual does not give, by use (DESIGN CHOICE, log entry 26). -/
opaque Config.openCode : Nat → Nat

/-- Device identity words programmed at manufacture, per object index (14 R413). -/
opaque Config.identity : Nat → Nat

/-- Values the environment supplies and the manual bounds only (sensor and meter readings). -/
opaque Config.reading : Nat → Nat

/-- Frame of a die's shadow area, counted within it, that holds the copy of a covered frame of context memory (13 R375). -/
opaque Config.shadowFrame : Nat → Nat

/-- What fails of itself in a cycle: nothing, or a kind of error and two numbers that say where (log entry 68). -/
opaque Config.upset : Nat → Option (Nat × Nat × Nat)

end Sys2Proof
end

