-- ==== Sys2Proof/Machine/Sha.lean ====
section
/-! DEFINITION. SHA-512, which the manual names for measurements and digests (12 R346, R349; 14 R402, R412, R413): the hash of
FIPS 180-4 (PRESUMED, log entry 16). Its constants are computed from their definition: the first 64 bits of the fractional parts of the
square roots and cube roots of the first primes. -/

namespace Sys2Proof

namespace Machine

/-- The greatest `r` below 2^67 whose power `k` is at most `n`. -/
def iroot (k n : Nat) : Nat := (List.range 67).foldr (fun b r => if (r + 2 ^ b) ^ k ≤ n then r + 2 ^ b else r) 0
/-- The primes below 410: the first 80. -/
def shaPrimes : List Nat := (List.range 410).filter fun n => decide (2 ≤ n) && (List.range n).all fun d => decide (d < 2) || n % d != 0
/-- Round constants. -/
def shaK : List W64 := shaPrimes.map fun p => BitVec.ofNat 64 (iroot 3 (p * 2 ^ 192))
/-- Initial hash value. -/
def shaInit : List W64 := (shaPrimes.take 8).map fun p => BitVec.ofNat 64 (iroot 2 (p * 2 ^ 128))

/-- Three rotations or shifts, XORed. -/
def shaBig (a b c : Nat) (x : W64) : W64 := x.rotateRight a ^^^ x.rotateRight b ^^^ x.rotateRight c
def shaSmall (a b c : Nat) (x : W64) : W64 := x.rotateRight a ^^^ x.rotateRight b ^^^ (x >>> c)

/-- Words of the message schedule, the latest at the front, `n` more than `w` holds. -/
def shaSched : Nat → List W64 → List W64
  | 0, w => w
  | n + 1, w =>
    shaSched n ((shaSmall 19 61 6 (w.getD 1 0) + w.getD 6 0 + shaSmall 1 8 7 (w.getD 14 0) + w.getD 15 0) :: w)

/-- One round on the eight working variables. -/
def shaRound (v : List W64) (kw : W64 × W64) : List W64 :=
  let g := fun i => v.getD i 0
  let t1 := g 7 + shaBig 14 18 41 (g 4) + ((g 4 &&& g 5) ^^^ (~~~(g 4) &&& g 6)) + kw.1 + kw.2
  let t2 := shaBig 28 34 39 (g 0) + ((g 0 &&& g 1) ^^^ (g 0 &&& g 2) ^^^ (g 1 &&& g 2))
  [t1 + t2, g 0, g 1, g 2, g 3 + t1, g 4, g 5, g 6]

/-- One block of 128 bytes. -/
def shaBlock (h : List W64) (blk : List Byte) : List W64 :=
  let w := (List.range 16).map fun i => BitVec.ofNat 64 (leNat ((blk.drop (8 * i)).take 8).reverse)
  let v := (shaK.zip (shaSched 64 w.reverse).reverse).foldl shaRound h
  List.zipWith (· + ·) h v

/-- The message with its padding. -/
def shaPad (bs : List Byte) : List Byte :=
  let z := (239 - bs.length % 128) % 128
  bs ++ [128] ++ List.replicate z 0 ++ (leBytes 16 (8 * bs.length)).reverse

/-- Blocks of a padded message. -/
def shaBlocks (bs : List Byte) : List (List Byte) := (List.range (bs.length / 128)).map fun i => (bs.drop (128 * i)).take 128

end Machine

/-- SHA-512 of a byte string, its first byte in bits [7:0] (00 R10). -/
def Config.sha512 (bs : List Byte) : BitVec 512 :=
  BitVec.ofNat 512 (Machine.leNat (((Machine.shaBlocks (Machine.shaPad bs)).foldl Machine.shaBlock Machine.shaInit).flatMap fun x =>
    (Machine.leBytes 8 x.toNat).reverse))

end Sys2Proof
end

