-- ==== Sys2Proof/Machine/Images.lean ====
section
/-! DEFINITION. Firmware images as byte strings (14 R402, R403; 12 R344), and the set that a module's banks hold as it leaves the
factory (17 R474): a set whose versions, revisions and bodies are free values, signed and listed, so that it is tested. -/

namespace Sys2Proof.Machine

/-- SHA-512 of a running image (R345). -/
def imgMeasure (img : List Byte) : BitVec 512 := Config.sha512 (img.take 192 ++ img.drop 256)
/-- Public key of an Ed25519 key. -/
def edPub (key : Nat) : Nat := Config.kdf [0, key] % 2 ^ 256
/-- Public key of the Gorsanik root key, held in the security ROM. -/
def rootPub : Nat := edPub (Config.kdf [8])
/-- Bytes 0 to 63 of a certificate. -/
def certBody (c : Cert) : List Byte :=
  leBytes 64 (c.subject.toNat + c.cver.toNat * 2 ^ 256 + c.kind.toNat * 2 ^ 264 + c.bootEpoch.toNat * 2 ^ 272 + c.serial.toNat * 2 ^ 320)
/-- The 128 bytes of a certificate. -/
def certBytes (c : Cert) : List Byte := certBody c ++ leBytes 64 c.sig.toNat
/-- Bytes of the largest image of a kind. -/
def imgMax : Nat → Nat
  | 0 => 8388608
  | 1 => 4194304
  | 2 => 4194304
  | 3 => 2097152
  | _ => 65536

/-! ### The factory's set (17 R474; log entry 50) -/

/-- Free numbers of the factory's image of kind `k`. -/
def facNum (k i : Nat) : Nat := Config.factoryNumber (8 * k + i)
/-- VERSION and PROVIDES of the factory's image of kind `k`. -/
def facVersion (k : Nat) : Nat := facNum k 0 % 2 ^ 32
def facProvides (k : Nat) : Nat := facNum k 1 % 2 ^ 16
/-- REQUIRES of kind `k` for kind `j`: a range that holds what `j` provides; nothing for its own. -/
def facRange (k j : Nat) : Nat :=
  if k = j then 0
  else min (facNum k (2 + j) % 2 ^ 16) (facProvides j) + max (facNum j (2 + k) % 2 ^ 16) (facProvides j) * 2 ^ 16
/-- Body of the factory's image of kind `k`. -/
def facBody (k : Nat) : List Byte := (Config.factoryImage k).take (imgMax k - 256)
/-- Signing key of the factory's set, and the certificate that the root key gave it (14 R402). -/
def facKey : Nat := edPub (Config.kdf [9])
def facCert : Cert :=
  let c : Cert := { sig := 0, serial := 0, bootEpoch := 0, kind := 3, cver := 1, subject := BitVec.ofNat 256 facKey }
  { c with sig := Config.signature rootPub (certBody c) }
/-- Header bytes 0 to 191 of the factory's image of kind `k`. -/
def facHead (k : Nat) : List Byte :=
  leBytes 64 (1 + k * 2 ^ 248 + (facBody k).length * 2 ^ 256 + facVersion k * 2 ^ 288 + facNum k 6 % 2 ^ 32 * 2 ^ 320 + 1 * 2 ^ 352
    + (1 + facNum k 7 % 255) * 2 ^ 360 + facProvides k * 2 ^ 368 + facRange k 0 * 2 ^ 384 + facRange k 1 * 2 ^ 416 + facRange k 2 * 2 ^ 448
    + facRange k 3 * 2 ^ 480) ++ certBytes facCert
/-- The factory's image of kind `k`, 0 to 3. -/
def facImage (k : Nat) : List Byte :=
  facHead k ++ leBytes 64 (Config.signature facKey (leBytes 64 (Config.sha512 (facHead k ++ facBody k)).toNat)).toNat ++ facBody k
/-- The factory's matrix: a row for the set, and further rows. -/
def facMatrix : List Byte :=
  let rest := (Config.factoryImage 4).take (16 * 4031)
  let more := rest.take (16 * (rest.length / 16))
  let h := leBytes 64 (1 + (1 + more.length / 16) * 2 ^ 16 + facNum 4 0 % 2 ^ 32 * 2 ^ 32)
    ++ ((List.range 4).flatMap fun k => leBytes 4 (facVersion k)) ++ more
  h ++ certBytes facCert ++ leBytes 64 (Config.signature facKey (leBytes 64 (Config.sha512 h).toNat)).toNat
/-- The banks as the module leaves the factory. -/
def facBanks : List (Nat × List Byte) := [(0, facImage 0), (2, facImage 1), (4, facImage 2), (6, facImage 3), (8, facMatrix)]

end Sys2Proof.Machine
end

