-- ==== Sys2Proof/Machine/Types.lean ====
section
/-! DEFINITION. Record types of the state, first part: cores and courses (03), sessions and parking
(05, 06), scheduling (10) and the host site (11). -/

namespace Sys2Proof.Machine

/-! ## Cores and courses (03) -/

/-- A local store or cluster-store slice: bytes, and the 256-byte lines whose written bit is set (R73). -/
structure Store where
  mem : Mem
  wr  : Table Unit
  deriving DecidableEq, Repr

/-- A page tag T0-T7 (R71, R79): buffer address, page format, C_K, C_V, POFF and bytes delivered, and the
page it names (sequence index, page index). -/
structure PageTag where
  buf  : Nat
  fmt  : Nat
  ck   : Nat
  cv   : Nat
  poff : Nat
  len  : Nat
  seqi : Nat
  page : Nat
  deriving DecidableEq, Repr

/-- Kinds of stream request (R81). -/
inductive StreamKind where
  | rd | wr | spread | page
  deriving DecidableEq, Repr

/-- An entry of a core's stream queue (R81). `bound` is the cycle of ACLK of R82's bound; `absent` says
that the page was not resident at admission (R84); `seen` and `bars` say how many appends and barrier releases of the
step came before it was issued (R94). -/
structure StreamReq where
  kind  : StreamKind
  sq    : Nat
  laddr : Nat
  caddr : Nat
  len   : Nat
  tag   : Nat
  seqi  : Nat
  lg    : Nat
  page  : Nat
  poff  : Nat
  bound : Nat
  absent : Bool
  seen  : Nat
  bars  : Nat
  ip    : Nat
  deriving DecidableEq, Repr

/-- Kinds of remote operation (R89). -/
inductive RemKind where
  | put | get | signal | atom
  deriving DecidableEq, Repr

/-- A remote operation of a core, or, once the core was pre-empted, its lien entry (R89, R300). `left` counts
the line requests not yet answered; `settled` holds status and old word of a settled lien. `id` is its TXN. -/
structure RemOp where
  id    : Nat
  kind  : RemKind
  aop   : Nat
  ip    : Nat
  dst   : Nat
  len   : Nat
  left  : Nat
  settled : Option (Nat × Nat)
  deriving DecidableEq, Repr

/-- What a core's sequencer is doing. -/
inductive CorePh where
  /-- it executes the instruction at its index once `busyUntil` has passed -/
  | run
  /-- WAIT found its condition unmet; the bound runs out at cycle `till` (R88) -/
  | waiting (f : FmtW) (till : Nat)
  /-- a stream request found the queue full (R81) -/
  | strFull
  | atBarrier
  | atPpoint (f : FmtPp)
  /-- an append waits for a page still arriving (R146) -/
  | apndHold
  /-- END executed (R74) -/
  | ended
  /-- its instruction or request failed, and the step ends with it (R98) -/
  | failed
  deriving DecidableEq, Repr

/-- Sequencer state of one core (R71) with its stores. -/
structure Core where
  step  : Nat
  pos   : Nat
  p     : List W64
  c     : List W32
  k     : List W32
  sg    : List W32
  q     : List (BitVec 16)
  tags  : List (Option PageTag)
  liens : Nat
  ip    : Nat
  drift : Bool
  srOrd : Nat
  ph    : CorePh
  busyUntil : Nat
  istore : List (BitVec 128)
  ls    : Store
  cs    : Store
  queue : List StreamReq
  arm   : Option FmtA
  rem   : List RemOp
  nsync : Nat
  /-- highest page requested so far in each stream segment (seq, layer group or round) (R119) -/
  seg   : Table Nat
  /-- bound and length of every request issued whose bound has not passed (R82) -/
  ahead : List (Nat × Nat)
  deriving DecidableEq, Repr

/-- A response for a lien that came while its core was restoring (R303): the operation, and either the line index and
data of one READ64 or the final status and old word. -/
structure HeldRsp where
  op   : Nat
  data : Option (Nat × List Byte)
  done : Option (Nat × Nat)
  deriving DecidableEq, Repr

/-- What a core of a pre-empted course wrote to its save area (R300): `core` is the context image of R71, whose stores are
empty here; `liens` the lien entries in order; `area` the bytes from slice offset 0x3_0000 on, the live ranges `ranges`
packed in range order; `held` the responses that came during its restore. -/
structure SavedCore where
  core   : Core
  ranges : List (Nat × Nat)
  liens  : List RemOp
  area   : Mem
  held   : List HeldRsp
  deriving DecidableEq, Repr

/-- A message between cores of a course (R85-R87). -/
inductive MsgBody where
  | put (addr : Nat) (data : List Byte)
  | add (addr : Nat) (wide : Bool) (data : List Byte)
  | signal (n : Nat) (inc : Nat)
  deriving DecidableEq, Repr

structure Msg where
  src  : Nat
  dst  : Nat
  body : MsgBody
  deriving DecidableEq, Repr

/-- A post not yet sent (R95). -/
structure Post where
  pos     : Nat
  event   : Nat
  payload : W64
  deriving DecidableEq, Repr

/-- Order of engine instructions, barriers, points and ENDs that the course has reached (R67, R69). -/
inductive SyncEv where
  | eng (op : Nat) (sig : EngSig)
  | barrier | ppoint | fin
  deriving DecidableEq, Repr

/-- A sequence table entry (R103) as admission read it, with the session's token count T and the sweep end E. -/
structure SeqEnt where
  handle  : Nat
  appendN : Nat
  stream  : Bool
  stall   : Nat
  ringTokens : Nat
  expect  : Nat
  chunkPages : Nat
  ringPos : Nat
  ringN   : Nat
  ringTag : W32
  pred    : Nat
  succ    : Nat
  ringKey : W32
  t       : Nat
  e       : Nat
  deriving DecidableEq, Repr

/-- An append made by a step: sequence, layer group, slot ordinal (R147), the section and channels written, the core's
position, and the barrier releases before it (R94). -/
structure AppendLog where
  seqi : Nat
  lg   : Nat
  slot : Nat
  val  : Bool
  ch0  : Nat
  nch  : Nat
  pos  : Nat
  bars : Nat
  deriving DecidableEq, Repr

/-- A page entry as it stood before the step's appends, and whether the reservation opened it (R147). -/
structure UndoPage where
  handle : Nat
  n      : Nat
  opened : Bool
  crc    : W32
  gen    : W32
  deriving DecidableEq, Repr

/-- A visiting page that landed in a ring receive buffer (R123, R124): `frame` is its first frame there. -/
structure VisitPage where
  page : Nat
  fmt  : Nat
  fill : Nat
  crc  : W32
  frame : Nat
  sent : Bool
  done : Bool
  deriving DecidableEq, Repr

/-- Ring state of a running ring step (R124): pages landed by round, credits held toward the successor,
rounds whose buffer was released, first frames of the page places of buffer 0 and then of buffer 1. -/
structure RingSt where
  visits   : Table (List VisitPage)
  credits  : Nat
  released : Nat
  sentRound : Nat
  frames   : List Nat
  deriving DecidableEq, Repr

/-- Phases of a step. -/
inductive StepPh where
  /-- admitted, not dispatched (R292) -/
  | waiting
  /-- the program runs -/
  | running
  /-- held at a point while an arm is in force (R298) -/
  | held
  /-- pre-empted, cores saved (R300) -/
  | preempted
  /-- restoring until the given cycle of ACLK; the restore began in this cycle of NCLK (R302, R303) -/
  | restoring (till start : Nat)
  deriving DecidableEq, Repr

/-- How a dispatched step fails (R98): status, position and instruction index, and the cycle of ACLK. -/
structure StepFail where
  status : Nat
  pos    : Nat
  ip     : Nat
  at_    : Nat
  deriving DecidableEq, Repr

/-- An admitted step. -/
structure Step where
  d       : StepDesc
  sq      : Nat
  jobId   : Nat
  seqs    : List SeqEnt
  ph      : StepPh
  release : Nat
  order   : Nat
  quads   : List Nat
  lent    : Bool
  dies    : List Nat
  cores   : List Nat
  started : Nat
  executed : Nat
  gap     : Nat
  posts   : List Post
  discarded : Nat
  msgs    : List Msg
  sync    : List SyncEv
  sparseBad : Bool
  appends : List AppendLog
  undo    : List UndoPage
  saved   : List SavedCore
  ring    : Option RingSt
  /-- tick since which a request waits in each stream segment (`segKey`) with no landing there, and, under `creditKey`,
  since which a ring member awaits a credit (R120, R124) -/
  stall   : Table Nat
  /-- QUAD tokens charged at dispatch (10 R306) -/
  cost    : Nat
  /-- the failure that ends the step, while its cycle of ACLK lasts (R98) -/
  fail    : Option StepFail := none
  /-- barrier releases so far (R94) -/
  bars    : Nat := 0
  /-- sequence and entry index of the pages not resident at admission (R84, R100) -/
  absent  : List (Nat × Nat) := []
  /-- cycle of ACLK of the dispatch, from which PP_GAP counts (10 R297) -/
  sent    : Nat := 0
  /-- cycle of ACLK at which the switch of a pre-empted course is done (10 R300) -/
  switched : Nat := 0
  /-- cycle of NCLK of the step's doorbell write, while its dispatch time is to be measured (10 R304) -/
  door    : Option Nat := none
  /-- SQ_HEAD after the descriptor was taken (11 R327) -/
  head    : Nat := 0
  /-- the KEYSTONE step that pre-empted the course, or took its quads last (10 R299) -/
  taker   : Option Nat := none
  deriving DecidableEq, Repr

/-- A job (R288): its first step's parameters, its adapter pins and, when periodic, its reservation (R294). -/
structure Job where
  ctx   : Nat
  num   : Nat
  cls   : Nat
  sq    : Nat
  cq    : Nat
  period : Nat
  quads : Nat
  share : Nat
  wholeCl : Bool
  periodic : Bool
  chained : Bool
  /-- adapter, version, and the cycle of NCLK of the check that pinned it (05 R157, R159) -/
  pins  : List (Nat × Nat × Nat)
  t0    : Nat
  rel   : Nat
  missed : Nat
  resQuads : List Nat
  resDies : List Nat
  /-- steps of the job admitted so far -/
  nsteps : Nat
  deriving DecidableEq, Repr

/-- Busy time of a unit (06 R195; 09 R283): the cycle of NCLK since which it is busy, and its busy spells before, newest first. -/
structure Meter where
  since : Option Nat
  past  : List (Nat × Nat)
  deriving DecidableEq, Repr

/-- Cycles of NCLK in 100 µs. -/
def meterSpan : Nat := 250000
/-- The unit is seen busy or idle at cycle `t`. -/
def Meter.note (m : Meter) (t : Nat) (busy : Bool) : Meter :=
  match m.since with
  | none => { m with since := if busy then some t else none }
  | some a => if busy then m else ⟨none, (a, t) :: m.past.filter fun p => decide (t < p.2 + meterSpan)⟩
/-- Busy cycles among the last `meterSpan` before cycle `t`, in parts per thousand. -/
def Meter.perMille (m : Meter) (t : Nat) : Nat :=
  let spells := m.since.toList.map (fun a => (a, t)) ++ m.past
  1000 * (spells.map fun p => min t p.2 - max (t - meterSpan) p.1).foldl (· + ·) 0 / meterSpan

/-! ## Sessions (05) -/

/-- A page table entry (R135). -/
structure Pte where
  gen   : W32
  crc   : W32
  dual  : Bool
  lost  : Bool
  dirty : Bool
  copyPend : Bool
  pinned : Bool
  valid : Bool
  fill  : Nat
  fmt   : Nat
  tier  : Nat
  frame : Nat
  deriving DecidableEq, Repr

/-- Append reservation record (R144). -/
structure ResRec where
  step    : Nat
  appendN : Nat
  lgCount : Nat
  firstLg : Nat
  deriving DecidableEq, Repr

/-- The MOVE field (06 R175). -/
structure Move where
  start : Nat
  total : Nat
  done  : Nat
  proot : Nat
  lease : Nat
  pfmt  : Nat
  kind  : Nat
  pdepth : Nat
  ptier : Nat
  dual  : Bool
  narrow : Bool
  held  : Bool
  suspended : Bool
  dirOut : Bool
  deriving DecidableEq, Repr

/-- Session states with their STATE codes (R130, R150). -/
inductive SState where
  | free | active | idle | parking | parked | reviving | migrating | lost
  deriving DecidableEq, Repr

/-- A page directory (R140): entries by index, frames of leaves and interior levels. -/
structure Dir where
  ents   : Table Pte
  leaves : Table Nat
  inter  : Table Nat
  root   : Nat
  tier   : Nat
  depth  : Nat
  deriving DecidableEq, Repr

/-- Phase of a migration on either side (06 R187, R188). -/
inductive MigPh where
  | none | offered | sending | sentLast | releasing | aborting | inReceiving | inReady
  deriving DecidableEq, Repr

/-- A SESSION_TRUNCATE that waits for the directory extent (R154): its ring, completion ring, tag and N. -/
structure TruncCmd where
  sq  : Nat
  cq  : Nat
  tag : W64
  n   : Nat
  /-- the partner extent is being read -/
  second : Bool
  /-- the directory frames that check 4 reserved, their entries still empty -/
  dir : Dir
  /-- SQ_HEAD after the command was taken (11 R327) -/
  head : Nat
  deriving DecidableEq, Repr

/-- A session descriptor (R130) with its directory and what its move in progress has set down. -/
structure Session where
  state  : SState
  ctx    : Nat
  tomb   : Bool
  parkPend : Bool
  demoting : Bool
  dual   : Bool
  binding : Nat
  homeDie : Nat
  hinted : Bool
  parkFmt : Nat
  expiry : Nat
  tokens : Nat
  sgen   : W32
  stepPins : Nat
  lostFirst : Nat
  lostPages : Nat
  ttlMs  : Nat
  ttlDeadline : Nat
  lastChange : Nat
  res    : List ResRec
  peerDev : Nat
  peerHandle : Nat
  move   : Move
  pins   : List Nat
  dir    : Dir
  /-- the parked directory of a revival (R180) -/
  pdir   : Option Dir
  eventCq : Nat
  /-- runs taken for the pages of a park or demotion, by entry index, and for the directory extent -/
  runs   : Table Nat
  dirRun : Option Nat
  /-- copies of the move placed so far, by entry index (second copies of a dual park at index + 2^32) -/
  placed : Table Unit
  /-- sealed CRC and generation of the copies sent, by entry index -/
  sent   : Table (Nat × W32)
  mig    : MigPh
  migState : SState
  migDeadline : Nat
  /-- status a migration that is being aborted ends with -/
  migStatus : Nat
  ttlLeft : Nat
  /-- the session has yet to be swept after a loss (R191) -/
  sweep  : Bool
  /-- the directory extent of the revival in progress has not been read (R180) -/
  extWait : Bool
  /-- a truncation waiting for its extent (R154) -/
  trunc  : Option TruncCmd
  /-- entries being landed again after a poisoned line, and those landed so since the last park (16 R446) -/
  reland : List Nat
  relanded : List Nat
  /-- Indices of `runs` pinned before the directory extent of the park left: the extent holds their entries in Tier 1 (05 R139). -/
  kept : List Nat
  /-- entries of a directory in a lease that a sweep has rewritten without a read of the extent, each with the lease of the copy lost: their
  records are due at its next read (06 R191) -/
  extDue : List (Nat × Nat) := []
  /-- cycle of NCLK of the last event that gave rise to a further one: a pending park, or a hint whose last page landed (R153) -/
  parkAt : Nat
  /-- CHUNK_PAGES, RING_POS and RING_N of the last ring step on the session: the chunks whose positions its committed counts
  count (04 R122) -/
  chunks : Option (Nat × Nat × Nat) := none
  deriving DecidableEq, Repr

/-- A handle held by MIGRATE_IN (06 R187). -/
structure MigIn where
  ctx    : Nat
  srcDev : Nat
  srcHandle : Nat
  eventCq : Nat
  deriving DecidableEq, Repr

/-- What a slab holds (R148). -/
inductive SlabUse where
  | pages (frames : Nat) | dir | lease | ring (frames : Nat) | shard
  deriving DecidableEq, Repr

/-- A slab given to a context (R148): first frames in use, as offsets. -/
structure Slab where
  ctx  : Nat
  use  : SlabUse
  used : List Nat
  deriving DecidableEq, Repr

/-- One live adapter version (R155, R158). -/
structure AVer where
  version : Nat
  rcd     : AdapterRec
  current : Bool
  pins    : Nat
  cq      : Nat
  deriving DecidableEq, Repr

/-- An adapter (R155). -/
structure Adapter where
  ctx     : Nat
  binding : Nat
  last    : Nat
  vers    : List AVer
  deriving DecidableEq, Repr

/-- A lease (06 R165): H fields, VALID and LOST, runs allocated (start, length), the first-fit cursor, the
queue named at LEASE_SET and the slabs of its bitmap. -/
structure Lease where
  rcd    : LeaseRec
  lost   : Bool
  valid  : Bool
  cq     : Nat
  runs   : Table Nat
  cursor : Nat
  slabs  : List Nat
  deriving DecidableEq, Repr

/-! ## Scheduling (10) -/

/-- A KEYSTONE arm (R298). -/
structure Arm where
  till : Nat
  used : Bool
  deriving DecidableEq, Repr

/-! ## Host site (11) -/

/-- A completion entry before it is laid out (R327, R328): body as one number, bit 0 at byte 32. -/
structure CqEntry where
  kind   : Nat
  event  : Nat
  status : Nat
  ctx    : Nat
  sqId   : Nat
  sqHead : Nat
  time   : Nat
  tag    : W64
  body   : Nat
  deriving DecidableEq, Repr

/-- Registers and rings of a queue pair (R319, R324). `want` is ENABLE as host software wrote it. -/
structure Qp where
  want    : Bool
  enabled : Bool
  cqInSite : Bool
  cqLog2  : Nat
  cqBase  : W64
  sqHead  : Nat
  sqTail  : Nat
  cqHead  : Nat
  cqTail  : Nat
  cqCount : Nat
  phase   : Bool
  spill   : List CqEntry
  overflow : Bool
  dbErr   : Bool
  /-- the ready latch, by the cycle of NCLK in which it was last set (R330) -/
  latch   : Option Nat
  /-- slots reserved for entries taken and not yet completed, ordinary and KEYSTONE -/
  resv    : Nat
  resvKs  : Nat
  /-- entries taken from this pair's submission ring and not yet completed -/
  work    : Nat
  deriving DecidableEq, Repr

/-- The KEYSTONE queue (R321). -/
structure KsQueue where
  enable   : Bool
  fallback : Nat
  sqHead   : Nat
  sqTail   : Nat
  /-- the ready latch, by the cycle of NCLK in which it was last set (R330) -/
  latch    : Option Nat
  deriving DecidableEq, Repr

/-- A host window (R318). -/
structure HostWin where
  valid : Bool
  qp    : Nat
  len   : Nat
  base  : Nat
  deriving DecidableEq, Repr

/-- State of one UCIe module (R312, R313): width code, flits replayed in a row, retraining. -/
structure Module where
  width  : Nat
  replays : Nat
  retraining : Bool
  deriving DecidableEq, Repr

/-- The module carries flits. -/
def Module.up (m : Module) : Bool := m.width != 0 && !m.retraining

/-- What a host transaction asks for (11 R315): a write, one of the writes with a row of their own, or a read. -/
inductive HostOp where
  | write (offset : Nat) (data : List Byte)
  | sqTail (ring : Nat) (tail : BitVec 9)
  | cqHead (qp : Nat) (head : BitVec 16)
  | enable (qp : Nat)
  | disable (qp : Nat)
  | read (offset : Nat) (tag : BitVec 16) (lenM1 : BitVec 8)
  deriving DecidableEq, Repr

end Sys2Proof.Machine
end

