-- ==== Sys2Proof/Machine/TypesFab.lean ====
section
/-! DEFINITION. Record types of the state, second part: the Octica line fabric (07), the bulk transport and
the gateway function (08). -/

namespace Sys2Proof.Machine

/-! ## Line operations (07) -/

/-- One request image of a line operation: its line index, address, operand and payload (R211). -/
structure LineItem where
  line    : Nat
  addr    : W64
  operand : W64
  payload : List Byte
  deriving DecidableEq, Repr

/-- On whose behalf a transaction runs: a core's remote operation (core, operation id), or the far side of a
gateway (near node; node, TXN and LINE of the request it took in). -/
inductive TxnOwner where
  | core (core op : Nat)
  | far (near src txn line : Nat)
  deriving DecidableEq, Repr

/-- Why a refused request waits (R225, R256). -/
inductive LineWait where
  | none | epoch (till : Nat) | gateway (till : Nat)
  deriving DecidableEq, Repr

/-- A request sent, or refused and to be replayed: its image, the constituents of a combined one (TXN and image of
each, in queue order; none when plain), what it waits for, and the hint of an ST_MOVED answer (R219, R225). -/
structure LineSent where
  item  : LineItem
  parts : List (Nat × LineItem)
  wait  : LineWait
  hint  : Option (W32 × Nat)
  deriving DecidableEq, Repr

/-- A transaction TXN (R209): requests still to send, requests sent and unanswered, requests refused and to be
replayed, requests that travel within another transaction's, and the first failing status. `ctx` is 256 for a request
of another device that a gateway replays. -/
structure Txn where
  owner  : TxnOwner
  ctx    : Nat
  op     : Nat
  key    : W32
  comb   : Bool
  todo   : List LineItem
  sent   : List LineSent
  again  : List LineSent
  shared : List LineItem
  status : Nat
  deadline : Option Nat
  order  : Nat
  /-- job class of the step that issued it, 3 where none did (10 R287) -/
  rank   : Nat
  /-- stamp that a gateway keeps (08 R255) -/
  epoch  : Option W32
  deriving DecidableEq, Repr

/-- An entry of the region table (R214). -/
structure Region where
  rcd     : RegionRec
  ctx     : Nat
  closing : Bool
  valid   : Bool
  deriving DecidableEq, Repr

/-- A REGION_CLEAR whose completion is still to come (R216): command slot it answers. -/
structure RegionClose where
  sq  : Nat
  tag : W64
  cq  : Nat
  ctx : Nat
  /-- SQ_HEAD after the command was taken (11 R327) -/
  head : Nat
  deriving DecidableEq, Repr

/-- An ID table entry of a composition map (R221): KIND, LOST and NODE. -/
structure IdEnt where
  kind : Nat
  lost : Bool
  node : Nat
  deriving DecidableEq, Repr

/-- An extent record (R221). -/
structure Extent where
  id    : Nat
  first : Nat
  last  : Nat
  node  : Nat
  localSlot : Nat
  state : Nat
  deriving DecidableEq, Repr

/-- A gateway section entry (R253): pairs (NEAR, FAR) in force. -/
structure GwEnt where
  count : Nat
  pairs : List (Nat × Nat)
  deriving DecidableEq, Repr

/-- A composition map (R221); epoch 0 is no map (R222). -/
structure CompMap where
  epoch : W32
  ids   : Table IdEnt
  exts  : List Extent
  gws   : Table GwEnt
  deriving DecidableEq, Repr

/-- A map being staged (R222). -/
structure Staging where
  epoch : W32
  idBytes : Nat
  extBytes : Nat
  gwBytes : Nat
  bytes : Mem
  deriving DecidableEq, Repr

/-- Contents of a packet the device sends. -/
inductive Packet where
  | lineReq (q : LineReq)
  | lineRsp (r : LineRsp)
  | bulk (p : BulkPkt)
  | answer (a : BulkAns)
  | mapAck (epoch : W32) (status : Nat)
  | keyx (p : BulkPkt) (k : Keyx)
  deriving DecidableEq, Repr

/-- A packet that waits for credits of its virtual channel (R204, R205); `trunk`: it leaves the bay; `till`: the tick at which a
gateway discards it (08 R254). -/
structure WaitPkt where
  vc    : Nat
  flits : Nat
  trunk : Bool
  pkt   : Packet
  till  : Option Nat
  deriving DecidableEq, Repr

/-- An item that waits at a port (10 R307): its channel and flits, its context (256: beyond fair queueing), its class and its order of
issue, which names it. -/
structure PortItem where
  vc    : Nat
  flits : Nat
  ctx   : Nat
  rank  : Nat
  order : Nat
  deriving DecidableEq, Repr

/-- A line request in a REQ or CMB buffer (R205): the port it came by, and, where it has passed its checks and a checkpoint's cut
holds its write (13 R376), the context, the context address and the local slot. -/
structure InReq where
  port : Nat
  req  : LineReq
  go   : Option (Nat × Nat × Nat)
  deriving DecidableEq, Repr

/-- An Octica port (R200-R206): PORT_STATE code, lanes in use, link-layer numbers, replay buffer, credits
held and retries seen of the frame at its head. -/
structure Port where
  state   : Nat
  lanes   : Nat
  /-- SEQ of the next frame to be sent -/
  txSeq   : Nat
  /-- SEQ of the next frame to be accepted -/
  rxSeq   : Nat
  /-- frames sent that ACK does not cover, oldest first (R202) -/
  replay  : List LinkFrame
  /-- the next frame carries RETRY (R202) -/
  retryOut : Bool
  /-- flits of the peer's buffers free to this sender, by VC code (R204) -/
  credits : List Nat
  retries : Nat
  /-- it retrained and has not got its initial credits back (R204) -/
  fresh   : Bool
  /-- flits that the receive buffers hold, by VC code (R203) -/
  rx      : List Nat
  /-- ticks at which the first flits of the packets in the receive buffers came, by VC code, oldest first (08 R237) -/
  heads   : List (List Nat)
  /-- flits freed and not yet returned in CREDITS, by VC code (R204) -/
  owed    : List Nat
  /-- a frame with flits has come since the last frame sent -/
  ackDue  : Bool
  /-- `rxSeq` when the last frame was sent -/
  ackSent : Nat
  /-- deficits of CMB and REQ, in flits, and whether REQ is being served (R206) -/
  drrCmb  : Nat
  drrReq  : Nat
  drrOnReq : Bool
  /-- tick at which a port-partial reset in progress began (15 R426) -/
  resetAt : Option Nat
  deriving DecidableEq, Repr

/-! ## Bulk transport (08) -/

/-- Messages between state engines (06 R187). -/
inductive MigMsg where
  | offer (o : Offer)
  | accept (handle : Nat) | refuse (handle status : Nat)
  | page (handle n : Nat) | dir (handle : Nat)
  | ready (handle : Nat) | release (handle : Nat) | abort (handle : Nat)
  deriving DecidableEq, Repr

/-- What a bulk message or GET is for, and whom its outcome concerns. -/
inductive Purpose where
  | parkPage (handle n : Nat) (second : Bool)
  | parkDir (handle : Nat) (second : Bool)
  | demoteRead (handle n : Nat)
  | revivePage (handle n : Nat) (second : Bool)
  | reviveDir (handle : Nat) (second : Bool)
  | truncDir (handle : Nat)
  | migrate (handle : Nat) (m : MigMsg)
  | ringPage (step round page : Nat)
  | ringCredit (step round : Nat)
  | drain (ctx part : Nat)
  | restore (ctx part : Nat)
  | getData (node seq : Nat)
  | gwRecords (far : Nat) (tags : List Nat)
  | gwAnswers (near : Nat)
  | join (ctx peer peerCtx : Nat)
  /-- a message whose move has failed; its outcome concerns nobody -/
  | nothing
  deriving DecidableEq, Repr

/-- A packet of a message in flight (R247); `tx` holds TS and XMIT of its last three transmissions (12 R352). -/
structure PktSt where
  sentAt  : Nat
  timeout : Nat
  port    : Nat
  acked   : Bool
  again   : Bool
  /-- it is due again after ST_EPOCH_WAIT, routed by the current map (R246) -/
  remap   : Bool
  waitTill : Nat
  tx      : List (Nat × Nat)
  deriving DecidableEq, Repr

/-- A message of a flow's sending side (R233, R239, R247). -/
structure BulkMsg where
  typ    : Nat
  ctx    : Nat
  cls    : Nat
  sink   : Nat
  key    : W32
  addr   : W64
  len    : Nat
  data   : List Byte
  purpose : Purpose
  pkts   : Table PktSt
  next   : Nat
  first  : Option Nat
  /-- job class of the step that issued it, 3 where none did (10 R287) -/
  rank   : Nat
  /-- order of issue (10 R307) -/
  order  : Nat
  /-- epoch of the map or hint that routed it (R236, R246) -/
  epoch  : W32
  deriving DecidableEq, Repr

/-- A partly received message (R244). -/
structure Partial where
  len   : Nat
  offs  : List Nat
  bytes : Nat
  data  : Mem
  /-- its bytes are kept in staging, for a sink that is not memory -/
  kept  : Bool
  deriving DecidableEq, Repr

/-- A FLUSH issued and not yet answered PLACED (R250): the highest number it covers and the purposes that
await it; `tx` is empty until it has been sent. -/
structure FlushOut where
  upto   : Nat
  first  : Nat
  sentAt : Nat
  timeout : Nat
  acked  : Bool
  tx     : List (Nat × Nat)
  port   : Nat
  waits  : List Purpose
  deriving DecidableEq, Repr

/-- A FLUSH received and not yet answered PLACED (R250): highest number it covers, its TS, XMIT, CE and DELAY. -/
structure FlushIn where
  upto : Nat
  ts   : W32
  xmit : Nat
  ce   : Bool
  /-- DELAY of its answers (R237) -/
  delay : Nat
  deriving DecidableEq, Repr

/-- A flow-cache entry: both directions for one peer node (R240). -/
structure Flow where
  nextSeq : Nat
  win     : Nat
  inflight : Nat
  ackedCut : Nat
  srtt    : Option Nat
  rot     : Nat
  xmit    : Nat
  msgs    : Table BulkMsg
  waiting : List BulkMsg
  /-- purposes of messages with LOCAL_DONE that await a FLUSH -/
  placeWait : List Purpose
  flush   : Option FlushOut
  hasRecv : Bool
  peerEpoch : Nat
  lw      : Nat
  doneMap : List Nat
  parts   : Table Partial
  pendFlush : List FlushIn
  used    : Nat
  deriving DecidableEq, Repr

/-- A low-water record (R241). -/
structure LwRec where
  stamp : Nat
  peerEpoch : Nat
  seq   : Nat
  deriving DecidableEq, Repr

/-- A bulk packet that a checkpoint's cut holds after its checks (13 R376): its DELAY, decrypted payload, the key its answer takes, local
slot, context and context address. -/
structure HeldPkt where
  pkt   : BulkPkt
  delay : Nat
  pay   : List Byte
  key   : Nat
  slot  : Nat
  ctx   : Nat
  caddr : Nat
  deriving DecidableEq, Repr

/-- A GET outstanding at this device (R251). -/
structure GetRec where
  len     : Nat
  addr    : W64
  key     : W32
  ctx     : Nat
  purpose : Purpose
  deadline : Nat
  deriving DecidableEq, Repr

/-- A GET being served (R251): the context bytes it reads, and whether its GET_DATA has been issued. -/
structure GetServe where
  ctx  : Nat
  caddr : Nat
  len  : Nat
  slot : Nat
  sent : Bool
  deriving DecidableEq, Repr

/-- An intake entry of a gateway acting as NEAR (R255). -/
structure Intake where
  req    : LineReq
  far    : Nat
  posted : Bool
  held   : Bool
  deriving DecidableEq, Repr

/-- A gateway record message being packed (R255): images so far, tick of its first record, and the intake tags of its
requests. -/
structure Batch where
  data  : List Byte
  first : Nat
  tags  : List Nat
  deriving DecidableEq, Repr

end Sys2Proof.Machine
end

