-- ==== Sys2Proof/Machine/TypesSys.lean ====
section
/-! DEFINITION. Record types of the state, third part: security (12), checkpoint and restore (13), management
and firmware (14). -/

namespace Sys2Proof.Machine

/-! ## Security (12) -/

/-- A flow key of one direction (R351, R353): key, first XMIT it serves. -/
structure FKey where
  key   : Nat
  start : Nat
  deriving DecidableEq, Repr

/-- An agreement of this device's own in progress (R349): fresh value, ephemeral private key, START_XMIT, deadline. -/
structure Hello where
  fresh : BitVec 256
  eph   : Nat
  start : Nat
  deadline : Nat
  deriving DecidableEq, Repr

/-- Keys of a flow-cache entry (R338, R353): current and previous of each direction, kek, and the hello
outstanding. -/
structure FlowKeys where
  tx     : Option FKey
  txPrev : Option FKey
  rx     : Option FKey
  rxPrev : Option FKey
  kek    : Nat
  hello  : Option Hello
  deriving DecidableEq, Repr

/-- A join record (R356). -/
structure JoinRec where
  destCtx   : Nat
  destId    : Nat
  keyEpoch  : Nat
  originId  : Nat
  originCtx : Nat
  jver      : Nat
  nonce     : Nat
  wrapped   : List Byte
  tag       : BitVec 128
  deriving DecidableEq, Repr

/-- Keys and identity of an enabled context (R338, R340), and its peer list: device IDs, each with the context number that
the join named there (R357). -/
structure CtxSec where
  memKey  : Nat
  parkKey : Nat
  originId : Nat
  originCtx : Nat
  keyEpoch : Nat
  peers   : List (Nat × Nat)
  deriving DecidableEq, Repr

/-! ## Checkpoint and restore (13) -/

/-- A tensor entry of the manifest (R367). -/
structure Tensor where
  tid   : BitVec 256
  shape : List Nat
  lo    : List Nat
  hi    : List Nat
  addr  : Nat
  dtype : Nat
  order : List Nat
  elem  : Nat
  rank  : Nat
  deriving DecidableEq, Repr

/-- A manifest as read at a trigger or restore (R367). -/
structure Manifest where
  report : Nat
  reportMax : Nat
  rlist  : Nat
  mark   : Nat
  lease  : Nat
  tensors : List Tensor
  deriving DecidableEq, Repr

/-- A shard of the drain (R369, R379): tensor, its own box along the major-most axis, source bytes and run. -/
structure Shard where
  tensor : Nat
  lo    : Nat
  hi    : Nat
  addr  : Nat
  len   : Nat
  frame : Nat
  deriving DecidableEq, Repr

/-- What a shard header in a catalog says, as a restore reads it (R379). -/
structure ShardHdr where
  tid   : BitVec 256
  shape : List Nat
  lo    : List Nat
  hi    : List Nat
  step  : Nat
  crc   : W32
  len   : Nat
  frame : Nat
  shard : Nat
  dtype : Nat
  order : List Nat
  elem  : Nat
  rank  : Nat
  raw   : List Byte
  deriving DecidableEq, Repr

/-- A candidate of a restore (R382): list index, catalog slot and header. -/
structure Cand where
  li   : Nat
  slot : Nat
  hdr  : ShardHdr
  deriving DecidableEq, Repr

/-- A line of the restore report (R384). -/
structure RepLine where
  step  : Nat
  li    : Nat
  shard : Nat
  slot  : Nat
  reason : Nat
  deriving DecidableEq, Repr

/-- A restore in progress (R381-R383). `want` lists the catalog parts still to come (key li * 2 + slot, and 1 for the
second part), `cats` the catalog bytes that have come, by the same key; `plan` the shards of the chosen step still to
read, each with the tensor entry it is read for, `done` those copied. -/
structure Restore where
  man    : Manifest
  leases : List Nat
  want   : List (Nat × Nat)
  cats   : Table (List Byte)
  cands  : List Cand
  bad    : List RepLine
  chosen : Option Nat
  plan   : List (Nat × Cand)
  done   : List (Nat × Cand)
  deriving DecidableEq, Repr

/-- Checkpoint state of a context (R372-R380). `since` is the tick of the trigger. Parts of a drain: 0 the void catalog,
1 + i shard i, and then the catalog; `part` is the next to issue and `placed` how many are placed. `leases` are those
whose frames 0 to 255 the checkpoint holds; `old` the checkpoints kept, each with its CKPT_SEQ, lease and runs. -/
structure Ckpt where
  state  : Nat
  trigger : Nat
  since  : Nat
  seq    : Nat
  step   : Nat
  man    : Option Manifest
  uncopied : List Nat
  shadow : Mem
  shards : List Shard
  leases : List Nat
  old    : List (Nat × Nat × List Nat)
  part   : Nat
  placed : Nat
  /-- frames whose shadow copy is poisoned (16 R444) -/
  bad    : List Nat
  rest   : Option Restore
  deriving DecidableEq, Repr

/-! ## Management and firmware (14) -/

/-- The reply to a management message (R390, R398). -/
structure MgmtReply where
  op     : Nat
  seq    : Nat
  status : Nat
  item   : Nat
  bootEpoch : Nat
  body   : List Byte
  /-- Ed25519 signature by the attestation key (R390) -/
  sig    : BitVec 512
  deriving DecidableEq, Repr

/-- SEQ window of a key slot (R392): HIGH, values seen, and the last replies. -/
structure SeqWin where
  high    : Nat
  seen    : List Nat
  replies : List (Nat × MgmtReply)
  deriving DecidableEq, Repr

/-- Staging of an image kind (R408): STATE, bytes received, VERSION, result. -/
structure StageSt where
  state   : Nat
  bytes   : List Byte
  result  : Nat
  deriving DecidableEq, Repr

/-- An activation in progress (R409): kind, dies or ports still to switch, the drain limit's tick. -/
structure Activation where
  kind   : Nat
  todo   : List Nat
  current : Option Nat
  drainTill : Option Nat
  deriving DecidableEq, Repr

/-- The boot record (R404): banks by kind, trial flag and boots. -/
structure BootRec where
  cur   : List Bool
  lkg   : List Bool
  trial : Bool
  trialBoots : Nat
  deriving DecidableEq, Repr

end Sys2Proof.Machine
end

