-- ==== Sys2Proof/Machine/TypesTxt.lean ====
section
/-! DEFINITION. Record types of the state, fourth part: text and grammar (09), power and reset (15), errors
(16), and what leaves the device. -/

namespace Sys2Proof.Machine

/-! ## Text and grammar (09) -/

/-- An installed vocabulary (R263): its image and whether a fault of an image block damaged it (16 R443). -/
structure Vocab where
  image : Mem
  len   : Nat
  damaged : Bool
  deriving DecidableEq, Repr

/-- An installed grammar (R277). -/
structure Grammar where
  image : Mem
  len   : Nat
  damaged : Bool
  deriving DecidableEq, Repr

/-- Stream states other than FREE (R262). -/
inductive TxtState where
  | open | stopped | ended
  deriving DecidableEq, Repr

/-- A TOKENIZE waiting its turn on its stream (R266): CMD_TAG, submitting ring, its operands, and its lane work (R269). -/
structure TokCmd where
  sq      : Nat
  cq      : Nat
  tag     : W64
  last    : Bool
  inAddr  : Nat
  len     : Nat
  outAddr : Nat
  /-- SQ_HEAD after the command was taken (11 R327) -/
  head    : Nat
  /-- order of arrival at the text unit (10 R307) -/
  order   : Nat
  /-- lane cycles not yet begun; none before the first -/
  left    : Option Nat
  /-- cycle of NCLK at which the lane work begun ends -/
  till    : Nat
  /-- tokens written so far (09 R269) -/
  wrote   : Nat := 0
  deriving DecidableEq, Repr

/-- A grammar instance (R278, R280): grammar number, mask buffer, escape token, STATE (0 OPEN, 1 ESCAPE,
2 ENDED), automaton state, stack (top first), dead configuration of R280, MSEQ. -/
structure Instance_ where
  grammar : Nat
  maskAddr : Nat
  escape  : Option Nat
  state   : Nat
  gs      : Nat
  stack   : List Nat
  stuck   : Bool
  mseq    : Nat
  deriving DecidableEq, Repr

/-- A stream (R262): carry, held bytes (each with the mark that it stems from a replacement, R273), tail,
ESEQ, TOKENIZE commands waiting and instance. -/
structure TStream where
  ctx     : Nat
  state   : TxtState
  vocab   : Nat
  stopset : Option Nat
  inclStop : Bool
  cq      : Nat
  carry   : List Byte
  held    : List (Byte × Bool)
  tail    : List Byte
  eseq    : Nat
  queue   : List TokCmd
  inst    : Option Instance_
  deriving DecidableEq, Repr

/-- A token event waiting at the text unit (R270, R272). -/
structure TokEvent where
  ctx    : Nat
  stepCq : Nat
  jobId  : Nat
  stream : Nat
  token  : Nat
  end_   : Bool
  /-- job class of the posting step (10 R287) -/
  rank   : Nat
  /-- order of arrival at the text unit (10 R307) -/
  order  : Nat
  /-- cycle of NCLK at which its lane work ends; none before it begins -/
  till   : Option Nat
  deriving DecidableEq, Repr

/-! ## Power, reset and errors (15, 16) -/

/-- Phases of a plinth-partial reset (R424), each with the tick it began in; `act` when it belongs to an
activation of kind 1. -/
inductive PlinthPh where
  | none
  | quiesce (start : Nat) (act : Bool)
  | ending (start : Nat) (act : Bool)
  | reset (start : Nat) (act : Bool)
  deriving DecidableEq, Repr

/-- A compute die's reset and fence state (R425, R451): tick its die-partial reset began, fenced. -/
structure DieSt where
  resetAt : Option Nat
  fenced  : Bool
  deriving DecidableEq, Repr

/-- Whether the device has power and where its start-up stands (R415, R427). -/
inductive PowerSt where
  | off | starting | up | down
  deriving DecidableEq, Repr

/-- An error record (16 R440). -/
structure ErrRec where
  time   : Nat
  addr   : Nat
  detail : Nat
  seq    : Nat
  bootEpoch : Nat
  code   : Nat
  status : Nat
  unit   : Nat
  source : Nat
  ctx    : Nat
  count  : Nat
  handle : Option Nat
  severity : Nat
  degraded : Bool
  deriving DecidableEq, Repr

/-- A page mover's work (06 R168, R169): session handle, directory entry index, whether it is a landing, a
second copy, and the payload in hand. -/
structure MoverJob where
  handle : Nat
  n      : Nat
  second : Bool
  land   : Bool
  data   : List Byte
  deriving DecidableEq, Repr

/-! ## What leaves the device -/

/-- An output: a DWR or an HRDR transaction (11 R315) with its transaction number, a packet or a frame on a port, a management
reply. -/
inductive Output where
  | dwr (seq addr : Nat) (data : List Byte)
  | hrdr (seq tag status : Nat) (data : List Byte)
  | pkt (port : Nat) (p : Packet)
  | frame (port : Nat) (f : LinkFrame)
  | reply (m : MgmtReply)
  deriving DecidableEq, Repr

/-- Header of a site transaction (11 R315): OP 3 is HRDR, 4 DWR; `n` is its data in bytes. -/
def siteHeader (op seq n tag status addr : Nat) : Nat :=
  op % 16 + seq % 2 ^ 12 * 2 ^ 8 + (n / 16 - 1) % 2 ^ 8 * 2 ^ 20 + tag % 2 ^ 16 * 2 ^ 32 + status % 2 ^ 16 * 2 ^ 48
    + addr % 2 ^ 64 * 2 ^ 64

/-- The site transaction an output is: its header and its data. -/
def Output.siteTxn : Output → Option (Nat × List Byte)
  | .dwr seq addr data => some (siteHeader 4 seq data.length 0 0 addr, data)
  | .hrdr seq tag status data => some (siteHeader 3 seq data.length tag status 0, data)
  | _ => none

end Sys2Proof.Machine
end

