-- ==== Sys2Proof/Machine/State.lean ====
section
/-! DEFINITION. The state of the device as plain data, in groups by chapter, its faults and refusals, and the
state after reset: the module with no supply (15 R422: power-on resets everything; POWER_ON is the command that
starts it). Every field's docstring names its rule; the value after `:=` is its value at reset. -/

namespace Sys2Proof.Machine

/-! ### Power, clocks and reset (15) -/
structure Dev where
  /-- cycles of NCLK since the root locked; the timestamp counter is a quarter of it, 64 bits (15 R419, R421) -/
  nclk : Nat := 0
  /-- the root PLL is locked (15 R420) -/
  locked : Bool := false
  /-- supply and start-up (15 R415, R427) -/
  power : PowerSt := .off
  /-- input level in mV (15 R415, object 0x2000.1) -/
  vin : Nat := 0
  /-- a supply warning is in force (15 R415) -/
  supplyWarn : Bool := false
  /-- MGMT_STATE, 8 bits: 0 STARTING, 1 STOPPED, 2 OPERATIONAL, 3 SERVICE, 4 FAULT (14 R400) -/
  mgmt : Nat := 0
  /-- SITE_FATAL is asserted (11 R331) -/
  siteFatal : Bool := false
  /-- the reset contact RST_N is held (17 R470) -/
  rstHeld : Bool := false
  /-- HOST rail: 0 off, 1 ramping, 2 in regulation, 3 faulted (15 R418, object 0x2000.4) -/
  hostRail : Nat := 0
  /-- the other rails' STATE codes, in the order of 15 R416's table (object 0x2000.4) -/
  rails : List Nat := List.replicate 20 0
  /-- TEMPS in 0.01 degrees C: dies 0 to 3, plinth, stacks 0 to 11 (15 R429) -/
  temps : List Int := List.replicate 17 0
  /-- warning in force, per row of TEMPS (15 R429) -/
  warned : List Bool := List.replicate 17 false
  /-- throttle in force, per row of TEMPS (15 R429) -/
  throttled : List Bool := List.replicate 17 false
  /-- die-partial resets and fences (15 R422, R425; 16 R451) -/
  dies : List DieSt := List.replicate 4 ⟨none, false⟩
  /-- plinth-partial reset (15 R424) -/
  plinth : PlinthPh := PlinthPh.none
  /-- STACK_STATE of the 12 stacks: 0 training, 1 in service, 2 out of service (15 R437) -/
  hbmSt : List Nat := List.replicate 12 0
  /-- FENCED is in force (15 R432) -/
  fencedForce : Bool := false
  /-- boot epoch, 16 bits (08 R239) -/
  bootEpoch : Nat := 0
  /-- PHY strapped at power-on: 0 10BASE-T1S, 1 100BASE-T1 (14 R388, object 0x1200.1) -/
  phy : Nat := 0
  /-- tick at which the input re-entered its window while a supply warning is in force (15 R415) -/
  supplyOk : Option Nat := none
  /-- largest PIN_W since PIN_PEAK_W was last read (15 R435) -/
  pinPeak : Nat := 0
  /-- number of the readings that are the training times of the last start-up, a free value (15 R437) -/
  trainUs : Nat := 0
  /-- the start-up in progress began at power-on, not at a device reset (15 R417) -/
  cold : Bool := false
  /-- partial resets in progress, RESET_DOMAIN codes, the one that started first at the front (12 R347) -/
  resetOrder : List Nat := []
  deriving DecidableEq, Repr

/-! ### Errors (16) -/
structure Errs where
  /-- ERR_LOG: the last 1,024 records, newest first (16 R442) -/
  log : List ErrRec := []
  /-- SEQ the next record takes, 32 bits (16 R442, object 0x9000.3) -/
  next : Nat := 0
  /-- FATAL_LOG: the last 16 FATAL records, newest first, kept through power loss (16 R442) -/
  fatal : List ErrRec := []
  /-- poisoned lines: HBM line numbers (16 R444) -/
  poison : Table Unit := []
  /-- lines that have failed and that no read has reached yet, by number (16 R475) -/
  failed : Table Unit := []
  /-- what fails of itself in the next cycle of NCLK: a kind and two numbers, a free value; the model's own field (log entry 68) -/
  upset : Option (Nat × Nat × Nat) := none
  /-- cycle of NCLK in which a page was last marked lost for a poisoned line (16 R445) -/
  lostAt : Nat := 0
  /-- the pages so marked in that cycle, (handle, index) (16 R445) -/
  lostNow : List (Nat × Nat) := []
  /-- corrected errors of a frame: ticks within 24 h (16 R447) -/
  ces : Table (List Nat) := []
  /-- slabs marked for retirement (16 R447) -/
  marked : Table Unit := []
  /-- RETIRED: slabs kept through power loss (16 R448) -/
  retired : Table Unit := []
  /-- slabs retired beyond RETIRED's 4,096 rows, until the next reset (16 R448) -/
  retiredNow : Table Unit := []
  /-- ticks of fence-counting events per die within 100 ms (16 R450) -/
  fenceEv : List (List Nat) := List.replicate 4 []
  /-- tick until which service degraded stays raised by a timed cause; none when clear (12 R360) -/
  degraded : Option Nat := none
  /-- ticks of corrected HBM errors counted for checkpoint trigger 1 (13 R371) -/
  trigCe : List Nat := []
  deriving DecidableEq, Repr

/-! ### Courses, jobs and the scheduler (03, 10) -/
structure Run where
  /-- the cores that hold state: registers P, C, K, SG, Q, T, instruction index, lien count, stores (03 R71-R73) -/
  cores : Table Core := []
  /-- admitted steps by number (03 R96, R97; 10 R292) -/
  steps : Table Step := []
  /-- jobs (10 R288, R294) -/
  jobs : Table Job := []
  /-- number the next step takes -/
  nextStep : Nat := 0
  /-- number the next job takes -/
  nextJob : Nat := 0
  /-- order of admission -/
  nextOrder : Nat := 0
  /-- KEYSTONE arms by context (10 R298) -/
  arms : Table Arm := []
  /-- token counts, key ctx * 8 + resource, 64-bit signed (10 R306) -/
  tokens : Table Int := []
  /-- RATE in force, same key (10 R307, R308) -/
  rate : Table Nat := []
  /-- BURST in force, same key -/
  burst : Table Nat := []
  /-- WEIGHT in force by context where it is not 1 (10 R308) -/
  weight : Table Nat := []
  /-- finish tags, key ctx * 64 + unit (10 R307) -/
  fin : Table Nat := []
  /-- virtual time of each unit (10 R307) -/
  vt : Table Nat := []
  /-- index of the last refill: counter / 62,500 (10 R307) -/
  refill : Nat := 0
  /-- KEYSTONE steps admitted in the present refill period, by context (10 R309) -/
  ksUsed : Table Nat := []
  /-- step chosen at the step queue and waiting for quads (10 R307) -/
  chosen : Option Nat := none
  /-- expiries still to fall for steps that have ended, by `expKey`: the first cycle of NCLK after each (11 R332) -/
  expiries : Table Nat := []
  deriving DecidableEq, Repr

/-! ### HBM, sessions, parking (05, 06) -/
structure Ses where
  /-- sessions by handle, tombs included (05 R127, R130) -/
  tbl : Table Session := []
  /-- binding records, key ctx * 256 + binding (05 R131) -/
  binds : Table BindRec := []
  /-- adapters, key ctx * 4096 + adapter (05 R155) -/
  adapters : Table Adapter := []
  /-- leases, key ctx * 4096 + lease (06 R165) -/
  leases : Table Lease := []
  /-- handles held by MIGRATE_IN (06 R187) -/
  migIn : Table MigIn := []
  /-- slabs given out, by slab number (05 R148) -/
  slabs : Table Slab := []
  /-- freed frames still to be scrubbed (05 R149) -/
  dirtyFrames : Table Unit := []
  /-- bytes of HBM outside context memory: page and directory frames, by device-local address (01 R25) -/
  hbm : Mem := []
  /-- context memory, address ctx * 2^48 + context address (03 R76) -/
  cmem : Mem := []
  /-- work of the 16 page movers (01_architecture.md, table of units; 06 R186) -/
  movers : Table MoverJob := []
  /-- parked copies that have arrived and wait for a mover, oldest first (06 R186) -/
  staged : List MoverJob := []
  /-- busy time of the movers (06 R195) -/
  meters : Table Meter := []
  /-- handles whose descriptors the descriptor cache holds, the one used last at the front (05 R129) -/
  descs : List Nat := []
  /-- migration messages in the state engine's inbox: sending node, context, bytes (06 R187; 08 R245) -/
  inbox : List (Nat × Nat × List Byte) := []
  deriving DecidableEq, Repr

/-! ### Text unit (09) -/
structure Txt where
  /-- vocabularies, key ctx * 16 + number (09 R261, R263) -/
  vocabs : Table Vocab := []
  /-- stop sets, key ctx * 256 + number (09 R274) -/
  stops : Table (List (List Byte)) := []
  /-- grammars, key ctx * 64 + number (09 R277) -/
  grammars : Table Grammar := []
  /-- streams that are not FREE, with instance and TOKENIZE queue (09 R262) -/
  streams : Table TStream := []
  /-- token events received and not yet applied, in order (09 R271) -/
  events : List TokEvent := []
  /-- cycles of NCLK until which the 16 lanes are busy, key context * 16 + lane for work begun in SEALED, 4096 + lane for other work
  (09 R269; 12 R361) -/
  lanes : Table Nat := []
  /-- busy time of the lanes (09 R283) -/
  meters : Table Meter := []
  /-- order of the next item to arrive -/
  nextOrder : Nat := 0
  deriving DecidableEq, Repr

/-! ### Line fabric (07) -/
structure Fab where
  /-- node address, 16 bits; PORT_BRINGUP gives it (07 R199, R230) -/
  node : Nat := 0xFFFF
  /-- own device ID, 16 bits (07 R199, R230) -/
  ownId : Nat := 0xFFFF
  /-- PORT_BRINGUP has been received (07 R199) -/
  named : Bool := false
  /-- the 18 ports (07 R200-R204) -/
  ports : List Port := []
  /-- composition map in force (07 R221) -/
  map : CompMap := ⟨0, [], [], []⟩
  /-- the previous map (01 R27; 07 R222, R224) -/
  prevMap : CompMap := ⟨0, [], [], []⟩
  /-- map being staged (07 R222) -/
  staging : Option Staging := none
  /-- MAP_ACKs to be sent, oldest first: epoch and status (07 R226) -/
  mapAck : List (W32 × Nat) := []
  /-- region table, by first slot (07 R214) -/
  regions : Table Region := []
  /-- key that a slot last held as a region's FIRST (07 R215) -/
  lastKeys : Table W32 := []
  /-- REGION_CLEAR commands whose completion is due, same key (07 R216) -/
  closes : Table RegionClose := []
  /-- transactions of line operations by TXN (07 R209) -/
  txns : Table Txn := []
  /-- late responses still due to operations that timed out, by TXN (07 R210) -/
  spent : Table Nat := []
  /-- order of issue -/
  nextOrder : Nat := 0
  /-- port used last, per purpose (07 R230; 08 R235) -/
  rotor : Nat := 0
  /-- gateway intake as NEAR, by tag (08 R255) -/
  intake : Table Intake := []
  /-- tag the next intake entry takes -/
  nextTag : Nat := 0
  /-- record messages being packed, key gateway * 2, and 1 more for those of answers (08 R255) -/
  batches : Table Batch := []
  /-- packets that wait for credits or, a key exchange on REQ, for its turn too, oldest first (07 R204-R206) -/
  sendQ : List WaitPkt := []
  /-- ticks at which the expiries of line operations fall that an answer has settled (11 R332) -/
  expiries : List Nat := []
  /-- line requests in the REQ and CMB buffers that wait for room in the response queue, or for a checkpoint's copy (07 R205;
  13 R376), oldest first -/
  inQ : List InReq := []
  deriving DecidableEq, Repr

/-! ### Bulk transport (08) -/
structure Bulk where
  /-- flow cache by peer node (08 R240) -/
  flows : Table Flow := []
  /-- keys of the flows by peer node (12 R338, R353) -/
  keys : Table FlowKeys := []
  /-- GETs outstanding, key node * 2^48 + sequence (08 R251) -/
  gets : Table GetRec := []
  /-- GETs being served, same key (08 R251) -/
  serves : Table GetServe := []
  /-- messages that wait for a flow-cache entry, with their peer node (08 R240) -/
  noFlow : List (Nat × BulkMsg) := []
  /-- packets that have passed every check and whose write a checkpoint's cut holds, oldest first (13 R376) -/
  held : List HeldPkt := []
  /-- packets in a REQ buffer that wait for room in the response queue, with their port, oldest first (07 R205) -/
  waitQ : List (Nat × BulkPkt) := []
  /-- ST_KEY answers within a refill period: index of the period and count, key node * 65536 + FIRST (12 R355) -/
  keyFails : Table (Nat × Nat) := []
  /-- pairs of node and region in quarantine, same key, with the tick of its end (12 R355) -/
  quar : Table Nat := []
  /-- ticks at which the expiries of messages and GETs fall that are settled (11 R332) -/
  expiries : List Nat := []
  /-- virtual clock of use for the flow cache's replacement -/
  useCtr : Nat := 0
  deriving DecidableEq, Repr

/-! ### Security (12) -/
structure Sec where
  /-- keys of enabled contexts (12 R338) -/
  ctx : Table CtxSec := []
  /-- the attestation key (12 R338), a fresh value at each power-on and device reset -/
  ak : Nat := 0
  /-- the device key (12 R338), a fresh value at each power-on -/
  devKey : Nat := 0
  /-- latest quote (12 R345) -/
  quote : Option Quote := none
  /-- quote counter (12 R345) -/
  quoteCtr : Nat := 0
  /-- seal counter, 80 bits (12 R343) -/
  sealCtr : Nat := 0
  /-- last KEY_EPOCH of each context number, kept in the monotonic store (12 R340) -/
  epochs : Table Nat := []
  deriving DecidableEq, Repr

/-! ### Host site (11) -/
structure Site where
  /-- the link is up (11 R314) -/
  linkUp : Bool := false
  /-- bring-up runs and has not ended (11 R314) -/
  bringing : Bool := false
  /-- tick at which a failed bring-up is retried (11 R314) -/
  retryAt : Option Nat := none
  /-- UCIe modules 0 to 3 (11 R313) -/
  modules : List Module := List.replicate 4 ⟨0, 0, false⟩
  /-- SEQ of the next host transaction to be applied (11 R316) -/
  hostSeq : Nat := 0
  /-- host transactions that arrived before one of a lower SEQ, by SEQ (11 R316) -/
  hostHeld : Table HostOp := []
  /-- SEQ of the next transaction the device issues (11 R316) -/
  devSeq : Nat := 0
  /-- RESETTING of SITE_STATUS (11 R317) -/
  resetting : Bool := true
  /-- HWR_DISCARDS, 16 bits (11 R317) -/
  discards : Nat := 0
  /-- LATE_SETTLE, 64 bits (11 R332) -/
  late : Nat := 0
  /-- the 64 queue pairs (11 R319) -/
  qps : List Qp := []
  /-- the KEYSTONE queue (11 R321) -/
  ks : KsQueue := ⟨false, 0, 0, 0, none⟩
  /-- cycle of NCLK of the doorbell write that brought each entry of the KEYSTONE ring, by slot (10 R304) -/
  ksDoors : Table Nat := []
  /-- host window table, 256 entries, those not all zero (11 R318) -/
  wins : Table HostWin := []
  /-- submission rings, by site offset (11 R317) -/
  rings : Mem := []
  /-- submission ring entries that an uncorrectable error of plinth SRAM has damaged, key ring * 512 + slot (16 R443) -/
  badEntries : Table Unit := []
  /-- SQ_HEAD of the ring that last advanced, as events report it (11 R327) -/
  lastHead : Nat := 0
  /-- completion rings in plinth SRAM, by site offset (11 R317) -/
  cqMem : Mem := []
  deriving DecidableEq, Repr

/-! ### Checkpoint and restore (13) -/
structure Cks where
  /-- checkpoint state by context, where it is not IDLE or something was kept (13 R372) -/
  tbl : Table Ckpt := []
  /-- uncopied frames on which a write is held (13 R376), keyed as `cframes`; each with the units whose write it is -/
  held : Table (List Nat) := []
  deriving DecidableEq, Repr

/-! ### Management and firmware (14) -/
structure Mgs where
  /-- the object dictionary's stored values that differ from their defaults, key `okey` (14 R396) -/
  objs : Table Nat := []
  /-- SEQ windows of the key slots (14 R392) -/
  wins : Table SeqWin := []
  /-- boot record (14 R404) -/
  boot : BootRec := ⟨List.replicate 5 false, List.replicate 5 false, false, 0⟩
  /-- the boot record before the boot in progress (14 R405; 17 R470) -/
  bootWas : BootRec := ⟨List.replicate 5 false, List.replicate 5 false, false, 0⟩
  /-- FATAL_LOG before the boot in progress (16 R442; 17 R470) -/
  fatalWas : List ErrRec := []
  /-- security floors by kind (14 R404) -/
  floors : List Nat := List.replicate 5 0
  /-- image banks, key kind * 2 + bank (14 R401, R404) -/
  banks : Table (List Byte) := facBanks
  /-- staging by kind (14 R408) -/
  stage : List StageSt := List.replicate 5 ⟨0, [], 0⟩
  /-- activation in progress (14 R409) -/
  act : Option Activation := none
  /-- bank of each running image (14 R401, object 0xA000.1) -/
  runBanks : List Bool := List.replicate 5 false
  /-- images running, by kind (14 R402, object 0xA000) -/
  running : List (List Byte) := List.replicate 5 []
  /-- the running set is untested (14 R404) -/
  untested : Bool := false
  deriving DecidableEq, Repr

/-- The whole state. -/
structure State where
  /-- commands waiting, first in, first out; the model's own field -/
  pending : List Instr := []
  /-- what has left the device, newest first; the model's own field -/
  out : List Output := []
  /-- number of free values used so far; the model's own field -/
  freeCtr : Nat := 0
  dev  : Dev := {}
  err  : Errs := {}
  run  : Run := {}
  ses  : Ses := {}
  txt  : Txt := {}
  fab  : Fab := {}
  bulk : Bulk := {}
  sec  : Sec := {}
  site : Site := {}
  cks  : Cks := {}
  mg   : Mgs := {}
  deriving DecidableEq, Repr

/-- Why a run can stop with a fault: for no reason. Every command of the manual has an effect in every state, an error included;
one that names a unit the device does not have changes nothing (DESIGN CHOICE, log entry 6). -/
inductive Fault where
  deriving DecidableEq, Repr

/-- Why a command has no meaning. -/
inductive Refusal where
  /-- raised by an arm of `exec` whose command has no meaning yet; safe -/
  | notModelled (mnemonic : String)
  deriving DecidableEq, Repr

/-- A queue pair at reset (11 R319): disabled, every register 0. -/
def qpReset : Qp :=
  { want := false, enabled := false, cqInSite := false, cqLog2 := 0, cqBase := 0, sqHead := 0, sqTail := 0, cqHead := 0,
    cqTail := 0, cqCount := 0, phase := true, spill := [], overflow := false, dbErr := false, latch := none,
    resv := 0, resvKs := 0, work := 0 }

/-- A port at reset (07 R200): down, no frame sent. -/
def portReset : Port :=
  { state := 0, lanes := 0, txSeq := 0, rxSeq := 0, replay := [], retryOut := false, credits := [0, 0, 0, 0], retries := 0,
    fresh := true, rx := [0, 0, 0, 0], heads := [[], [], [], []], owed := [0, 0, 0, 0], ackDue := false, ackSent := 0, drrCmb := 0, drrReq := 0, drrOnReq := false,
    resetAt := none }

/-- The state after reset: no supply, nothing started (15 R422). -/
def State.reset : State :=
  { site := { qps := List.replicate 64 qpReset }, fab := { ports := List.replicate 18 portReset } }

/-- What a step answers. -/
abbrev Res := Host.Outcome State Fault Refusal

end Sys2Proof.Machine
end

