-- ==== Sys2Proof/Machine/Objects.lean ====
section
/-! DEFINITION. The object dictionary (14_management_and_firmware.md R396, R397 and the chapters' object
tables): one row per object, and the stored values. Row fields: index, subindex, type code, rows of a TABLE
(1 for a scalar), bytes of each column, access (0 RO, 1 RW, 2 RWS, 3 WO, 4 RC), default, least and greatest
value of an element. -/

namespace Sys2Proof.Machine

/-- A dictionary row. -/
structure ObjRow where
  ix   : Nat
  sub  : Nat
  typ  : Nat
  rows : Nat
  cols : List Nat
  acc  : Nat
  dflt : Nat
  lo   : Nat
  hi   : Option Nat
  deriving DecidableEq, Repr

/-- Objects 1000.1 (VENDOR) to 1200.6 (PREFIX_LEN). -/
def dict00 : List ObjRow := [
  ⟨0x1000, 1, 10, 1, [32], 0, 153387657812126822873203090111673298759, 0, none⟩,
  ⟨0x1000, 2, 10, 1, [32], 0, 909451643414110686288, 0, none⟩,
  ⟨0x1000, 3, 9, 1, [16], 0, 0, 0, none⟩,
  ⟨0x1000, 4, 2, 1, [1], 0, 0, 0, none⟩,
  ⟨0x1000, 5, 4, 1, [4], 0, 0, 0, none⟩,
  ⟨0x1001, 1, 11, 5, [4], 0, 0, 0, none⟩,
  ⟨0x1002, 1, 5, 1, [8], 0, 0, 0, none⟩,
  ⟨0x1100, 1, 2, 1, [1], 0, 1, 0, none⟩,
  ⟨0x1100, 2, 2, 1, [1], 2, 0, 0, none⟩,
  ⟨0x1100, 3, 9, 1, [32], 0, 2, 0, none⟩,
  ⟨0x1101, 1, 9, 1, [64], 0, 0, 0, none⟩,
  ⟨0x1101, 2, 11, 234, [2, 1, 1, 2, 1, 1, 8], 0, 0, 0, none⟩,
  ⟨0x1102, 1, 9, 1, [64], 0, 0, 0, none⟩,
  ⟨0x1102, 2, 1, 1, [1], 0, 0, 0, some 1⟩,
  ⟨0x1200, 1, 2, 1, [1], 0, 0, 0, none⟩,
  ⟨0x1200, 2, 2, 1, [1], 2, 255, 0, none⟩,
  ⟨0x1200, 3, 2, 1, [1], 2, 8, 2, some 32⟩,
  ⟨0x1200, 4, 9, 1, [16], 0, 0, 0, none⟩,
  ⟨0x1200, 5, 9, 1, [16], 2, 0, 0, none⟩,
  ⟨0x1200, 6, 2, 1, [1], 2, 64, 1, some 128⟩]

/-- Objects 1201.1 (OPKEY_PUB) to 2003.2 (THERMAL_WARNS). -/
def dict01 : List ObjRow := [
  ⟨0x1201, 1, 11, 16, [32], 1, 0, 0, none⟩,
  ⟨0x1201, 2, 11, 16, [1], 1, 0, 0, none⟩,
  ⟨0x1202, 1, 5, 1, [8], 4, 0, 0, none⟩,
  ⟨0x1202, 2, 5, 1, [8], 4, 0, 0, none⟩,
  ⟨0x1202, 3, 5, 1, [8], 4, 0, 0, none⟩,
  ⟨0x1203, 1, 2, 1, [1], 0, 0, 0, none⟩,
  ⟨0x1203, 2, 2, 1, [1], 3, 0, 0, none⟩,
  ⟨0x2000, 1, 4, 1, [4], 0, 0, 0, none⟩,
  ⟨0x2000, 2, 4, 1, [4], 0, 0, 0, none⟩,
  ⟨0x2000, 3, 4, 1, [4], 4, 0, 0, none⟩,
  ⟨0x2000, 4, 11, 21, [4, 4, 1], 0, 0, 0, none⟩,
  ⟨0x2001, 1, 3, 1, [2], 2, 0, 0, some 1100⟩,
  ⟨0x2001, 2, 3, 1, [2], 2, 400, 50, some 400⟩,
  ⟨0x2001, 3, 5, 1, [8], 4, 0, 0, none⟩,
  ⟨0x2002, 1, 11, 17, [4], 0, 0, 0, none⟩,
  ⟨0x2002, 2, 2, 1, [1], 1, 95, 70, some 100⟩,
  ⟨0x2002, 3, 2, 1, [1], 1, 105, 75, some 110⟩,
  ⟨0x2002, 4, 11, 4, [1], 0, 0, 0, none⟩,
  ⟨0x2003, 1, 5, 1, [8], 4, 0, 0, none⟩,
  ⟨0x2003, 2, 5, 1, [8], 4, 0, 0, none⟩]

/-- Objects 2004.1 (ROOT_LOCKED) to 3100.2 (AWAKE). -/
def dict02 : List ObjRow := [
  ⟨0x2004, 1, 1, 1, [1], 0, 1, 0, some 1⟩,
  ⟨0x2004, 2, 11, 6, [8], 0, 0, 0, none⟩,
  ⟨0x2100, 1, 2, 1, [1], 3, 0, 0, none⟩,
  ⟨0x2100, 2, 11, 23, [1], 0, 0, 0, some 1⟩,
  ⟨0x2100, 3, 4, 1, [4], 1, 10000, 100, some 40000⟩,
  ⟨0x2100, 4, 11, 24, [4], 4, 0, 0, none⟩,
  ⟨0x2101, 1, 2, 1, [1], 2, 0, 0, some 3⟩,
  ⟨0x2101, 2, 2, 1, [1], 0, 0, 0, none⟩,
  ⟨0x2101, 3, 3, 1, [2], 1, 3700, 1200, some 3700⟩,
  ⟨0x2101, 4, 3, 1, [2], 0, 256, 0, none⟩,
  ⟨0x2101, 5, 3, 1, [2], 0, 0, 0, none⟩,
  ⟨0x2101, 6, 11, 4, [1], 0, 0, 0, none⟩,
  ⟨0x3000, 1, 11, 12, [1], 0, 0, 0, none⟩,
  ⟨0x3000, 2, 5, 1, [8], 0, 0, 0, none⟩,
  ⟨0x3000, 3, 11, 12, [4], 0, 0, 0, none⟩,
  ⟨0x3001, 1, 11, 12, [8], 4, 0, 0, none⟩,
  ⟨0x3001, 2, 11, 12, [8], 4, 0, 0, none⟩,
  ⟨0x3002, 1, 3, 1, [2], 1, 24, 1, some 168⟩,
  ⟨0x3100, 1, 11, 8, [4], 0, 0, 0, none⟩,
  ⟨0x3100, 2, 4, 1, [4], 0, 0, 0, none⟩]

/-- Objects 3100.3 (TOMBS) to 310A.4 (EXPIRY_DROPS). -/
def dict03 : List ObjRow := [
  ⟨0x3100, 3, 4, 1, [4], 0, 0, 0, none⟩,
  ⟨0x3101, 1, 11, 256, [4, 4], 1, 0, 0, none⟩,
  ⟨0x3102, 1, 11, 256, [4], 1, 0, 0, none⟩,
  ⟨0x3102, 2, 11, 256, [4], 0, 0, 0, none⟩,
  ⟨0x3103, 1, 5, 1, [8], 4, 0, 0, none⟩,
  ⟨0x3103, 2, 5, 1, [8], 4, 0, 0, none⟩,
  ⟨0x3104, 1, 11, 4, [4], 0, 0, 0, none⟩,
  ⟨0x3104, 2, 11, 4, [4], 0, 0, 0, none⟩,
  ⟨0x3106, 1, 2, 1, [1], 2, 16, 0, none⟩,
  ⟨0x3106, 2, 3, 1, [2], 0, 0, 0, none⟩,
  ⟨0x3107, 1, 3, 1, [2], 0, 0, 0, none⟩,
  ⟨0x3107, 2, 3, 1, [2], 0, 0, 0, none⟩,
  ⟨0x3107, 3, 11, 256, [2, 2], 1, 0, 0, none⟩,
  ⟨0x3108, 1, 5, 1, [8], 4, 0, 0, none⟩,
  ⟨0x3109, 1, 3, 1, [2], 2, 64, 1, some 4096⟩,
  ⟨0x3109, 2, 11, 256, [2], 0, 0, 0, none⟩,
  ⟨0x310A, 1, 5, 1, [8], 4, 0, 0, none⟩,
  ⟨0x310A, 2, 5, 1, [8], 4, 0, 0, none⟩,
  ⟨0x310A, 3, 5, 1, [8], 4, 0, 0, none⟩,
  ⟨0x310A, 4, 5, 1, [8], 4, 0, 0, none⟩]

/-- Objects 310B.1 (HINT_HOLD) to 4006.1 (MAP_REFUSED). -/
def dict04 : List ObjRow := [
  ⟨0x310B, 1, 11, 256, [2], 1, 2000, 1, some 65535⟩,
  ⟨0x310B, 2, 5, 1, [8], 4, 0, 0, none⟩,
  ⟨0x310C, 1, 4, 1, [4], 0, 0, 0, none⟩,
  ⟨0x310C, 2, 4, 1, [4], 0, 0, 0, none⟩,
  ⟨0x310C, 3, 5, 1, [8], 4, 0, 0, none⟩,
  ⟨0x310D, 1, 11, 16, [2], 0, 0, 0, none⟩,
  ⟨0x310E, 1, 5, 1, [8], 4, 0, 0, none⟩,
  ⟨0x310E, 2, 4, 1, [4], 0, 0, 0, none⟩,
  ⟨0x4000, 1, 3, 1, [2], 0, 65535, 0, none⟩,
  ⟨0x4000, 2, 3, 1, [2], 0, 65535, 0, none⟩,
  ⟨0x4000, 3, 4, 1, [4], 0, 0, 0, none⟩,
  ⟨0x4000, 4, 4, 1, [4], 0, 0, 0, none⟩,
  ⟨0x4001, 1, 11, 18, [1], 0, 0, 0, none⟩,
  ⟨0x4002, 1, 11, 18, [1], 2, 1, 0, some 1⟩,
  ⟨0x4003, 1, 11, 18, [8], 4, 0, 0, none⟩,
  ⟨0x4003, 2, 11, 18, [8], 4, 0, 0, none⟩,
  ⟨0x4003, 3, 11, 18, [8], 4, 0, 0, none⟩,
  ⟨0x4004, 1, 5, 1, [8], 4, 0, 0, none⟩,
  ⟨0x4005, 1, 4, 1, [4], 1, 2000, 100, some 100000⟩,
  ⟨0x4006, 1, 5, 1, [8], 4, 0, 0, none⟩]

/-- Objects 4007.1 (EPOCH_RETRY) to 4203.2 (FLOW_EVICTIONS). -/
def dict05 : List ObjRow := [
  ⟨0x4007, 1, 3, 1, [2], 1, 20, 1, some 1000⟩,
  ⟨0x4008, 1, 5, 1, [8], 4, 0, 0, none⟩,
  ⟨0x4008, 2, 5, 1, [8], 4, 0, 0, none⟩,
  ⟨0x4008, 3, 5, 1, [8], 4, 0, 0, none⟩,
  ⟨0x4008, 4, 5, 1, [8], 4, 0, 0, none⟩,
  ⟨0x4008, 5, 5, 1, [8], 4, 0, 0, none⟩,
  ⟨0x4100, 1, 4, 1, [4], 0, 0, 0, none⟩,
  ⟨0x4100, 2, 4, 1, [4], 0, 0, 0, none⟩,
  ⟨0x4101, 1, 11, 256, [2], 1, 0, 0, none⟩,
  ⟨0x4101, 2, 11, 256, [2, 2], 1, 0, 0, none⟩,
  ⟨0x4102, 1, 11, 256, [8], 4, 0, 0, none⟩,
  ⟨0x4200, 1, 3, 1, [2], 0, 0, 0, none⟩,
  ⟨0x4200, 2, 4, 1, [4], 0, 1000, 0, none⟩,
  ⟨0x4201, 1, 4, 1, [4], 1, 2000, 2000, some 60000⟩,
  ⟨0x4202, 1, 4, 1, [4], 0, 262144, 0, none⟩,
  ⟨0x4202, 2, 4, 1, [4], 0, 16777216, 0, none⟩,
  ⟨0x4202, 3, 3, 1, [2], 1, 1250, 125, some 62500⟩,
  ⟨0x4202, 4, 4, 1, [4], 1, 50, 5, some 10000⟩,
  ⟨0x4203, 1, 3, 1, [2], 0, 0, 0, none⟩,
  ⟨0x4203, 2, 5, 1, [8], 4, 0, 0, none⟩]

/-- Objects 4203.3 (BUSY_ANSWERS) to 5004.2 (BURST). -/
def dict06 : List ObjRow := [
  ⟨0x4203, 3, 5, 1, [8], 4, 0, 0, none⟩,
  ⟨0x4204, 1, 5, 1, [8], 4, 0, 0, none⟩,
  ⟨0x4204, 2, 5, 1, [8], 4, 0, 0, none⟩,
  ⟨0x4204, 3, 5, 1, [8], 4, 0, 0, none⟩,
  ⟨0x4204, 4, 5, 1, [8], 4, 0, 0, none⟩,
  ⟨0x4205, 1, 1, 1, [1], 2, 0, 0, some 1⟩,
  ⟨0x4205, 2, 11, 18, [1], 2, 0, 0, some 1⟩,
  ⟨0x4205, 3, 3, 1, [2], 1, 100, 20, some 10000⟩,
  ⟨0x4205, 4, 3, 1, [2], 1, 2, 1, some 1000⟩,
  ⟨0x4205, 5, 5, 1, [8], 4, 0, 0, none⟩,
  ⟨0x4205, 6, 5, 1, [8], 4, 0, 0, none⟩,
  ⟨0x5000, 1, 11, 256, [1], 1, 0, 0, some 1⟩,
  ⟨0x5001, 1, 11, 64, [1], 2, 0, 0, none⟩,
  ⟨0x5002, 1, 11, 256, [32], 1, 0, 0, none⟩,
  ⟨0x5002, 2, 11, 256, [32], 1, 0, 0, none⟩,
  ⟨0x5002, 3, 11, 256, [1], 1, 0, 0, some 1⟩,
  ⟨0x5002, 4, 11, 256, [4], 1, 0, 0, none⟩,
  ⟨0x5003, 1, 11, 256, [2], 1, 1, 1, some 65535⟩,
  ⟨0x5004, 1, 11, 256, [8, 8, 8, 8, 8], 1, 0, 0, none⟩,
  ⟨0x5004, 2, 11, 256, [8, 8, 8, 8, 8], 1, 0, 0, none⟩]

/-- Objects 5004.3 (TOKENS) to 6006.1 (BYTES_TOKENIZED). -/
def dict07 : List ObjRow := [
  ⟨0x5004, 3, 11, 256, [8, 8, 8, 8, 8], 0, 0, 0, none⟩,
  ⟨0x5005, 1, 11, 4, [2], 1, 8160, 0, none⟩,
  ⟨0x5005, 2, 11, 4, [2], 1, 960, 0, none⟩,
  ⟨0x5005, 3, 11, 4, [2], 0, 0, 0, none⟩,
  ⟨0x5006, 1, 11, 256, [2], 1, 0, 0, none⟩,
  ⟨0x5007, 1, 5, 1, [8], 4, 0, 0, none⟩,
  ⟨0x5007, 2, 5, 1, [8], 4, 0, 0, none⟩,
  ⟨0x5007, 3, 4, 1, [4], 4, 0, 0, none⟩,
  ⟨0x5007, 4, 5, 1, [8], 4, 0, 0, none⟩,
  ⟨0x5007, 5, 5, 1, [8], 4, 0, 0, none⟩,
  ⟨0x5008, 1, 11, 4, [2], 0, 0, 0, none⟩,
  ⟨0x6000, 1, 3, 1, [2], 0, 2512, 0, none⟩,
  ⟨0x6000, 2, 3, 1, [2], 0, 0, 0, none⟩,
  ⟨0x6000, 3, 3, 1, [2], 0, 0, 0, none⟩,
  ⟨0x6001, 1, 11, 256, [2], 1, 0, 0, none⟩,
  ⟨0x6001, 2, 11, 256, [2], 1, 0, 0, some 256⟩,
  ⟨0x6002, 1, 11, 256, [1], 1, 0, 0, some 1⟩,
  ⟨0x6003, 1, 11, 256, [2, 2], 1, 0, 0, none⟩,
  ⟨0x6005, 1, 11, 256, [2], 1, 0, 0, none⟩,
  ⟨0x6006, 1, 5, 1, [8], 4, 0, 0, none⟩]

/-- Objects 6006.2 (INVALID_SUBPARTS) to 7005.3 (QUARANTINES). -/
def dict08 : List ObjRow := [
  ⟨0x6006, 2, 5, 1, [8], 4, 0, 0, none⟩,
  ⟨0x6006, 3, 5, 1, [8], 4, 0, 0, none⟩,
  ⟨0x6006, 4, 5, 1, [8], 4, 0, 0, none⟩,
  ⟨0x6006, 5, 5, 1, [8], 4, 0, 0, none⟩,
  ⟨0x6007, 1, 11, 16, [2], 0, 0, 0, none⟩,
  ⟨0x7000, 1, 9, 1, [32], 0, 0, 0, none⟩,
  ⟨0x7000, 2, 9, 1, [128], 0, 0, 0, none⟩,
  ⟨0x7000, 3, 9, 1, [128], 0, 0, 0, none⟩,
  ⟨0x7001, 1, 9, 1, [32], 3, 0, 0, none⟩,
  ⟨0x7001, 2, 9, 1, [512], 0, 0, 0, none⟩,
  ⟨0x7002, 1, 2, 1, [1], 1, 0, 0, some 1⟩,
  ⟨0x7002, 2, 11, 64, [64], 1, 0, 0, none⟩,
  ⟨0x7003, 1, 11, 256, [2, 1, 4], 0, 0, 0, none⟩,
  ⟨0x7003, 2, 11, 256, [128], 0, 0, 0, none⟩,
  ⟨0x7004, 1, 11, 256, [2, 1, 1], 1, 0, 0, none⟩,
  ⟨0x7004, 2, 11, 256, [2, 1, 1], 1, 0, 0, none⟩,
  ⟨0x7004, 3, 11, 256, [2], 0, 0, 0, none⟩,
  ⟨0x7005, 1, 3, 1, [2], 1, 64, 1, some 65535⟩,
  ⟨0x7005, 2, 4, 1, [4], 1, 1000, 1, some 3600000⟩,
  ⟨0x7005, 3, 5, 1, [8], 4, 0, 0, none⟩]

/-- Objects 7006.1 (SEAL_WHEEL_LEN) to 8005.4 (WARN_TRIGGERS). -/
def dict09 : List ObjRow := [
  ⟨0x7006, 1, 3, 1, [2], 2, 16, 0, none⟩,
  ⟨0x7006, 2, 11, 256, [2], 2, 65535, 0, none⟩,
  ⟨0x7007, 1, 1, 1, [1], 0, 0, 0, some 1⟩,
  ⟨0x7007, 2, 5, 1, [8], 4, 0, 0, none⟩,
  ⟨0x7007, 3, 5, 1, [8], 4, 0, 0, none⟩,
  ⟨0x7007, 4, 5, 1, [8], 0, 0, 0, none⟩,
  ⟨0x8000, 1, 11, 4, [4], 2, 0, 0, none⟩,
  ⟨0x8000, 2, 11, 4, [4], 0, 0, 0, none⟩,
  ⟨0x8001, 1, 11, 256, [8], 1, 0, 0, none⟩,
  ⟨0x8001, 2, 11, 256, [1], 1, 0, 0, some 1⟩,
  ⟨0x8002, 1, 11, 256, [1], 3, 0, 1, some 3⟩,
  ⟨0x8003, 1, 11, 256, [1], 0, 0, 0, none⟩,
  ⟨0x8003, 2, 11, 256, [2], 0, 0, 0, none⟩,
  ⟨0x8003, 3, 11, 256, [8], 0, 0, 0, none⟩,
  ⟨0x8004, 1, 4, 1, [4], 1, 1000, 0, none⟩,
  ⟨0x8004, 2, 4, 1, [4], 1, 10000, 100, some 1000000⟩,
  ⟨0x8005, 1, 5, 1, [8], 4, 0, 0, none⟩,
  ⟨0x8005, 2, 5, 1, [8], 4, 0, 0, none⟩,
  ⟨0x8005, 3, 5, 1, [8], 4, 0, 0, none⟩,
  ⟨0x8005, 4, 5, 1, [8], 4, 0, 0, none⟩]

/-- Objects 8005.5 (TRIGGERS_DROPPED) to 9005.2 (PAGES_LOST_UE). -/
def dict10 : List ObjRow := [
  ⟨0x8005, 5, 5, 1, [8], 4, 0, 0, none⟩,
  ⟨0x9000, 1, 11, 1024, [64], 0, 0, 0, none⟩,
  ⟨0x9000, 2, 4, 1, [4], 0, 0, 0, none⟩,
  ⟨0x9000, 3, 4, 1, [4], 0, 0, 0, none⟩,
  ⟨0x9000, 4, 5, 1, [8], 4, 0, 0, none⟩,
  ⟨0x9000, 5, 11, 64, [8], 4, 0, 0, none⟩,
  ⟨0x9001, 1, 11, 16, [64], 0, 0, 0, none⟩,
  ⟨0x9001, 2, 1, 1, [1], 3, 0, 0, some 1⟩,
  ⟨0x9002, 1, 11, 4, [8], 4, 0, 0, none⟩,
  ⟨0x9002, 2, 11, 5, [8], 4, 0, 0, none⟩,
  ⟨0x9002, 3, 11, 4, [8], 4, 0, 0, none⟩,
  ⟨0x9003, 1, 2, 1, [1], 1, 3, 1, some 255⟩,
  ⟨0x9003, 2, 2, 1, [1], 3, 0, 0, some 3⟩,
  ⟨0x9003, 3, 11, 4, [8], 4, 0, 0, none⟩,
  ⟨0x9004, 1, 3, 1, [2], 1, 16, 1, some 65535⟩,
  ⟨0x9004, 2, 11, 4096, [1, 4], 0, 0, 0, none⟩,
  ⟨0x9004, 3, 11, 4, [4], 0, 0, 0, none⟩,
  ⟨0x9004, 4, 11, 4, [4], 0, 0, 0, none⟩,
  ⟨0x9005, 1, 5, 1, [8], 4, 0, 0, none⟩,
  ⟨0x9005, 2, 5, 1, [8], 4, 0, 0, none⟩]

/-- Objects 9005.3 (PAGES_RELANDED) to A006.1 (BOOT_FALLBACKS). -/
def dict11 : List ObjRow := [
  ⟨0x9005, 3, 5, 1, [8], 4, 0, 0, none⟩,
  ⟨0xA000, 1, 11, 5, [4, 4, 1], 0, 0, 0, none⟩,
  ⟨0xA000, 2, 11, 4, [64], 0, 0, 0, none⟩,
  ⟨0xA001, 1, 11, 5, [1, 4, 4], 0, 0, 0, none⟩,
  ⟨0xA001, 2, 11, 5, [2], 0, 0, 0, none⟩,
  ⟨0xA002, 1, 2, 1, [1], 3, 0, 0, some 4⟩,
  ⟨0xA002, 2, 2, 1, [1], 3, 0, 0, some 4⟩,
  ⟨0xA002, 3, 1, 1, [1], 3, 0, 0, some 1⟩,
  ⟨0xA002, 4, 3, 1, [2], 0, 0, 0, none⟩,
  ⟨0xA003, 1, 11, 1, [1, 1, 1, 1], 0, 0, 0, none⟩,
  ⟨0xA003, 2, 11, 5, [4], 0, 0, 0, none⟩,
  ⟨0xA004, 1, 9, 1, [64], 1, 0, 0, none⟩,
  ⟨0xA005, 1, 4, 1, [4], 1, 100000, 1000, some 10000000⟩,
  ⟨0xA006, 1, 5, 1, [8], 4, 0, 0, none⟩]

/-- Every object, in ascending index and subindex (14 R412). -/
def dictionary : List ObjRow :=
  dict00 ++ dict01 ++ dict02 ++ dict03 ++ dict04 ++ dict05 ++ dict06 ++ dict07 ++ dict08 ++ dict09 ++ dict10 ++ dict11

/-- The row of an object, if it exists. -/
def objRow (ix sub : Nat) : Option ObjRow := dictionary.find? fun r => r.ix == ix && r.sub == sub

/-- Key of one element of an object: row of the TABLE and column. -/
def okey (ix sub row col : Nat) : Nat := ((ix * 256 + sub) * 65536 + row) * 16 + col

/-- Default of an object's elements. -/
def objDefault (ix sub : Nat) : Nat := ((objRow ix sub).map (·.dflt)).getD 0

/-- Stored value of an element. -/
def State.obj (s : State) (ix sub : Nat) (row col : Nat := 0) : Nat :=
  tblGet (objDefault ix sub) s.mg.objs (okey ix sub row col)

/-- A stored element is set; a default leaves the table. -/
def State.setObj (s : State) (ix sub row col v : Nat) : State :=
  { s with mg := { s.mg with objs := tblPut (objDefault ix sub) s.mg.objs (okey ix sub row col) v } }

/-- Bytes of a column. -/
def colBytes (ix sub col : Nat) : Nat := ((objRow ix sub).map fun r => r.cols.getD col 8).getD 8

/-- A counter object counts `n` more events, modulo its width. -/
def State.count (s : State) (ix sub : Nat) (row : Nat := 0) (n : Nat := 1) : State :=
  s.setObj ix sub row 0 ((s.obj ix sub row + n) % 2 ^ (8 * colBytes ix sub 0))

end Sys2Proof.Machine
end

