-- ==== Sys2Proof/Machine/Status.lean ====
section
/-! DEFINITION. Status codes (00_scope.md R13, R16 and the chapters' tables). -/

namespace Sys2Proof.Machine

/-- ST_OK, class S (00). -/
def stOk : Nat := 0x0000
/-- ST_BUSY, class F (00). -/
def stBusy : Nat := 0x0001
/-- ST_TIMEOUT, class F (00). -/
def stTimeout : Nat := 0x0002
/-- ST_KEY, class F (00). -/
def stKey : Nat := 0x0003
/-- ST_MOVED, class F (00). -/
def stMoved : Nat := 0x0004
/-- ST_LOST, class F (00). -/
def stLost : Nat := 0x0005
/-- ST_FORMAT_PAIR, class F (00). -/
def stFormatPair : Nat := 0x0006
/-- ST_DEAD_END, class I (00). -/
def stDeadEnd : Nat := 0x0007
/-- ST_DUP, class I (00). -/
def stDup : Nat := 0x0008
/-- ST_EXPIRED, class F (00). -/
def stExpired : Nat := 0x0009
/-- ST_STALE_STEP, class I or F (00). -/
def stStaleStep : Nat := 0x000A
/-- ST_NO_FRAME, class F (00). -/
def stNoFrame : Nat := 0x000B
/-- ST_VERSION, class F (00). -/
def stVersion : Nat := 0x000C
/-- ST_UNTESTED, class F (00). -/
def stUntested : Nat := 0x000D
/-- ST_FENCED, class F (00). -/
def stFenced : Nat := 0x000E
/-- ST_FORMAT_FIELD, class F (02). -/
def stFormatField : Nat := 0x0100
/-- ST_SPARSE_META, class I (02). -/
def stSparseMeta : Nat := 0x0101
/-- ST_RESULT_CHECK, class F (02). -/
def stResultCheck : Nat := 0x0102
/-- ST_DESC_FIELD, class F (03). -/
def stDescField : Nat := 0x0103
/-- ST_CORESET, class F (03). -/
def stCoreset : Nat := 0x0104
/-- ST_INSTR, class F (03). -/
def stInstr : Nat := 0x0105
/-- ST_ADDR_FAULT, class F (03). -/
def stAddrFault : Nat := 0x0106
/-- ST_COURSE_SKEW, class F (03). -/
def stCourseSkew : Nat := 0x0107
/-- ST_WAIT_BOUND, class F (03). -/
def stWaitBound : Nat := 0x0108
/-- ST_WCET_OVERRUN, class F (03). -/
def stWcetOverrun : Nat := 0x0109
/-- ST_LIEN_LIMIT, class F (03). -/
def stLienLimit : Nat := 0x010A
/-- ST_COUNTER_BOUND, class F (03). -/
def stCounterBound : Nat := 0x010B
/-- ST_APPEND_SLOT, class F (03). -/
def stAppendSlot : Nat := 0x010C
/-- ST_SEQ_FIELD, class F (04). -/
def stSeqField : Nat := 0x0200
/-- ST_SEQ_STALE, class F (04). -/
def stSeqStale : Nat := 0x0201
/-- ST_NOT_RESIDENT, class F (04). -/
def stNotResident : Nat := 0x0202
/-- ST_LATENT_PK3, class F (04). -/
def stLatentPk3 : Nat := 0x0203
/-- ST_APPEND_FORMAT, class F (04). -/
def stAppendFormat : Nat := 0x0204
/-- ST_WINDOW, class F (04). -/
def stWindow : Nat := 0x0205
/-- ST_STREAM_STALL, class F (04). -/
def stStreamStall : Nat := 0x0206
/-- ST_RING_BROKEN, class F (04). -/
def stRingBroken : Nat := 0x0207
/-- ST_NO_SESSION, class F (05). -/
def stNoSession : Nat := 0x0300
/-- ST_SESSION_STATE, class F (05). -/
def stSessionState : Nat := 0x0301
/-- ST_BINDING, class F (05). -/
def stBinding : Nat := 0x0302
/-- ST_LG_RANGE, class F (05). -/
def stLgRange : Nat := 0x0303
/-- ST_ADAPTER, class F (05). -/
def stAdapter : Nat := 0x0304
/-- ST_ADAPTER_BUSY, class F (05). -/
def stAdapterBusy : Nat := 0x0305
/-- ST_APPEND_OVERLAP, class F (05). -/
def stAppendOverlap : Nat := 0x0306
/-- ST_HANDLE_RANGE, class F (05). -/
def stHandleRange : Nat := 0x0307
/-- ST_AWAKE_LIMIT, class F (05). -/
def stAwakeLimit : Nat := 0x0308
/-- ST_TRUNCATE, class F (05). -/
def stTruncate : Nat := 0x0309
/-- ST_PIN_LIMIT, class F (05). -/
def stPinLimit : Nat := 0x030A
/-- ST_PARK_FIELD, class F (06). -/
def stParkField : Nat := 0x0310
/-- ST_LEASE, class F (06). -/
def stLease : Nat := 0x0311
/-- ST_LEASE_FULL, class F (06). -/
def stLeaseFull : Nat := 0x0312
/-- ST_MIGRATE_REFUSED, class F (06). -/
def stMigrateRefused : Nat := 0x0313
/-- ST_EPOCH_WAIT, class F (07). -/
def stEpochWait : Nat := 0x0400
/-- ST_LINE_FORMAT, class F (07). -/
def stLineFormat : Nat := 0x0401
/-- ST_REGION_PERM, class F (07). -/
def stRegionPerm : Nat := 0x0402
/-- ST_NO_ROUTE, class F (07). -/
def stNoRoute : Nat := 0x0403
/-- ST_REGION_BUSY, class F (07). -/
def stRegionBusy : Nat := 0x0404
/-- ST_REGION_FIELD, class F (07). -/
def stRegionField : Nat := 0x0405
/-- ST_MAP, class F (07). -/
def stMap : Nat := 0x0406
/-- ST_BULK_FORMAT, class F (08). -/
def stBulkFormat : Nat := 0x0407
/-- ST_VOCAB_IMAGE, class F (09). -/
def stVocabImage : Nat := 0x0500
/-- ST_GRAMMAR_IMAGE, class F (09). -/
def stGrammarImage : Nat := 0x0501
/-- ST_TEXT_SPACE, class F (09). -/
def stTextSpace : Nat := 0x0502
/-- ST_TEXT_IN_USE, class F (09). -/
def stTextInUse : Nat := 0x0503
/-- ST_STREAM, class F (09). -/
def stStream : Nat := 0x0504
/-- ST_TEXT_FIELD, class F (09). -/
def stTextField : Nat := 0x0505
/-- ST_TOKEN_REJECTED, class I (09). -/
def stTokenRejected : Nat := 0x0506
/-- ST_JOB_CLASS, class F (10). -/
def stJobClass : Nat := 0x0600
/-- ST_JOB_CONFLICT, class F (10). -/
def stJobConflict : Nat := 0x0601
/-- ST_TIMING, class F (10). -/
def stTiming : Nat := 0x0602
/-- ST_QUAD_GRANT, class F (10). -/
def stQuadGrant : Nat := 0x0603
/-- ST_HBM_SHARE, class F (10). -/
def stHbmShare : Nat := 0x0604
/-- ST_KEYSTONE_QUOTA, class F (10). -/
def stKeystoneQuota : Nat := 0x0605
/-- ST_PP_GAP, class F (10). -/
def stPpGap : Nat := 0x0606
/-- ST_DEADLINE, class F (10). -/
def stDeadline : Nat := 0x0607
/-- ST_PERIOD_LAPSE, class I (10). -/
def stPeriodLapse : Nat := 0x0608
/-- ST_COMMAND, class F (11). -/
def stCommand : Nat := 0x0609
/-- ST_QUEUE, class F (11). -/
def stQueue : Nat := 0x060A
/-- ST_HOST_WINDOW, class F (11). -/
def stHostWindow : Nat := 0x060B
/-- ST_JOB_ABORTED, class F (10). -/
def stJobAborted : Nat := 0x060C
/-- ST_ATTEST, class F (12). -/
def stAttest : Nat := 0x0700
/-- ST_JOIN, class F (12). -/
def stJoin : Nat := 0x0701
/-- ST_SEALED_CONFIG, class F (12). -/
def stSealedConfig : Nat := 0x0702
/-- ST_CKPT_MANIFEST, class F (13). -/
def stCkptManifest : Nat := 0x0800
/-- ST_CKPT_SPACE, class F (13). -/
def stCkptSpace : Nat := 0x0801
/-- ST_CKPT_BUSY, class F (13). -/
def stCkptBusy : Nat := 0x0802
/-- ST_CKPT_HOLD, class F (13). -/
def stCkptHold : Nat := 0x0803
/-- ST_CKPT_INCOMPLETE, class F (13). -/
def stCkptIncomplete : Nat := 0x0804
/-- ST_CKPT_ABORTED, class F (13). -/
def stCkptAborted : Nat := 0x0805
/-- ST_MGMT_FORMAT, class F (14). -/
def stMgmtFormat : Nat := 0x0900
/-- ST_MGMT_EPOCH, class F (14). -/
def stMgmtEpoch : Nat := 0x0901
/-- ST_MGMT_SEQ, class F (14). -/
def stMgmtSeq : Nat := 0x0902
/-- ST_MGMT_RIGHT, class F (14). -/
def stMgmtRight : Nat := 0x0903
/-- ST_MGMT_NO_OBJECT, class F (14). -/
def stMgmtNoObject : Nat := 0x0904
/-- ST_MGMT_TYPE, class F (14). -/
def stMgmtType : Nat := 0x0905
/-- ST_MGMT_ACCESS, class F (14). -/
def stMgmtAccess : Nat := 0x0906
/-- ST_MGMT_RANGE, class F (14). -/
def stMgmtRange : Nat := 0x0907
/-- ST_MGMT_STATE, class F (14). -/
def stMgmtState : Nat := 0x0908
/-- ST_IMAGE, class F (14). -/
def stImage : Nat := 0x0909
/-- ST_IMAGE_BUSY, class F (14). -/
def stImageBusy : Nat := 0x090A
/-- ST_RESET, class F (15). -/
def stReset : Nat := 0x0910
/-- ST_POWER_CAP, class F (15). -/
def stPowerCap : Nat := 0x0911
/-- ST_HBM_UE, class F (16). -/
def stHbmUe : Nat := 0x0920
/-- ST_SRAM_UE, class F (16). -/
def stSramUe : Nat := 0x0921

/-- Status codes of class S or I; every other code is class F (R14, R16). -/
def isClassF (st : Nat) : Bool := !decide (st ∈ [stOk, stDeadEnd, stDup, stStaleStep, stSparseMeta, stTokenRejected, stPeriodLapse])

end Sys2Proof.Machine
end

