-- ==== Sys2Proof/Machine/Ops.lean ====
section
/-! DEFINITION. Operations every chapter shares: group updates, time, free values, context memory, completion
rings (11), error records, service degraded and the fatal sequence (16, 12 R360). -/

namespace Sys2Proof.Machine

/-! ### Group updates -/

def State.modDev (s : State) (f : Dev → Dev) : State := { s with dev := f s.dev }
def State.modErr (s : State) (f : Errs → Errs) : State := { s with err := f s.err }
def State.modRun (s : State) (f : Run → Run) : State := { s with run := f s.run }
def State.modSes (s : State) (f : Ses → Ses) : State := { s with ses := f s.ses }
def State.modTxt (s : State) (f : Txt → Txt) : State := { s with txt := f s.txt }
def State.modFab (s : State) (f : Fab → Fab) : State := { s with fab := f s.fab }
def State.modBulk (s : State) (f : Bulk → Bulk) : State := { s with bulk := f s.bulk }
def State.modSec (s : State) (f : Sec → Sec) : State := { s with sec := f s.sec }
def State.modSite (s : State) (f : Site → Site) : State := { s with site := f s.site }
def State.modCks (s : State) (f : Cks → Cks) : State := { s with cks := f s.cks }
def State.modMg (s : State) (f : Mgs → Mgs) : State := { s with mg := f s.mg }
/-- Something leaves the device. -/
def State.emit (s : State) (o : Output) : State := { s with out := o :: s.out }
/-- A number for a free value (DESIGN CHOICE, log entry 3). -/
def State.take1 (s : State) : Nat × State := (s.freeCtr, { s with freeCtr := s.freeCtr + 1 })

/-! ### Time and states -/

/-- The timestamp counter (15 R421). -/
def State.tick (s : State) : Nat := s.dev.nclk / 4 % 2 ^ 64
/-- Cycles of ACLK since root lock (15 R419). -/
def State.aclk (s : State) : Nat := s.dev.nclk / 2
/-- Tick `t` began in an earlier cycle of NCLK: an arrival in the cycle of an expiry comes before it (11 R332). -/
def State.past (s : State) (t : Nat) : Bool := decide (4 * t < s.dev.nclk)
/-- Cycle `c` of ACLK began in an earlier cycle of NCLK. -/
def State.pastA (s : State) (c : Nat) : Bool := decide (2 * c < s.dev.nclk)
/-- Ticks of TCLK in a microsecond and in a millisecond (15 R419). -/
def ticksPerUs : Nat := 625
def ticksPerMs : Nat := 625000
/-- Clocks run and no FATAL error stopped the device (16 R453). -/
def State.live (s : State) : Bool := s.dev.locked && !s.dev.siteFatal
/-- The Octica ports carry line and bulk packets: not in STARTING, where they are only brought up (14 R401). -/
def State.answering (s : State) : Bool := s.live && s.dev.mgmt != 0
/-- STOPPED or SERVICE: line and bulk requests are answered ST_BUSY (14 R401). -/
def State.resting (s : State) : Bool := s.dev.mgmt == 1 || s.dev.mgmt == 3
/-- MGMT_STATE is OPERATIONAL (14 R401). -/
def State.oper (s : State) : Bool := s.live && s.dev.mgmt == 2
/-- The context exists (10 R285). -/
def State.ctxOn (s : State) (c : Nat) : Bool := s.obj 0x5000 1 c == 1
/-- Enabled contexts, ascending. -/
def State.ctxs (s : State) : List Nat := (List.range 256).filter s.ctxOn
/-- The plinth units are in phase 3 of a plinth-partial reset (15 R424). -/
def State.plinthDown (s : State) : Bool := match s.dev.plinth with | .reset _ _ => true | _ => false
/-- The device quiesces or is in a later phase of a plinth-partial reset. -/
def State.quiescing (s : State) : Bool := s.dev.plinth != PlinthPh.none

/-! ### The SEALED wheel (12 R361) -/

/-- Profile in force (15 R432). -/
def State.profile (s : State) : Nat := if s.dev.fencedForce then 4 else s.obj 0x2101 1

/-- Owner of the slot of the wheel, 100 cycles of NCLK long, in which cycle `t` falls; a turn of the wheel starts at cycle 0 (DESIGN
CHOICE, log entry 66). -/
def State.slotAt (s : State) (t : Nat) : Nat := s.obj 0x7006 2 (t / 100 % max 1 (s.obj 0x7006 1))
/-- Units serve context `c` now: in SEALED only in its slots. -/
def State.slotOk (s : State) (c : Nat) : Bool := s.profile != 2 || s.slotAt s.dev.nclk == c
/-- The cycle of NCLK in which `n` cycles of work of context `c` that begin in cycle `t` end, over at most `fuel` slots. -/
def State.sealedEnd (s : State) (c : Nat) : Nat → Nat → Nat → Nat
  | 0, t, n => t + n
  | fuel + 1, t, n =>
    let e := (t / 100 + 1) * 100
    if n = 0 then t
    else if s.slotAt t ≠ c then s.sealedEnd c fuel e n
    else if n ≤ e - t then t + n
    else s.sealedEnd c fuel e (n - (e - t))
/-- The cycle of NCLK in which `n` cycles of work of context `c` end that begin now: in SEALED the work stands still outside its slots. -/
def State.workEnd (s : State) (c n : Nat) : Nat :=
  if s.profile != 2 then s.dev.nclk + n else s.sealedEnd c (256 * (n / 100 + 2)) s.dev.nclk n

/-! ### Context memory (03 R76) -/

/-- Key of a context address. -/
def ckey (ctx addr : Nat) : Nat := ctx * 2 ^ 48 + addr % 2 ^ 48
def State.cread (s : State) (ctx addr n : Nat) : List Byte := memRead s.ses.cmem (ckey ctx addr) n
/-- Frames of a die's range, and those of them outside its device area (01 R25, R26). -/
def framesPerDie : Nat := 50331648
def framesUsable : Nat := framesPerDie - 524288
/-- HBM frame behind a frame of context memory: any frame of the 768 GiB outside the device areas (01 R25, R26). -/
def ctxFrame (key : Nat) : Nat :=
  let f := Config.ctxFrame key % (4 * framesUsable)
  f / framesUsable * framesPerDie + f % framesUsable
/-- HBM line behind a byte of context memory. -/
def ctxLine (key : Nat) : Nat := ctxFrame (key / 4096) * 64 + key % 4096 / 64
/-- Lines that a write of `n` bytes at `a` replaces whole, and lines that it or a read touches; `f` names the line of a byte. -/
def wholeLines (f : Nat → Nat) (a n : Nat) : List Nat :=
  (List.range (n / 64 + 1)).filterMap fun i =>
    let b := (a + 63) / 64 * 64 + 64 * i
    if b + 64 ≤ a + n then some (f b) else none
def touchedLines (f : Nat → Nat) (a n : Nat) : List Nat :=
  if n = 0 then [] else (List.range ((a % 64 + n - 1) / 64 + 1)).map fun i => f (a / 64 * 64 + 64 * i)
/-- A full write of a line replaces its poison (16 R444), and what failed in it unread (DESIGN CHOICE, log entry 68). -/
def State.cleanLines (s : State) (f : Nat → Nat) (a n : Nat) : State :=
  if s.err.poison.isEmpty && s.err.failed.isEmpty then s
  else s.modErr fun g => { g with poison := (wholeLines f a n).foldl tblDel g.poison, failed := (wholeLines f a n).foldl tblDel g.failed }
/-- A read of line `l` finds an uncorrectable error: it is poisoned, or it has failed (16 R475). -/
def State.lineFails (s : State) (l : Nat) : Bool := (tblFind s.err.poison l).isSome || (tblFind s.err.failed l).isSome
/-- First line with an uncorrectable error that a read of `n` bytes at `a` meets. -/
def State.badLine (s : State) (f : Nat → Nat) (a n : Nat) : Option Nat :=
  if s.err.poison.isEmpty && s.err.failed.isEmpty then none else (touchedLines f a n).find? s.lineFails
def State.cwrite (s : State) (ctx addr : Nat) (bs : List Byte) : State :=
  (s.modSes fun g => { g with cmem := memWrite g.cmem (ckey ctx addr) bs }).cleanLines ctxLine (ckey ctx addr) bs.length
/-- First poisoned line of a range of context memory (16 R444). -/
def State.cbad (s : State) (ctx addr n : Nat) : Option Nat := s.badLine ctxLine (ckey ctx addr) n
/-- One little-endian number of `n` bytes from context memory. -/
def State.cnum (s : State) (ctx addr n : Nat) : Nat := leNat (s.cread ctx addr n)
/-- Frames of context memory that [addr, addr+n) touches, as keys. -/
def cframes (ctx addr n : Nat) : List Nat :=
  if n = 0 then [] else (List.range ((addr % 4096 + n - 1) / 4096 + 1)).map fun i => ckey ctx addr / 4096 + i
/-- Frames of the range that the context's cut has not yet copied (13 R375, R376). -/
def State.uncopied (s : State) (ctx addr n : Nat) : List Nat :=
  match tblFind s.cks.tbl ctx with
  | some k => (cframes ctx addr n).filter fun f => decide (f ∈ k.uncopied)
  | none => []

/-- A write finds uncopied frames: they are noted, and the writes held are counted (13 R376, object 0x8005.3). `who` names the unit
whose write it is where the write is tried again while it is held: it counts once. -/
def State.cbwHold (s : State) (fs : List Nat) (who : Option Nat := none) : State :=
  let again := who.any fun w => fs.any fun f => decide (w ∈ tblGet [] s.cks.held f)
  (s.modCks fun g => { g with held := fs.foldl (fun t f => tblIns t f (who.toList ++ (tblGet [] t f).filter (some · != who))) g.held }).count
    0x8005 3 0 (b2n !again)

/-! ### Host windows and completion rings (11) -/

/-- [addr, addr+n) lies inside a window of queue pair `q` (11 R318, R5). -/
def State.hostOk (s : State) (q addr n : Nat) : Bool :=
  tblAny s.site.wins fun _ w => w.valid && w.qp == q && within addr n w.base (w.len * 4096)

/-- Queue pair `q` (unlisted pairs do not exist). -/
def State.qp (s : State) (q : Nat) : Qp := s.site.qps.getD q qpReset
def State.setQp (s : State) (q : Nat) (p : Qp) : State := s.modSite fun g => { g with qps := g.qps.set q p }
/-- Context of queue pair q (object 0x5001). -/
def State.qctx (s : State) (q : Nat) : Nat := s.obj 0x5001 1 q

/-- Entries a completion ring holds. -/
def Qp.cap (p : Qp) : Nat := 2 ^ p.cqLog2
/-- Slots taken: ring, spill and reserved ones. -/
def Qp.occ (p : Qp) : Nat := p.cqCount + p.spill.length + p.resv + p.resvKs

/-- Slots that entries taken from the KEYSTONE ring hold, of the 16 spill entries kept for them. -/
def Qp.ksHeld (p : Qp) : Nat := min 16 (p.resvKs + (p.spill.filter fun e => e.sqId == 64).length)

/-- A completion slot is free for an ordinary entry or an event, or for a KEYSTONE entry (11 R324). -/
def Qp.room (p : Qp) (ks : Bool) : Bool :=
  p.enabled && decide (if ks then p.occ < p.cap + 256 else p.occ < p.cap + 240 + p.ksHeld)

/-- Header of a completion entry (11 R327). -/
def entryHeader (e : CqEntry) (phase : Bool) : Nat :=
  b2n phase + e.event % 2 ^ 16 * 2 ^ 48 + e.kind % 2 ^ 8 * 2 ^ 72 + e.status % 2 ^ 16 * 2 ^ 80 + e.ctx % 2 ^ 8 * 2 ^ 96
    + e.sqId % 2 ^ 8 * 2 ^ 104 + e.sqHead % 2 ^ 16 * 2 ^ 112 + e.time % 2 ^ 64 * 2 ^ 128 + e.tag.toNat * 2 ^ 192

/-- The device issues a DWR with the next SEQ of its direction (11 R316). -/
def State.dwr (s : State) (addr : Nat) (data : List Byte) : State :=
  (s.emit (.dwr s.site.devSeq addr data)).modSite fun g => { g with devSeq := (g.devSeq + 1) % 4096 }

/-- Entry `e` is written to the next slot of ring `q`: body, then header (11 R327), and the latch set (R330). -/
def State.writeEntry (s : State) (q : Nat) (e : CqEntry) : State :=
  let p := s.qp q
  let off := 128 * p.cqTail
  let hdr := leBytes 32 (entryHeader e p.phase)
  let body := leBytes 96 e.body
  let s1 :=
    if p.cqInSite then
      let a := 0x600000 + 0x10000 * q + off
      s.modSite fun g => { g with cqMem := memWrite (memWrite g.cqMem (a + 32) body) a hdr }
    else if s.hostOk q p.cqBase.toNat (128 * p.cap) then
      (s.dwr (p.cqBase.toNat + off + 32) body).dwr (p.cqBase.toNat + off) hdr
    else s
  let tl := (p.cqTail + 1) % p.cap
  s1.setQp q { p with cqTail := tl, phase := if tl = 0 then !p.phase else p.phase, cqCount := p.cqCount + 1,
                      latch := some s.dev.nclk }

/-- The oldest entries of a spill go to the ring slots that are free; at most `n` of them (11 R324). -/
def State.unspill (s : State) (q : Nat) : Nat → State
  | 0 => s
  | n + 1 =>
    let p := s.qp q
    match p.spill with
    | [] => s
    | e :: es => if p.cqCount < p.cap then ((s.setQp q { p with spill := es }).writeEntry q e).unspill q n else s

/-- A formed entry goes to ring `q`, behind those that wait in the spill: written when a ring slot is free, else into the spill. -/
def State.place (s : State) (q : Nat) (e : CqEntry) : State :=
  let t := s.unspill q (s.qp q).spill.length
  let p := t.qp q
  if p.spill.isEmpty && decide (p.cqCount < p.cap) then t.writeEntry q e
  else t.setQp q { p with spill := p.spill ++ [e] }

/-- An event no entry reserved (11 R324): lost, with OVERFLOW and EVENTS_LOST, when no slot is free. -/
def State.event (s : State) (q : Nat) (e : CqEntry) : State :=
  if s.dev.siteFatal then s
  else if (s.qp q).room false then s.place q e
  else (s.setQp q { s.qp q with overflow := true }).count 0x9000 5 q

/-- The completion of an entry taken from ring `sq` (64: KEYSTONE), whose slot in ring `q` was reserved. -/
def State.settle (s : State) (sq q : Nat) (e : CqEntry) : State :=
  if s.dev.siteFatal then s
  else if !(s.qp q).enabled then s.count 0x9000 5 q
  else
    let p := s.qp q
    let s1 := s.setQp q (if sq = 64 then { p with resvKs := p.resvKs - 1 } else { p with resv := p.resv - 1 })
    let s2 := if sq < 64 then s1.setQp sq { s1.qp sq with work := (s1.qp sq).work - 1 } else s1
    s2.place q e

/-- SQ_HEAD of ring `sq` now. -/
def State.sqHeadOf (s : State) (sq : Nat) : Nat := if sq = 64 then s.site.ks.sqHead else (s.qp sq).sqHead

/-- COMMAND entry of a command (11 R328); `head` is SQ_HEAD after the device took it (R327). -/
def State.cmdDone (s : State) (sq cq ctx head : Nat) (tag : W64) (cmd status result : Nat) : State :=
  s.settle sq cq { kind := 3, event := 0, status := status, ctx := ctx, sqId := sq, sqHead := head,
                   time := s.tick, tag := tag, body := result % 2 ^ 64 + cmd * 2 ^ 64 }

/-- Body of a text entry (09 R276). -/
def textBody (text : List Byte) (kind aux : Nat) (inv more : Bool) (stream eseq count token : Nat) : Nat :=
  token % 2 ^ 18 * 2 ^ 14 + count % 2 ^ 32 * 2 ^ 32 + eseq % 2 ^ 32 * 2 ^ 64 + stream % 2 ^ 14 * 2 ^ 96 + b2n more * 2 ^ 110
    + b2n inv * 2 ^ 111 + aux % 16 * 2 ^ 112 + kind % 16 * 2 ^ 116 + text.length % 256 * 2 ^ 120 + leNat text * 2 ^ 128

/-- TOKENIZED entry of a TOKENIZE (11 R323; 09 R276), counted among the entries of its stream where the context has that stream; of
no stream it is entry 0 (DESIGN CHOICE, log entry 44). -/
def State.tokenized (s : State) (sq cq ctx head : Nat) (tag : W64) (stream status count : Nat) (inv : Bool) : State :=
  let own := (tblFind s.txt.streams stream).filter fun t => t.ctx == ctx
  let es := match own with | some t => t.eseq + 1 | none => 0
  let s1 := match own with | some t => s.modTxt fun g => { g with streams := tblIns g.streams stream { t with eseq := es } } | none => s
  s1.settle sq cq { kind := 5, event := 0, status := status, ctx := ctx, sqId := sq, sqHead := head, time := s.tick, tag := tag,
                    body := textBody [] 6 ((own.map (·.carry.length)).getD 0) inv false stream es count 0 }

/-- An OTHER event (11 R328). -/
def State.otherEvent (s : State) (q ctx code status id value : Nat) : State :=
  s.event q { kind := 6, event := code, status := status, ctx := ctx, sqId := 0xFF, sqHead := s.site.lastHead,
              time := s.tick, tag := 0, body := id % 2 ^ 16 + value % 2 ^ 16 * 2 ^ 32 }

/-! ### Service degraded (12 R360) -/

/-- The lowest-numbered enabled queue pair of a context. -/
def State.firstPair (s : State) (c : Nat) : Option Nat :=
  (List.range 64).find? fun q => (s.qp q).enabled && s.qctx q == c

/-- SERVICE_DEGRADED to every enabled context. -/
def State.tellDegraded (s : State) (value : Nat) : State :=
  s.ctxs.foldl (fun t c => match t.firstPair c with
    | some q => t.otherEvent q c 0x0020 stOk 0 value
    | none => t) s

/-- Service degraded is raised, or renewed for 1 ms. -/
def State.degrade (s : State) : State :=
  let t := if s.err.degraded.isSome then s else s.tellDegraded 1
  t.modErr fun g => { g with degraded := some (s.tick + ticksPerMs) }

/-! ### Error records (16 R439-R443) -/

/-- What a check reports; the log fills in time, sequence number, boot epoch and count. -/
structure ErrIn where
  sev    : Nat
  code   : Nat
  source : Nat
  unit   : Nat
  status : Nat := 0
  ctx    : Nat := 0xFF
  handle : Option Nat := none
  addr   : Nat := 0
  detail : Nat := 0
  shared : Bool := false
  deriving DecidableEq, Repr

/-- ADDR, UNIT and the rest of a record made from what a check reports. -/
def ErrIn.toRec (e : ErrIn) (t seq boot : Nat) : ErrRec :=
  { time := t, addr := e.addr, detail := e.detail, seq := seq, bootEpoch := boot, code := e.code, status := e.status,
    unit := e.unit, source := e.source, ctx := e.ctx, count := 1, handle := e.handle, severity := e.sev, degraded := e.shared }

/-- The newest CORRECTED record of a log, counted up when it coalesces with `e`. -/
def coalesce (t : Nat) (e : ErrIn) : List ErrRec → Option (List ErrRec)
  | [] => none
  | r :: rs =>
    if r.severity = 0 then
      if r.source = e.source ∧ r.unit = e.unit ∧ r.code = e.code ∧ t ≤ r.time + ticksPerMs then
        some ({ r with count := min (r.count + 1) 65535 } :: rs)
      else none
    else (coalesce t e rs).map (r :: ·)

/-- An error is recorded (R440, R442) and, when it lies in a shared unit, service degraded raised (12 R360). -/
def State.record (s : State) (e : ErrIn) : State :=
  let s1 := s.count 0x9002 1 e.sev
  let s2 :=
    match (if e.sev = 0 then coalesce s1.tick e s1.err.log else none) with
    | some l => s1.modErr fun g => { g with log := l }
    | none =>
      let r := e.toRec s1.tick s1.err.next s1.dev.bootEpoch
      let full := decide (1024 ≤ s1.err.log.length)
      let s' := s1.modErr fun g =>
        { g with log := (r :: g.log).take 1024, next := (g.next + 1) % 2 ^ 32,
                 fatal := if e.sev = 3 then (r :: g.fatal).take 16 else g.fatal,
                 trigCe := if e.sev = 0 then s1.tick :: g.trigCe.filter (fun t => decide (s1.tick < t + 62500000)) else g.trigCe }
      if full then s'.count 0x9000 4 else s'
  if e.shared then s2.degrade else s2

/-- The host-site link is down with the host die (15 R418). -/
def State.linkOff (s : State) : State := s.modSite fun g => { g with
  linkUp := false, bringing := false, retryAt := none, modules := List.replicate 4 ⟨0, 0, false⟩ }

/-- Every rail off (15 R417). -/
def State.powerDown (s : State) : State :=
  (s.modDev fun d => { d with power := .down, locked := false, rails := List.replicate 20 0, hostRail := 0 }).linkOff

/-- A FATAL error (16 R452, R453; 11 R331): record, SITE_FATAL, FAULT; nothing else completes. -/
def State.fatal (s : State) (code source unit addr : Nat) : State :=
  if s.dev.siteFatal then s.record { sev := 3, code := code, source := source, unit := unit, addr := addr }
  else (s.record { sev := 3, code := code, source := source, unit := unit, addr := addr }).modDev fun d =>
    { d with siteFatal := true, mgmt := 4 }

/-- DEV_RDY (11 R330). -/
def State.devRdy (s : State) : Bool :=
  (s.site.ks.latch.isSome || s.site.qps.any (·.latch.isSome)) && !s.dev.siteFatal && !s.site.resetting

/-- A partial reset of RESET_DOMAIN code `c` has ended (12 R347). -/
def State.domEnd (s : State) (c : Nat) : State := s.modDev fun d => { d with resetOrder := d.resetOrder.filter (· != c) }

/-! ### Sums and lists used throughout -/

/-- Elements `n` to `n + k − 1`. -/
def span (n k : Nat) : List Nat := (List.range k).map (n + ·)

/-- `f` applied once for each element, threading the state. -/
def State.each {α : Type} (s : State) (l : List α) (f : State → α → State) : State := l.foldl f s

/-- The first failure of a list of checks, with its status. -/
def firstBad : List (Bool × Nat) → Option Nat
  | [] => none
  | (ok, st) :: l => if ok then firstBad l else some st

/-- Set bits of a mask of `w` bits, ascending. -/
def maskBits (m w : Nat) : List Nat := (List.range w).filter (bit m)

end Sys2Proof.Machine
end

