-- ==== Sys2Proof/Machine/Entry.lean ====
section
/-! DEFINITION. Reading the manual's encodings: instruction words (03 R74, R75), step descriptors (03 R96) and
command entries with their embedded records (11 R322, R323; 05 R131, R155; 06 R165; 07 R214). Reserved bits
are not read (00 R11). -/

namespace Sys2Proof.Machine

/-- Field [hi:lo] of a number, as a bit vector of `w` bits. -/
def fld (w v lo : Nat) : BitVec w := BitVec.ofNat w (v / 2 ^ lo)

def decC (v : Nat) : FmtC := ⟨fld 4 v 116, fld 4 v 112, fld 3 v 109, fld 32 v 64, fld 64 v 0⟩
def decE (v : Nat) : FmtE :=
  ⟨fld 8 v 112, fld 4 v 108, fld 4 v 104, fld 4 v 100, fld 2 v 98, bit v 97, bit v 96, fld 16 v 80, fld 4 v 76, fld 4 v 72,
   fld 4 v 68, fld 21 v 43, fld 21 v 22, fld 21 v 1⟩
def decV (v : Nat) : FmtV :=
  ⟨fld 6 v 114, fld 4 v 110, fld 4 v 106, fld 4 v 102, fld 21 v 81, fld 21 v 60, fld 21 v 39, fld 16 v 23⟩
def decX (v : Nat) : FmtX :=
  ⟨fld 4 v 116, fld 4 v 112, fld 2 v 110, fld 4 v 106, fld 4 v 102, fld 21 v 81, fld 21 v 60, fld 16 v 44⟩
def decT (v : Nat) : FmtT := ⟨fld 4 v 116, fld 4 v 112, fld 3 v 109, bit v 108, fld 32 v 72, fld 32 v 40, fld 24 v 16⟩
def decP (v : Nat) : FmtP :=
  ⟨fld 4 v 112, fld 3 v 109, fld 3 v 106, fld 10 v 96, fld 8 v 88, fld 14 v 74, fld 21 v 53, fld 16 v 37, fld 21 v 16⟩
def decM (v : Nat) : FmtM :=
  ⟨fld 4 v 116, fld 4 v 112, fld 10 v 102, bit v 101, fld 2 v 99, fld 3 v 96, fld 2 v 94, fld 4 v 90, fld 10 v 80, fld 16 v 64,
   fld 32 v 32, fld 32 v 0⟩
def decW (v : Nat) : FmtW := ⟨fld 2 v 118, fld 3 v 115, fld 32 v 64, fld 32 v 32⟩
def decPp (v : Nat) : FmtPp :=
  ⟨fld 13 v 9, fld 9 v 0, fld 13 v 31, fld 9 v 22, fld 13 v 53, fld 9 v 44, fld 13 v 75, fld 9 v 66⟩
def decA (v : Nat) : FmtA :=
  ⟨bit v 118, fld 4 v 114, fld 10 v 104, fld 5 v 99, fld 8 v 91, fld 24 v 67, fld 13 v 54, fld 13 v 41, fld 21 v 20, bit v 19⟩
def decPost (v : Nat) : FmtPost := ⟨fld 16 v 104, fld 64 v 0⟩

/-- The instruction a 128-bit word spells (R74). -/
def decodeIsn (wd : BitVec 128) : Isn :=
  let v := wd.toNat
  match v / 2 ^ 120 with
  | 0x00 => .nop | 0x01 => .setp (decC v) | 0x02 => .addp (decC v) | 0x03 => .setc (decC v) | 0x04 => .ldc (decC v)
  | 0x05 => .setk (decC v) | 0x06 => .loop (decC v) | 0x07 => .brc (decC v) | 0x08 => .jmp (decC v) | 0x09 => .endProg
  | 0x10 => .engMm (decE v) | 0x11 => .engAts (decE v) | 0x12 => .engAtv (decE v)
  | 0x14 => .vec (decV v) | 0x15 => .cvt (decX v)
  | 0x20 => .dmaLs (decT v) | 0x21 => .dmaCs (decT v) | 0x22 => .strRd (decT v) | 0x23 => .strWr (decT v)
  | 0x24 => .strSpread (decT v) | 0x25 => .strPage (decP v)
  | 0x30 => .put (decM v) | 0x31 => .addput (decM v) | 0x32 => .signal (decM v) | 0x33 => .wait (decW v)
  | 0x34 => .get (decM v) | 0x35 => .atom (decM v)
  | 0x40 => .barrier | 0x41 => .ppoint (decPp v)
  | 0x42 => if bit v 119 then .apndArm (decA v) else .apndWrite (decA v)
  | 0x43 => .post (decPost v)
  | op => .unlisted (BitVec.ofNat 8 op)

/-- The step descriptor 128 bytes spell (R96). -/
def decDesc (v : Nat) : StepDesc :=
  { deadline := fld 32 v 800, chainEnd := bit v 784, job := fld 16 v 768, base3 := fld 64 v 704, base2 := fld 64 v 640,
    base1 := fld 64 v 576, base0 := fld 64 v 512, userTag := fld 64 v 448, argAddr := fld 48 v 400, appendMax := fld 24 v 376,
    seqAddr := fld 48 v 320, cq := fld 6 v 314, seqCount := fld 10 v 304, lgCount := fld 8 v 296, firstLg := fld 8 v 288,
    seed := fld 32 v 256, argLen := fld 16 v 240, hbmShare := fld 16 v 224, ppGap := fld 24 v 192, period := fld 32 v 160,
    wcet := fld 32 v 128, progLen := fld 12 v 112, progAddr := fld 48 v 64, binding := fld 8 v 52, adapter := fld 12 v 40,
    kind := fld 4 v 36, qfmt := fld 4 v 32, quads := fld 8 v 24, adapterEn := bit v 21, append := bit v 20, periodic := bit v 19,
    wholeCl := bit v 18, jclass := fld 2 v 16, ctx := fld 8 v 8, dver := fld 8 v 0 }

/-- Binding record (05 R131). -/
def decBind (v : Nat) : BindRec := ⟨fld 12 v 68, fld 12 v 52, fld 8 v 40, fld 3 v 32, fld 4 v 24, fld 8 v 16, fld 8 v 0⟩
/-- Adapter version record (05 R155). -/
def decAdapter (v : Nat) : AdapterRec :=
  ⟨fld 48 v 112, fld 32 v 80, fld 4 v 68, fld 8 v 56, fld 16 v 32, fld 8 v 24, fld 12 v 12, fld 12 v 0⟩
/-- H fields of a lease table entry (06 R165). -/
def decLease (v : Nat) : LeaseRec :=
  ⟨fld 64 v 192, fld 32 v 160, fld 32 v 128, fld 12 v 116, fld 12 v 104, fld 32 v 72, bit v 65, bit v 64, fld 3 v 0⟩
/-- H fields of a region table entry (07 R214). -/
def decRegion (v : Nat) : RegionRec :=
  ⟨fld 48 v 208, fld 32 v 176, fld 16 v 160, fld 36 v 124, bit v 7, bit v 6, bit v 5, bit v 4⟩

/-- The command of code `c` with operand words in `v` (R323); `w i` is the first bit of word Wi. -/
def decCmd (c v : Nat) : Option HostCmd :=
  let w := fun i => 128 + 64 * i
  match c with
  | 0x80 => some (.sessionCreate (fld 24 v 128) (fld 8 v 152) (fld 2 v 160) (fld 6 v 168))
  | 0x81 => some (.sessionDrop (fld 24 v 128))
  | 0x82 => some (.sessionTruncate (fld 24 v 128) (fld 32 v (w 1)))
  | 0x83 => some (.sessionRelease (fld 24 v 128))
  | 0x84 => some (.sessionPin (fld 24 v 128) (bit v 152) (fld 32 v (w 1)) (fld 32 v (w 1 + 32)))
  | 0x85 => some (.sessionQuery (fld 24 v 128) (fld 64 v (w 1)))
  | 0x86 => some (.bindInstall (fld 8 v 128) (decBind (v / 2 ^ w 2)))
  | 0x87 => some (.bindRemove (fld 8 v 128))
  | 0x88 => some (.adapterInstall (fld 6 v 128) (decAdapter (v / 2 ^ w 1)))
  | 0x89 => some (.adapterRemove (fld 12 v 128))
  | 0x90 => some (.park (fld 24 v 128) (fld 4 v 152) (fld 12 v 156) (fld 2 v 168) (bit v 170) (bit v 171) (fld 32 v (w 1)))
  | 0x91 => some (.revive (fld 24 v 128) (bit v 152))
  | 0x92 => some (.reviveHint (fld 24 v 128) (bit v 152))
  | 0x93 => some (.ttlSet (fld 24 v 128) (fld 2 v 168) (fld 32 v (w 1)))
  | 0x94 => some (.migrate (fld 24 v 128) (fld 16 v 152) (fld 24 v (w 1)))
  | 0x95 => some (.migrateIn (fld 24 v 128) (fld 16 v 152) (fld 6 v 168) (bit v 174) (fld 24 v (w 1)))
  | 0x96 => some (.leaseSet (fld 12 v 128) (fld 6 v 144) (decLease (v / 2 ^ w 1)))
  | 0x97 => some (.leaseClear (fld 12 v 128))
  | 0x98 => some (.leaseLost (fld 12 v 128))
  | 0xA0 => some (.vocabLoad (fld 4 v 128) (fld 48 v (w 1)) (fld 32 v (w 2)))
  | 0xA1 => some (.vocabRemove (fld 4 v 128))
  | 0xA2 => some (.stopsetSet (fld 8 v 128) (fld 4 v 136) (fld 48 v (w 1)) (fld 128 v (w 2)))
  | 0xA3 => some (.streamOpen (fld 14 v 128) (fld 4 v 144) (fld 16 v 160) (bit v 176) (fld 6 v 184))
  | 0xA4 => some (.streamClose (fld 14 v 128))
  | 0xA5 => some (.tokenize (fld 14 v 128) (bit v 144) (fld 48 v (w 1)) (fld 32 v (w 2)) (fld 48 v (w 3)) (fld 32 v (w 4)))
  | 0xA6 => some (.grammarLoad (fld 6 v 128) (fld 48 v (w 1)))
  | 0xA7 => some (.grammarRemove (fld 6 v 128))
  | 0xA8 => some (.grammarBind (fld 14 v 128) (fld 6 v 144) (fld 18 v 160) (fld 48 v (w 1)))
  | 0xA9 => some (.grammarUnbind (fld 14 v 128))
  | 0xB0 => some (.regionSet (fld 16 v 128) (decRegion (v / 2 ^ w 1)))
  | 0xB1 => some (.regionClear (fld 16 v 128))
  | 0xC0 => some (.keystoneArm (fld 20 v 128))
  | 0xC1 => some .keystoneDisarm
  | _ => none

/-- Command code of a command. -/
def cmdCode : HostCmd → Nat
  | .sessionCreate .. => 0x80 | .sessionDrop .. => 0x81 | .sessionTruncate .. => 0x82 | .sessionRelease .. => 0x83
  | .sessionPin .. => 0x84 | .sessionQuery .. => 0x85 | .bindInstall .. => 0x86 | .bindRemove .. => 0x87
  | .adapterInstall .. => 0x88 | .adapterRemove .. => 0x89 | .park .. => 0x90 | .revive .. => 0x91 | .reviveHint .. => 0x92
  | .ttlSet .. => 0x93 | .migrate .. => 0x94 | .migrateIn .. => 0x95 | .leaseSet .. => 0x96 | .leaseClear .. => 0x97
  | .leaseLost .. => 0x98 | .vocabLoad .. => 0xA0 | .vocabRemove .. => 0xA1 | .stopsetSet .. => 0xA2 | .streamOpen .. => 0xA3
  | .streamClose .. => 0xA4 | .tokenize .. => 0xA5 | .grammarLoad .. => 0xA6 | .grammarRemove .. => 0xA7
  | .grammarBind .. => 0xA8 | .grammarUnbind .. => 0xA9 | .regionSet .. => 0xB0 | .regionClear .. => 0xB1
  | .keystoneArm .. => 0xC0 | .keystoneDisarm => 0xC1

/-- What a submission entry is (R322). -/
inductive Entry where
  | step (d : StepDesc)
  | cmd (h : CmdHdr) (c : HostCmd)
  | unknown (typ : Nat) (h : CmdHdr)
  deriving DecidableEq, Repr

/-- The entry 128 bytes spell. -/
def decodeEntry (v : Nat) : Entry :=
  let t := v % 256
  let h : CmdHdr := ⟨fld 64 v 64, fld 6 v 16, fld 8 v 8⟩
  if 1 ≤ t ∧ t ≤ 0x7F then .step (decDesc v)
  else match decCmd t v with
    | some c => .cmd h c
    | none => .unknown t h

end Sys2Proof.Machine
end

