-- ==== Sys2Proof/Machine/Ring.lean ====
section
/-! DEFINITION. Taking submission entries (11 R322, R324, R325, R329; 10 R286): which entry stands at the head
of a ring, when it is taken, the checks every entry passes, and its one completion. -/

namespace Sys2Proof.Machine

/-- Site offset of submission ring `sq`; 64 is the KEYSTONE ring (11 R317). -/
def ringOff (sq : Nat) : Nat := if sq = 64 then 0x500000 else 0x100000 + 0x10000 * sq

/-- Enabled, head and tail of a submission ring. -/
def State.ringSt (s : State) (sq : Nat) : Bool × Nat × Nat :=
  if sq = 64 then (s.site.ks.enable, s.site.ks.sqHead, s.site.ks.sqTail)
  else ((s.qp sq).enabled, (s.qp sq).sqHead, (s.qp sq).sqTail)

/-- The entry at SQ_HEAD of an enabled ring that is not empty has been damaged (16 R443, code 0x000A). -/
def State.headBad (s : State) (sq : Nat) : Bool :=
  let r := s.ringSt sq
  r.1 && r.2.1 != r.2.2 && (tblFind s.site.badEntries (sq * 512 + r.2.1)).isSome

/-- The entry at SQ_HEAD of an enabled ring that is not empty; a damaged one cannot be read. -/
def State.headEntry (s : State) (sq : Nat) : Option Entry :=
  let r := s.ringSt sq
  if r.1 && r.2.1 != r.2.2 && !s.headBad sq then some (decodeEntry (leNat (memRead s.site.rings (ringOff sq + 128 * r.2.1) 128))) else none

/-- The ring an entry names: CQ of a step or command; for TOKENIZE its stream's (11 R324). -/
def State.namedCq (s : State) : Entry → Nat
  | .step d => d.cq.toNat
  | .cmd h (.tokenize st ..) => match tblFind s.txt.streams st.toNat with
    | some t => if t.ctx = h.ctx.toNat then t.cq else h.cq.toNat
    | none => h.cq.toNat
  | .cmd h _ => h.cq.toNat
  | .unknown _ h => h.cq.toNat

/-- Context an entry names. -/
def Entry.ctx : Entry → Nat
  | .step d => d.ctx.toNat
  | .cmd h _ => h.ctx.toNat
  | .unknown _ h => h.ctx.toNat

/-- Check 2 of R325. -/
def State.cqOk (s : State) (sq : Nat) (e : Entry) : Bool :=
  let q := s.namedCq e
  (s.qp q).enabled && s.qctx q == (if sq = 64 then e.ctx else s.qctx sq)

/-- The ring the entry completes in. -/
def State.target (s : State) (sq : Nat) (e : Entry) : Nat :=
  if s.cqOk sq e then s.namedCq e else if sq = 64 then s.site.ks.fallback else sq

/-- The device takes entries now (14 R401; 15 R424; 16 R453). -/
def State.taking (s : State) : Bool := s.oper && !s.quiescing && !s.site.resetting

/-- In SEALED a step is admitted only in its context's slots (12 R361). -/
def State.slotEntry (s : State) (sq : Nat) (e : Entry) : Bool :=
  let c := if sq = 64 then e.ctx else s.qctx sq
  match e with
  | .step _ => s.slotOk c || !s.ctxOn c
  | _ => true

/-- Ring `sq` has an entry that a completion slot can be reserved for (R324). -/
def State.takeable (s : State) (sq : Nat) : Bool :=
  s.taking && match s.headEntry sq with
    | some e => (s.qp (s.target sq e)).room (sq == 64) && s.slotEntry sq e
    | none => false

/-- `e` is the entry the device may take next from `sq`: the KEYSTONE ring goes first (R329). -/
def State.mayTake (s : State) (sq : Nat) (e : Entry) : Bool :=
  s.headEntry sq == some e && s.takeable sq && (sq == 64 || !s.takeable 64)

/-- The entry leaves its ring: SQ_HEAD advances, the latch is set (R330), a slot of ring `q` is reserved. -/
def State.takeEntry (s : State) (sq q : Nat) : State :=
  let h := ((s.ringSt sq).2.1 + 1) % 512
  let s1 := s.modSite fun g => { g with lastHead := h, badEntries := tblDel g.badEntries (sq * 512 + (s.ringSt sq).2.1) }
  let s2 :=
    if sq = 64 then s1.modSite fun g => { g with ks := { g.ks with sqHead := h, latch := some s.dev.nclk } }
    else s1.setQp sq { s1.qp sq with sqHead := h, latch := some s.dev.nclk, work := (s1.qp sq).work + 1 }
  s2.setQp q (if sq = 64 then { s2.qp q with resvKs := (s2.qp q).resvKs + 1 } else { s2.qp q with resv := (s2.qp q).resv + 1 })

/-- What a command does: completes now with STATUS and RESULT, or completes later by another entry. -/
inductive CmdOut where
  | done (status result : Nat) (s : State)
  | later (s : State)

/-- Check 2 of R97 read for commands (10 R286): CTX is the submitting pair's and exists. -/
def State.ctxOk (s : State) (sq ctx : Nat) : Bool :=
  s.ctxOn ctx && (if sq = 64 then s.obj 0x5002 3 ctx == 1 else s.qctx sq == ctx)

/-- Commands the KEYSTONE queue accepts (10 R286). -/
def ksCmd : HostCmd → Bool
  | .keystoneArm _ | .keystoneDisarm => true
  | _ => false

/-- The ring a command names for later events. -/
def evCq : HostCmd → Option Nat
  | .sessionCreate _ _ _ q | .adapterInstall q _ | .migrateIn _ _ q _ _ | .leaseSet _ q _ | .streamOpen _ _ _ _ q => some q.toNat
  | _ => none

/-- An EVENT_CQ is held to the rule of CQ (DEDUCED, log entry 10). -/
def State.evOk (s : State) (sq ctx : Nat) (c : HostCmd) : Bool :=
  match evCq c with
  | some q => (s.qp q).enabled && s.qctx q == (if sq = 64 then ctx else s.qctx sq)
  | none => true

/-- The completion of a command of ring `sq`, taken with SQ_HEAD `head`: a COMMAND entry, or for TOKENIZE its TOKENIZED entry (11 R323). -/
def State.entryDone (s : State) (sq cq ctx head : Nat) (tag : W64) (c : HostCmd) (status result : Nat) : State :=
  match c with
  | .tokenize stream .. => s.tokenized sq cq ctx head tag stream.toNat status 0 false
  | _ => s.cmdDone sq cq ctx head tag (cmdCode c) status result

/-- A command whose checks have passed, and its completion. -/
def CmdOut.finish (o : CmdOut) (sq cq ctx head : Nat) (tag : W64) (c : HostCmd) : State :=
  match o with
  | .done st r t => t.entryDone sq cq ctx head tag c st r
  | .later t => t

/-- Command `c` at the head of ring `sq`: taken, checked under R325 with the host address operands `hosts`, then
performed by `f` for its context. -/
def State.command (s : State) (sq : Nat) (h : CmdHdr) (c : HostCmd) (hosts : List (Nat × Nat)) (f : State → CmdOut) : State :=
  let e := Entry.cmd h c
  if !s.mayTake sq e then s
  else
    let q := s.target sq e
    let ctx := s.qctx q
    let t := s.takeEntry sq q
    let out : CmdOut :=
      if !s.cqOk sq e || !s.evOk sq h.ctx.toNat c then .done stQueue 0 t
      else if hosts.any (fun w => !s.hostOk q w.1 w.2) then .done stHostWindow 0 t
      else if !s.ctxOk sq h.ctx.toNat then .done stDescField 0 t
      else if sq = 64 && !ksCmd c then .done stJobClass 0 t
      else f t
    out.finish sq q ctx (t.sqHeadOf sq) h.tag c

/-- The machine goes on after a command, whatever becomes of it. A ring the device does not have holds no entry. -/
def State.ringCmd (s : State) (sq : Nat) (h : CmdHdr) (c : HostCmd) (hosts : List (Nat × Nat)) (f : State → CmdOut) : Res :=
  .next (s.command sq h c hosts f)

end Sys2Proof.Machine
end

