-- ==== Sys2Proof/Machine/Share.lean ====
section
/-! DEFINITION. Token budgets and fair queueing (10 R306-R308). Resources: 0 QUAD, 1 PARK, 2 REVIVE, 3 FABRIC,
4 TEXT. Units: 0 the step queue, 1 the text lanes, 2 the page movers, 32 + p port p. -/

namespace Sys2Proof.Machine

/-- Present token count. -/
def State.tok (s : State) (c r : Nat) : Int := tblGet 0 s.run.tokens (c * 8 + r)
/-- `n` tokens are taken; a count may fall below 0. -/
def State.charge (s : State) (c r : Nat) (n : Int) : State :=
  s.modRun fun g => { g with tokens := tblPut 0 g.tokens (c * 8 + r) (tblGet 0 g.tokens (c * 8 + r) - n) }
/-- Weight in force. -/
def State.weight (s : State) (c : Nat) : Nat := max 1 (tblGet 1 s.run.weight c)
/-- Finish tag of a context at a unit. -/
def State.fin (s : State) (c u : Nat) : Nat := tblGet 0 s.run.fin (c * 64 + u)

/-- Context `c` may start an item at a unit of resource `r`: tokens, or KEYSTONE work. -/
def State.mayStart (s : State) (c r : Nat) (ks : Bool) : Bool := ks || decide (0 < s.tok c r)

/-- Among candidate contexts, the one with the least finish tag, lowest number on a tie. -/
def State.fqPick (s : State) (u : Nat) (cand : List Nat) : Option Nat :=
  cand.foldl (fun best c => match best with
    | none => some c
    | some b => if s.fin c u < s.fin b u ∨ (s.fin c u = s.fin b u ∧ c < b) then some c else some b) none

/-- The tags and tokens after context `c` starts an item of the given cost at unit `u` (R307). -/
def State.fqStart (s : State) (u c r cost : Nat) : State :=
  let st := max (tblGet 0 s.run.vt u) (s.fin c u)
  (s.modRun fun g => { g with
    fin := tblPut 0 g.fin (c * 64 + u) (st + cost * 65536 / s.weight c)
    vt := tblPut 0 g.vt u st }).charge c r cost

end Sys2Proof.Machine
end

