-- ==== Sys2Proof/Machine/Pages.lean ====
section
/-! DEFINITION. Slabs and frames, page directories, page table entries, session records and runs of parked copies:
the operations every session command and move shares (05 R127-R149; 06 R167, R168). -/

namespace Sys2Proof.Machine

/-! ### CRC-32C (00 R11 conventions; reflected polynomial, all-ones start and final inversion) -/

/-- One bit of the remainder. -/
def crcBit (c : Nat) : Nat := if c % 2 = 1 then Nat.xor (c / 2) 0x82F63B78 else c / 2
/-- One byte of the remainder. -/
def crcByte (c : Nat) (b : Byte) : Nat :=
  crcBit (crcBit (crcBit (crcBit (crcBit (crcBit (crcBit (crcBit (Nat.xor c b.toNat))))))))
/-- CRC-32C of a byte string. -/
def crc32c (bs : List Byte) : W32 := BitVec.ofNat 32 (Nat.xor (bs.foldl crcByte 0xFFFFFFFF) 0xFFFFFFFF)

/-! ### Bindings and footprints (05 R131-R133) -/

/-- The record read where no binding is installed. -/
def noBind : BindRec := ⟨0, 0, 0, 0, 0, 0, 0⟩
def State.bind (s : State) (ctx b : Nat) : BindRec := tblGet noBind s.ses.binds (ctx * 256 + b)
def bindCk (b : BindRec) : Nat := b.kvh.toNat * b.dK.toNat
def bindCv (b : BindRec) : Nat := b.kvh.toNat * b.dV.toNat
/-- Binding of a session. -/
def State.sbind (s : State) (x : Session) : BindRec := s.bind x.ctx x.binding
/-- Payload bytes of a page of format `f` under binding `b`. -/
def pageBytes (b : BindRec) (f : Nat) : Nat := payloadBytes f (bindCk b) (bindCv b)
/-- Footprint in frames: a multiple of 4 KiB and at least 16 KiB (R133). -/
def footprint (b : BindRec) (f : Nat) : Nat := max 4 (ceilDiv (pageBytes b f) 4096)
/-- Parked footprint in frames (06 R168). -/
def parkedFrames (b : BindRec) (f : Nat) : Nat := max 4 (ceilDiv (pageBytes b f + 32) 4096)

/-! ### Slabs (05 R148, R149; 16 R447, R448) -/

/-- Slabs of a die, and those of them below the device area (01 R25, R26). -/
def slabsPerDie : Nat := 98304
def slabsUsable : Nat := 97280

/-- Die, channel and stack of an HBM line. -/
def lineDie (l : Nat) : Nat := l / 64 / 50331648
def lineChannel (l : Nat) : Nat := 96 * lineDie l + l / 64 % 96
def lineStack (l : Nat) : Nat := lineChannel l / 32
/-- Frames of a unit that a slab of this use holds. -/
def slabUnit : SlabUse → Nat
  | .pages f => f | .dir => 1 | .lease => 1 | .ring f => f | .shard => 512

/-- The die's stacks trained (15 R428). -/
def State.islandUp (s : State) (die : Nat) : Bool := (span (3 * die) 3).all fun i => s.dev.hbmSt.getD i 0 != 2

/-- The slab may be given out or filled further: its island serves, and it is not marked or retired. -/
def State.slabGood (s : State) (k : Nat) : Bool :=
  s.islandUp (k / slabsPerDie) && (tblFind s.err.marked k).isNone && (tblFind s.err.retired k).isNone
  && (tblFind s.err.retiredNow k).isNone

/-- Every frame of [f, f+n) is scrubbed. -/
def State.scrubbed (s : State) (f n : Nat) : Bool := !tblAny s.ses.dirtyFrames fun g _ => decide (f ≤ g) && decide (g < f + n)

/-- The least k' from k on, among n, of which `p` holds. -/
def findUp (p : Nat → Bool) (k : Nat) : Nat → Option Nat
  | 0 => none
  | n + 1 => if p k then some k else findUp p (k + 1) n

/-- Slabs a context holds. -/
def State.slabsHeld (s : State) (ctx : Nat) : Nat := tblCount s.ses.slabs fun _ x => x.ctx == ctx

/-- Lowest free, scrubbed slab of a die below its shadow area (13 R375). -/
def State.freeSlab (s : State) (die : Nat) : Option Nat :=
  findUp (fun k => (tblFind s.ses.slabs k).isNone && s.slabGood k && s.scrubbed (512 * k) 512) (slabsPerDie * die)
    (slabsUsable - s.obj 0x8000 1 die)

/-- Offset of a free unit of a slab. -/
def State.unitIn (s : State) (k : Nat) (x : Slab) : Option Nat :=
  let n := slabUnit x.use
  (findUp (fun i => !decide (i * n ∈ x.used) && s.scrubbed (512 * k + i * n) n) 0 (512 / n)).map (· * n)

/-- First frame of a fresh unit for `ctx` on `die`: in a slab of the same use that has room, else in a new slab
within the context's quota. -/
def State.unitAlloc (s : State) (ctx die : Nat) (u : SlabUse) : Option (Nat × State) :=
  let old := s.ses.slabs.findSome? fun e =>
    if e.2.ctx == ctx && e.2.use == u && e.1 / slabsPerDie == die && s.slabGood e.1 then (s.unitIn e.1 e.2).map fun o => (e.1, o)
    else none
  match old with
  | some (k, o) => some (512 * k + o, s.modSes fun g => { g with slabs := tblMod g.slabs k fun x => { x with used := o :: x.used } })
  | none =>
    if s.slabsHeld ctx < s.obj 0x3102 1 ctx then
      (s.freeSlab die).map fun k => (512 * k, s.modSes fun g => { g with slabs := tblIns g.slabs k ⟨ctx, u, [0]⟩ })
    else none

/-- `n` units one after the other. -/
def State.unitsAlloc (s : State) (ctx die : Nat) (u : SlabUse) : Nat → Option (List Nat × State)
  | 0 => some ([], s)
  | n + 1 => match s.unitAlloc ctx die u with
    | none => none
    | some (f, t) => (t.unitsAlloc ctx die u n).map fun r => (f :: r.1, r.2)

/-- Slab `k` retires (16 R447, R448). -/
def State.retire (s : State) (k : Nat) : State :=
  let s1 := s.modErr fun g => { g with marked := tblDel g.marked k }
  if s1.err.retired.length < 4096 then s1.modErr fun g => { g with retired := tblIns g.retired k () }
  else (s1.modErr fun g => { g with retiredNow := tblIns g.retiredNow k () }).record
    { sev := 1, code := 0x0001, source := 0x0F, unit := k / slabsPerDie, detail := 0xFFFF }

/-- Slab `k` holds nothing: no context has it, none of its frames waits for the scrub, and no byte of context memory lies in it. -/
def State.slabIdle (s : State) (k : Nat) : Bool :=
  (tblFind s.ses.slabs k).isNone && s.scrubbed (512 * k) 512 && !s.ses.cmem.any fun e => ctxFrame (e.1 / 4096) / 512 == k
/-- A marked slab retires once it holds nothing and is scrubbed (16 R447). -/
def State.retireIdle (s : State) (k : Nat) : State :=
  if (tblFind s.err.marked k).isSome && s.slabIdle k then s.retire k else s

/-- The unit that begins at frame `f` is freed: its frames wait for the scrub; an empty slab is given back. -/
def State.unitFree (s : State) (f : Nat) : State :=
  let k := f / 512
  match tblFind s.ses.slabs k with
  | none => s
  | some x =>
    let used := x.used.filter (· != f % 512)
    s.modSes fun g => { g with
      slabs := if used.isEmpty then tblDel g.slabs k else tblIns g.slabs k { x with used := used }
      dirtyFrames := (span f (slabUnit x.use)).foldl (fun t i => tblIns t i ()) g.dirtyFrames }

def State.unitsFree (s : State) (fs : List Nat) : State := s.each fs State.unitFree

/-- Bytes of Tier 1 frames. -/
def State.hread (s : State) (frame off n : Nat) : List Byte := memRead s.ses.hbm (4096 * frame + off) n
def State.hwrite (s : State) (frame off : Nat) (bs : List Byte) : State :=
  (s.modSes fun g => { g with hbm := memWrite g.hbm (4096 * frame + off) bs }).cleanLines (· / 64) (4096 * frame + off) bs.length
/-- First poisoned line of a range of Tier 1 frames (16 R444). -/
def State.hbad (s : State) (frame off n : Nat) : Option Nat := s.badLine (· / 64) (4096 * frame + off) n

/-! ### Page table entries and directories (05 R135-R142) -/

/-- An entry that describes no page. -/
def pteNone : Pte := ⟨0, 0, false, false, false, false, false, false, 0, 0, 0, 0⟩
/-- Entry `n` of a directory. -/
def Dir.ent (d : Dir) (n : Nat) : Pte := tblGet pteNone d.ents n
def Dir.setEnt (d : Dir) (n : Nat) (e : Pte) : Dir := { d with ents := tblPut pteNone d.ents n e }
/-- A directory in no tier. -/
def dirNone : Dir := ⟨[], [], [], 0, 0, 0⟩
/-- The page lies in Tier 1 and no copy of it is in transit there. -/
def Pte.landed (e : Pte) : Bool := e.valid && e.tier == 1 && !e.copyPend
/-- Generation after a change (R135). -/
def Pte.bump (e : Pte) : Pte := { e with gen := e.gen + 1 }
/-- FRAME of a copy in a lease, and its two parts (R136). -/
def leaseFrame (lease off : Nat) : Nat := lease * 2 ^ 28 + off
def frameLease (f : Nat) : Nat := f / 2 ^ 28
def frameOff (f : Nat) : Nat := f % 2 ^ 28

/-- The 16 bytes of an entry as one number (R135). -/
def pteNum (e : Pte) : Nat :=
  e.frame + e.tier * 2 ^ 40 + e.fmt * 2 ^ 43 + e.fill * 2 ^ 47 + b2n e.valid * 2 ^ 56 + b2n e.pinned * 2 ^ 57
  + b2n e.copyPend * 2 ^ 58 + b2n e.dirty * 2 ^ 59 + b2n e.lost * 2 ^ 60 + b2n e.dual * 2 ^ 61 + e.crc.toNat * 2 ^ 64
  + e.gen.toNat * 2 ^ 96

/-- The entry 16 bytes spell. -/
def numPte (v : Nat) : Pte :=
  ⟨fld 32 v 96, fld 32 v 64, bit v 61, bit v 60, bit v 59, bit v 58, bit v 57, bit v 56, bits v 55 47, bits v 46 43, bits v 42 40,
   bits v 39 0⟩

/-- Entries a depth holds (R140). -/
def dirCap : Nat → Nat
  | 0 => 256 | 1 => 131072 | _ => 67108864

/-- The directory grown by one level (R141); `f` is the new interior frame. -/
def Dir.deeper (d : Dir) (f : Nat) : Dir :=
  { d with root := f, depth := d.depth + 1, inter := if d.depth = 0 then [(0, f)] else [(0, f), (1, d.root)] }

/-- The directory deep enough for entry `n`. -/
def State.dirGrow (s : State) (ctx die n : Nat) (d : Dir) : Nat → Option (Dir × State)
  | 0 => some (d, s)
  | k + 1 =>
    if n < dirCap d.depth then some (d, s)
    else match s.unitAlloc ctx die .dir with
      | none => none
      | some (f, t) => t.dirGrow ctx die n (d.deeper f) k

/-- Every directory frame that entry `n` needs is taken (R141, R145). -/
def State.dirNeed (s : State) (ctx die n : Nat) (d : Dir) : Option (Dir × State) :=
  match s.dirGrow ctx die n d 2 with
  | none => none
  | some (d1, s1) =>
    let i := n / 131072
    let r := if d1.depth = 2 && (tblFind d1.inter (i + 1)).isNone then
        (s1.unitAlloc ctx die .dir).map fun a => ({ d1 with inter := tblIns d1.inter (i + 1) a.1 }, a.2)
      else some (d1, s1)
    match r with
    | none => none
    | some (d2, s2) =>
      if (tblFind d2.leaves (n / 256)).isSome then some (d2, s2)
      else (s2.unitAlloc ctx die .dir).map fun a => ({ d2 with leaves := tblIns d2.leaves (n / 256) a.1 }, a.2)

/-- A fresh directory of one empty root leaf. -/
def State.dirFresh (s : State) (ctx die : Nat) : Option (Dir × State) :=
  (s.unitAlloc ctx die .dir).map fun a => ({ dirNone with leaves := [(0, a.1)], root := a.1, tier := 1 }, a.2)

/-- Tier 1 frames a directory occupies. -/
def Dir.frames (d : Dir) : List Nat := d.leaves.map (·.2) ++ d.inter.map (·.2)
/-- Frames a directory extent takes. -/
def Dir.size (d : Dir) : Nat := d.leaves.length + d.inter.length

/-- Leaves without VALID and LOST entries are freed, the root excepted (R141). -/
def State.dirTrim (s : State) (d : Dir) : Dir × State :=
  let live := fun (i f : Nat) => f == d.root || tblAny d.ents fun n e => n / 256 == i && (e.valid || e.lost)
  let gone := tblKeep d.leaves fun i f => !live i f
  ({ d with leaves := tblKeep d.leaves live }, s.unitsFree (gone.map (·.2)))

/-! ### Session records (05 R130, R143) -/

/-- MOVE when no move is in progress. -/
def moveNone : Move := ⟨0, 0, 0, 0, 0, 0, 0, 0, 0, false, false, false, false, false⟩

/-- A handle never used: FREE. -/
def sesFree (ctx : Nat) : Session :=
  { state := .free, ctx := ctx, tomb := false, parkPend := false, demoting := false, dual := false, binding := 0, homeDie := 0,
    hinted := false, parkFmt := 0, expiry := 0, tokens := 0, sgen := 0, stepPins := 0, lostFirst := 0xFFFFFFFF, lostPages := 0,
    ttlMs := 0, ttlDeadline := 0, lastChange := 0, res := [], peerDev := 0, peerHandle := 0, move := moveNone, pins := [],
    dir := dirNone, pdir := none, eventCq := 0, runs := [], dirRun := none, placed := [], sent := [], mig := .none,
    migState := .free, migDeadline := 0, migStatus := 0, ttlLeft := 0, sweep := false,
    extWait := false, trunc := none, reland := [], relanded := [], kept := [], parkAt := 0 }

def State.sess (s : State) (h : Nat) : Option Session := tblFind s.ses.tbl h
def State.setSess (s : State) (h : Nat) (x : Session) : State := s.modSes fun g => { g with tbl := tblIns g.tbl h x }
def State.updSess (s : State) (h : Nat) (f : Session → Session) : State := s.modSes fun g => { g with tbl := tblMod g.tbl h f }

/-- Address of the descriptor of handle `h`: 256 bytes in the device area of die `h` mod 4 (01 R26). -/
def descAddr (h : Nat) : Nat := h % 4 * 0x3000000000 + 0x2F80000000 + 256 * (h / 4)

/-- Line `l` of a device area cannot be read (16 R443): FATAL. -/
def State.devUe (s : State) (l : Nat) : State :=
  ((s.count 0x3001 2 (lineStack l)).modErr fun g => { g with failed := tblDel g.failed l }).fatal 0x0003 0x01 (lineChannel l) (64 * l)
/-- The state engine or the bulk transport reads `n` bytes of a device area (16 R475). -/
def State.devRead (s : State) (a n : Nat) : State := match s.badLine (· / 64) a n with | some l => s.devUe l | none => s

/-- The descriptor of `h` is used (R129): a hit, or a fetch that evicts the descriptor used longest ago among those of sessions
not awake (DESIGN CHOICE, log entry 63). Where every descriptor cached is of an awake session, one of a session that is not awake is
fetched and not kept. -/
def State.descTouch (s : State) (h : Nat) : State :=
  let l := s.ses.descs
  if h ∈ l then (s.modSes fun g => { g with descs := h :: l.erase h }).count 0x3103 1
  else
    let asleep := fun (k : Nat) => !((tblFind s.ses.tbl k).any fun x => decide (x.state ∈ [.active, .idle, .reviving, .parking]))
    let rest := if l.length < 262144 then some l else (l.reverse.find? asleep).map l.erase
    let kept := match rest with
      | some r => h :: r
      | none => if asleep h then l else h :: l
    ((s.devRead (descAddr h) 256).modSes fun g => { g with descs := kept }).count 0x3103 2

/-- STATE codes (R150). -/
def stateCode : SState → Nat
  | .free => 0 | .active => 1 | .idle => 2 | .parking => 3 | .parked => 4 | .reviving => 5 | .migrating => 6 | .lost => 7

/-- Awake states (R129). -/
def SState.awake : SState → Bool
  | .active | .idle | .reviving | .parking => true
  | _ => false

/-- Awake sessions. -/
def State.awakeNow (s : State) : Nat := tblCount s.ses.tbl fun _ x => x.state.awake
/-- One more awake session would break R129. -/
def State.awakeFull (s : State) : Bool := decide (262144 ≤ s.awakeNow)

/-- PAGES and RESIDENT (R130). -/
def Session.pages (x : Session) : Nat := tblCount x.dir.ents fun _ e => e.valid
def Session.resident (x : Session) : Nat := tblCount x.dir.ents fun _ e => e.landed

/-- LOST_PAGES and LOST_FIRST as the entries have them; `lgn` layer groups. -/
def Session.recount (x : Session) (lgn : Nat) : Session :=
  let l := x.dir.ents.filter fun e => e.2.lost
  { x with lostPages := l.length, lostFirst := match l with | [] => 0xFFFFFFFF | e :: _ => e.1 / max 1 lgn }

/-- Number of page `g` among the session's own pages: its index, or in a ring its place in the member's two chunks (04 R122). -/
def Session.ownPage (x : Session) (g : Nat) : Nat :=
  match x.chunks with
  | some (c, k, n) => let hi := (2 * n - 1 - k) * c; if g < hi then g - k * c else c + (g - hi)
  | none => g

/-- Committed count of layer group `g` (R143): 256 P + FILL of its highest page that is lost or holds tokens. -/
def Session.committed (x : Session) (lgn g : Nat) : Nat :=
  x.dir.ents.foldl (fun a (n, e) =>
    if n % max 1 lgn = g && (e.lost || (e.valid && decide (0 < e.fill))) then 256 * x.ownPage (n / max 1 lgn) + e.fill else a) 0

/-- TOKENS recomputed (R143). -/
def Session.retoken (x : Session) (lgn : Nat) : Session :=
  { x with tokens := (List.range lgn).foldl (fun m g => min m (x.committed lgn g)) (x.committed lgn 0) }

/-- The session's state changes (R151): LAST_CHANGE is updated. -/
def Session.goto (x : Session) (t : Nat) (st : SState) : Session := { x with state := st, lastChange := t }

/-- A session event (11 R328): `x0` before, `x` after. -/
def State.sesEvent (s : State) (h : Nat) (x0 x : Session) (code status kind : Nat) : State :=
  s.event x.eventCq {
    kind := 4, event := code, status := status, ctx := x.ctx, sqId := 0xFF, sqHead := s.site.lastHead,
    time := s.tick, tag := 0,
    body := h % 2 ^ 24 + stateCode x0.state * 2 ^ 24 + stateCode x.state * 2 ^ 28 + x.sgen.toNat * 2 ^ 32
      + x.tokens * 2 ^ 64 + x.lostPages * 2 ^ 96 + kind * 2 ^ 128 }

/-- The MOVE field as a number of 192 bits (06 R175). -/
def moveNum (m : Move) : Nat :=
  b2n m.dirOut * 2 ^ 10 + b2n m.suspended * 2 ^ 11 + b2n m.held * 2 ^ 12 + b2n m.narrow * 2 ^ 13 + b2n m.dual * 2 ^ 14
  + m.ptier * 2 ^ 15 + m.pdepth * 2 ^ 18 + m.kind * 2 ^ 20 + m.pfmt * 2 ^ 24 + m.lease * 2 ^ 28 + m.proot * 2 ^ 40
  + m.done * 2 ^ 80 + m.total * 2 ^ 104 + m.start * 2 ^ 128

/-- Index that stands for the directory extent among a move's pages. -/
def dirIdx : Nat := 2 ^ 31

/-- A park leaves page `n`, pinned since its run was taken, in Tier 1 (R139); once the directory extent has left, the choice stands as
the extent holds it. -/
def Session.keeps (x : Session) (n : Nat) : Bool :=
  x.move.kind == 1 && (if (tblFind x.sent dirIdx).isSome then x.kept.contains n else (x.dir.ent n).pinned)

/-- MOVE as the descriptor shows it: a park does not count pages that have been pinned since it took their runs (R139). -/
def Session.moveNow (x : Session) : Move :=
  if x.move.kind = 1 then
    let t := x.move.total - (x.runs.filter fun r => x.keeps r.1).length
    { x.move with total := t, done := min x.move.done t }
  else x.move

/-- An append reservation record as a number (R144). -/
def resNum (r : ResRec) : Nat := r.firstLg + r.lgCount * 2 ^ 8 + r.appendN * 2 ^ 16 + r.step % 2 ^ 16 * 2 ^ 40

/-- Numbers of `w` bits one after the other. -/
def catNums (w : Nat) : List Nat → Nat
  | [] => 0
  | v :: l => v % 2 ^ w + 2 ^ w * catNums w l

/-- The session descriptor's 2,048 bits (R130). -/
def sessNum (x : Session) : Nat :=
  1 + x.ctx * 2 ^ 8 + stateCode x.state * 2 ^ 16 + b2n x.tomb * 2 ^ 20 + b2n x.parkPend * 2 ^ 21 + b2n x.demoting * 2 ^ 22
  + b2n x.dual * 2 ^ 23 + x.binding * 2 ^ 24 + x.homeDie * 2 ^ 32 + x.dir.depth * 2 ^ 34 + x.dir.tier * 2 ^ 36
  + b2n x.hinted * 2 ^ 39 + x.parkFmt * 2 ^ 40 + x.expiry * 2 ^ 44 + x.tokens * 2 ^ 64 + x.sgen.toNat * 2 ^ 96
  + x.dir.root * 2 ^ 128 + x.stepPins * 2 ^ 192 + x.pages * 2 ^ 224 + x.resident * 2 ^ 256 + x.lostPages * 2 ^ 288
  + x.lostFirst * 2 ^ 320 + x.ttlMs * 2 ^ 352 + x.ttlDeadline * 2 ^ 384 + x.lastChange * 2 ^ 448
  + catNums 64 (x.res.map resNum) * 2 ^ 512 + x.peerDev * 2 ^ 768 + x.peerHandle * 2 ^ 784 + moveNum x.moveNow * 2 ^ 832
  + catNums 16 (x.pins.map (· + 32768)) * 2 ^ 1024

/-! ### Leases and runs (06 R165-R167) -/

def leaseKey (ctx l : Nat) : Nat := ctx * 4096 + l
def State.lease (s : State) (ctx l : Nat) : Option Lease := tblFind s.ses.leases (leaseKey ctx l)
def State.updLease (s : State) (ctx l : Nat) (f : Lease → Lease) : State :=
  s.modSes fun g => { g with leases := tblMod g.leases (leaseKey ctx l) f }
/-- Frames allocated. -/
def Lease.used (l : Lease) : Nat := (l.runs.map (·.2)).foldl (· + ·) 0
/-- Valid and not lost. -/
def State.leaseOk (s : State) (ctx l : Nat) : Bool := (s.lease ctx l).any fun x => x.valid && !x.lost
/-- The lease is marked lost. -/
def State.leaseLost (s : State) (ctx l : Nat) : Bool := (s.lease ctx l).any fun x => x.lost
/-- The lease paired with `l` (R166): each names the other. -/
def State.paired (s : State) (ctx l : Nat) : Option Nat :=
  match s.lease ctx l with
  | none => none
  | some x =>
    let p := x.rcd.partner.toNat
    match s.lease ctx p with
    | none => none
    | some y =>
      if x.valid && y.valid && x.rcd.partnerEn && y.rcd.partnerEn && y.rcd.partner.toNat == l && p != l then some p else none

/-- The first gap of `n` frames at or after `pos`. -/
def gapFrom (pos n len : Nat) : Table Nat → Option Nat
  | [] => if pos + n ≤ len then some pos else none
  | (a, l) :: t =>
    if a + l ≤ pos then gapFrom pos n len t
    else if pos + n ≤ a then some pos
    else gapFrom (a + l) n len t

/-- A run of `n` frames, first fit from the cursor and then from frame 0; a paired lease takes it too. -/
def State.runAlloc (s : State) (ctx l n : Nat) : Option (Nat × State) :=
  match s.lease ctx l with
  | none => none
  | some x =>
    let len := x.rcd.len.toNat
    match (gapFrom x.cursor n len x.runs).orElse fun _ => gapFrom 0 n len x.runs with
    | none => none
    | some o =>
      let put := fun (y : Lease) => { y with runs := tblIns y.runs o n, cursor := o + n }
      let t := s.updLease ctx l put
      some (o, match s.paired ctx l with | some p => t.updLease ctx p put | none => t)

/-- The run at offset `o` is freed, in a paired lease too. -/
def State.runFree (s : State) (ctx l o : Nat) : State :=
  let del := fun (y : Lease) => { y with runs := tblDel y.runs o }
  let t := s.updLease ctx l del
  match s.paired ctx l with | some p => t.updLease ctx p del | none => t

/-- The copy of an entry is freed, wherever it lies (06 R170). -/
def State.copyFree (s : State) (ctx : Nat) (e : Pte) : State :=
  if e.tier = 1 then s.unitFree e.frame
  else if 2 ≤ e.tier then s.runFree ctx (frameLease e.frame) (frameOff e.frame)
  else s

/-- What an entry holds is freed: the page's copy, or the Tier 1 frames a lost page still has. -/
def State.entFree (s : State) (ctx : Nat) (e : Pte) : State :=
  if e.valid then s.copyFree ctx e else if e.lost && e.tier == 1 then s.unitFree e.frame else s

/-- A directory is freed, wherever it lies. -/
def State.dirFree (s : State) (ctx : Nat) (d : Dir) : State :=
  if d.tier = 1 then s.unitsFree d.frames
  else if 2 ≤ d.tier then s.runFree ctx (frameLease d.root) (frameOff d.root)
  else s

/-- Every entry of a directory read under R191 while leases are lost. -/
def State.readPte (s : State) (ctx : Nat) (e : Pte) : Pte :=
  if !e.valid || e.tier < 2 then e
  else
    let l := frameLease e.frame
    let p := (s.paired ctx l).getD 4096
    let gone : Pte := { e with valid := false, lost := true, dual := false, copyPend := false }
    if s.leaseLost ctx l then
      if e.dual && !s.leaseLost ctx p && p < 4096 then { e with frame := leaseFrame p (frameOff e.frame), dual := false } else gone
    else if e.dual && s.leaseLost ctx p then { e with dual := false }
    else e

/-- Mover work and bulk traffic of a session's move concerns nobody any more. -/
def Purpose.ofSession (h : Nat) : Purpose → Bool
  | .parkPage a _ _ | .parkDir a _ | .demoteRead a _ | .revivePage a _ _ | .reviveDir a _ | .truncDir a | .migrate a _ => a == h
  | _ => false

/-- Purposes `p` holds of become nothing, in every flow and GET. -/
def State.orphan (s : State) (p : Purpose → Bool) : State :=
  let f := fun (q : Purpose) => if p q then Purpose.nothing else q
  let fm := fun (m : BulkMsg) => { m with purpose := f m.purpose }
  s.modBulk fun g => { g with
    flows := tblMap g.flows fun _ x => { x with
      msgs := tblMap x.msgs fun _ m => fm m, waiting := x.waiting.map fm, placeWait := x.placeWait.map f,
      flush := x.flush.map fun u => { u with waits := u.waits.map f } }
    noFlow := g.noFlow.map fun e => (e.1, fm e.2)
    gets := tblMap g.gets fun _ r => { r with purpose := f r.purpose } }

/-- Counted bytes of the packet at `off` (08 R248), and of the packets sent and not acknowledged. -/
def BulkMsg.counted (m : BulkMsg) (off : Nat) : Nat := if m.typ = 2 then 64 else min 4096 (m.len - off)
def BulkMsg.inflight (m : BulkMsg) : Nat := ((m.pkts.filter fun e => !e.2.acked).map fun e => m.counted e.1).foldl (· + ·) 0

/-- Is the message one of ring step `n` (04 R124)? -/
def Purpose.ofRing (n : Nat) : Purpose → Bool
  | .ringPage m _ _ | .ringCredit m _ => m == n
  | _ => false

/-- The outcome of an ended ring step's messages concerns nobody. -/
def State.ringOrphan (s : State) (n : Nat) : State := s.orphan (Purpose.ofRing n)

/-- A ring step that ended with class F sends nothing further (04 R125): its messages leave every queue and flow. A flow's
floor then passes their numbers (08 R247). -/
def State.ringSilent (s : State) (n : Nat) : State :=
  let keep := fun (m : BulkMsg) => !m.purpose.ofRing n
  (s.modBulk fun g => { g with
    flows := tblMap g.flows fun _ x => { x with
      msgs := tblKeep x.msgs fun _ m => keep m, waiting := x.waiting.filter keep
      inflight := x.inflight - ((x.msgs.filter fun e => !keep e.2).map fun e => e.2.inflight).foldl (· + ·) 0 }
    noFlow := g.noFlow.filter fun e => keep e.2 }).ringOrphan n

/-- A session's move ends: what it set down is dropped. -/
def State.moveEnd (s : State) (h : Nat) : State :=
  ((s.orphan (Purpose.ofSession h)).modSes fun g => { g with
    movers := tblKeep g.movers fun _ j => j.handle != h, staged := g.staged.filter fun j => j.handle != h }).updSess h
    fun x => { x with move := moveNone, runs := [], dirRun := none, placed := [], sent := [], kept := [] }

/-- The runs a move took are freed. -/
def State.runsFree (s : State) (x : Session) (lease : Nat) : State :=
  let t := s.each x.runs fun t r => t.runFree x.ctx lease r.2
  match x.dirRun with | some o => t.runFree x.ctx lease o | none => t

/-- Every page, copy and directory of a session is freed, and what a move in progress took. -/
def State.wipe (s : State) (x : Session) : State :=
  let s1 := s.each x.dir.ents fun t e => t.entFree x.ctx e.2
  let s2 := s1.dirFree x.ctx x.dir
  let s3 := if x.move.kind = 1 || x.move.kind = 3 then s2.runsFree x x.move.lease else s2
  match x.pdir with
  | none => s3
  | some d =>
    let s4 := s3.each d.ents fun t e => if e.2.valid && decide (2 ≤ e.2.tier) then t.copyFree x.ctx e.2 else t
    s4.dirFree x.ctx d

/-- Items 1 to 3 of R183: parked copies and the parked directory are freed, landed pages become dirty. -/
def State.freeParked (s : State) (h : Nat) : State :=
  match s.sess h with
  | none => s
  | some x => match x.pdir with
    | none => s
    | some d =>
      let s1 := s.each d.ents fun t e => if e.2.valid && decide (2 ≤ e.2.tier) then t.copyFree x.ctx e.2 else t
      let s2 := s1.dirFree x.ctx d
      s2.updSess h fun y => { y with
        pdir := none, hinted := false, dual := false
        dir := { y.dir with ents := tblMap y.dir.ents fun n e =>
          if e.landed && decide (2 ≤ (d.ent n).tier) then { e with dirty := true } else e } }

/-- R183. -/
def State.dropParked (s : State) (h : Nat) : State :=
  match s.sess h with
  | none => s
  | some x => if x.pdir.isNone then s else (s.freeParked h).moveEnd h

/-- HELD and HINTED clear (06 R183, R193). A page being landed again (16 R446) keeps the parked copies until it lands. -/
def State.unhold (s : State) (h : Nat) : State :=
  match s.sess h with
  | none => s
  | some x =>
    let s1 := s.setSess h { x with hinted := false, move := { x.move with held := false } }
    if x.state == .idle && x.move.held && x.reland.isEmpty then s1.dropParked h else s1

end Sys2Proof.Machine
end

