-- ==== Sys2Proof/Machine/Flow.lean ====
section
/-! DEFINITION. The mechanics below the fabric's commands: composition maps (07 R221-R224), ports and their packets
(07 R200-R206), keys of flows (12 R349-R353), the flow cache and the sending side of bulk messages (08 R233-R248). -/

namespace Sys2Proof.Machine

/-! ### Maps and epochs (07 R222-R224) -/

/-- Of two epochs `a` is the newer. -/
def epNewer (a b : W32) : Bool :=
  let m := 2 ^ 32 - 1
  if a = 0 then false else if b = 0 then true
  else let d := (a.toNat + m - b.toNat) % m; decide (1 ≤ d) && decide (d ≤ 2 ^ 31 - 1)

/-- Successor of an epoch. -/
def epSucc (e : W32) : W32 := if e = 0xFFFFFFFF then 1 else e + 1

/-- ID table entry. -/
def CompMap.idEnt (m : CompMap) (x : Nat) : IdEnt := tblGet ⟨0, false, 0⟩ m.ids x

/-- Node, local slot and HELD of the owner of slot `sl` of identity `x` (R223). -/
def CompMap.owner (m : CompMap) (x sl : Nat) : Option (Nat × Nat × Bool) :=
  match m.exts.find? fun e => e.id == x && decide (e.first ≤ sl) && decide (sl ≤ e.last) with
  | some e => some (e.node, e.localSlot + sl - e.first, e.state == 2)
  | none => let e := m.idEnt x; if e.kind = 0 then none else some (e.node, sl, false)

/-- Identity, slot and offset of a hall address (R197). -/
def hallId (a : Nat) : Nat := bits a 63 48
def hallSlot (a : Nat) : Nat := bits a 47 32
def hallOff (a : Nat) : Nat := bits a 31 0

/-- Owner of a hall address under the current map. -/
def State.ownerOf (s : State) (a : Nat) : Option (Nat × Nat × Bool) := s.fab.map.owner (hallId a) (hallSlot a)
/-- The identity is a device or pool and not lost (R209). -/
def State.idOk (s : State) (a : Nat) : Bool := let e := s.fab.map.idEnt (hallId a); e.kind != 0 && !e.lost
/-- Own bay. -/
def State.bay (s : State) : Nat := s.fab.node / 4096
/-- The gateway function is on (08 R258). -/
def State.gateway (s : State) : Bool := s.obj 0x4205 1 == 1

/-- Pair (NEAR, FAR) for bay `b`, chosen by `n` (08 R254); none when the bay is unreachable. -/
def State.gwPair (s : State) (b n : Nat) : Option (Nat × Nat) :=
  let e := tblGet ⟨0, []⟩ s.fab.map.gws b
  if e.count = 0 then none else e.pairs[n % e.count]?

/-- DST_NODE toward `node`, and whether the packet leaves on trunk ports. -/
def State.hop (s : State) (node n : Nat) : Option (Nat × Bool) :=
  if node / 4096 = s.bay then some (node, false)
  else (s.gwPair (node / 4096) n).map fun p => if s.gateway && p.1 == s.fab.node then (p.2, true) else (p.1, false)

/-- Number that selects the pair for an address. -/
def pairNum (a : Nat) : Nat := hallId a + hallSlot a

/-! ### Images of packets (07 R211-R213; 08 R234-R238) -/

/-- Image of a request: its header (R211, R213) and payload. -/
def reqImage (q : LineReq) : List Byte :=
  leBytes 32 (q.operand.toNat + q.line.toNat * 2 ^ 64 + b2n (q.replay && !q.cmb) * 2 ^ 72 + b2n q.comb * 2 ^ 73 + q.op.toNat * 2 ^ 74
    + q.txn.toNat * 2 ^ 80 + q.srcNode.toNat * 2 ^ 96 + q.dstNode.toNat * 2 ^ 112 + q.addr.toNat * 2 ^ 128 + q.key.toNat * 2 ^ 192
    + q.epoch.toNat * 2 ^ 224) ++ q.payload
/-- Image of a response (R212). -/
def rspImage (r : LineRsp) : List Byte :=
  leBytes 32 (r.status.toNat * 2 ^ 48 + r.op.toNat * 2 ^ 74 + r.txn.toNat * 2 ^ 80 + r.srcNode.toNat * 2 ^ 96
    + r.dstNode.toNat * 2 ^ 112 + r.value.toNat * 2 ^ 128 + r.line.toNat * 2 ^ 192 + r.countM1.toNat * 2 ^ 200
    + r.hintNode.toNat * 2 ^ 208 + r.epoch.toNat * 2 ^ 224) ++ r.payload
/-- Header of a bulk packet as a number (08 R236), with DST_NODE and CE 0 as the tag covers it. -/
def bulkAad (p : BulkPkt) : List Byte :=
  leBytes 64 (p.msgId.toNat + p.hver.toNat * 2 ^ 64 + p.finalNode.toNat * 2 ^ 136 + b2n p.retx * 2 ^ 152 + p.sink.toNat * 2 ^ 154
    + p.typ.toNat * 2 ^ 156 + p.len.toNat * 2 ^ 163 + p.ts.toNat * 2 ^ 176 + p.xmit.toNat * 2 ^ 208 + p.floor.toNat * 2 ^ 240
    + p.srcNode.toNat * 2 ^ 288 + p.offset.toNat * 2 ^ 320 + p.msgLen.toNat * 2 ^ 352 + p.addr.toNat * 2 ^ 384
    + p.key.toNat * 2 ^ 448 + p.epoch.toNat * 2 ^ 480)
/-- Header of an answer likewise (08 R237). -/
def ansAad (a : BulkAns) : List Byte :=
  leBytes 64 (a.msgId.toNat + a.hver.toNat * 2 ^ 64 + a.typ.toNat * 2 ^ 72 + b2n a.ceEcho * 2 ^ 76 + a.status.toNat * 2 ^ 320
    + a.finalNode.toNat * 2 ^ 336 + a.srcNode.toNat * 2 ^ 352 + a.delay.toNat * 2 ^ 384 + a.hintNode.toNat * 2 ^ 400
    + a.offset.toNat * 2 ^ 416 + a.tsEcho.toNat * 2 ^ 448 + a.epoch.toNat * 2 ^ 480)
/-- The payload stays in staging until the message is complete: GET_DATA, and messages for the state engine and the gateway. -/
def bulkKept (p : BulkPkt) : Bool := p.typ == 3 || p.sink == 1 || p.sink == 3
/-- Image of a bulk packet: two header flits, the payload in whole flits, the trailer. -/
def bulkImage (p : BulkPkt) : List Byte :=
  leBytes 64 (leNat (bulkAad p) + p.dstNode.toNat * 2 ^ 304 + b2n p.ce * 2 ^ 153) ++ p.payload
    ++ List.replicate (32 * ceilDiv p.payload.length 32 - p.payload.length) 0 ++ leBytes 32 p.tag.toNat
/-- Image of an answer. -/
def ansImage (a : BulkAns) : List Byte := leBytes 64 (leNat (ansAad a) + a.dstNode.toNat * 2 ^ 368) ++ leBytes 32 a.tag.toNat
/-- Image of a packet. MAP_ACK, whose fields the manual does not place, holds EPOCH at [31:0] and the status at [47:32] of its one flit
(DESIGN CHOICE, log entry 19). -/
def Packet.image : Packet → List Byte
  | .lineReq q => reqImage q
  | .lineRsp r => rspImage r
  | .bulk p => bulkImage p
  | .answer a => ansImage a
  | .mapAck e st => leBytes 32 (e.toNat + st % 65536 * 2 ^ 32)
  | .keyx p _ => bulkImage p

/-! ### Ports (07 R200-R206) -/

def State.port (s : State) (p : Nat) : Port := s.fab.ports.getD p portReset
def State.setPort (s : State) (p : Nat) (x : Port) : State := s.modFab fun g => { g with ports := g.ports.set p x }
/-- The port carries packets. -/
def Port.up (p : Port) : Bool := p.state == 2 || p.state == 3
/-- Receive buffers by VC code (R203), which are a sender's initial credits. -/
def vcBuffers : List Nat := [192, 256, 64, 32]
/-- A trunk port of a gateway (08 R254). -/
def State.trunk (s : State) (p : Nat) : Bool := s.gateway && s.obj 0x4205 2 p == 1
/-- Frames that `n` flits fill. -/
def framesOf (n : Nat) : Nat := ceilDiv n 8
/-- Port `p` can take a packet of `n` flits on channel `vc` (R202, R204). -/
def State.usable (s : State) (p vc n : Nat) (trunk : Bool) : Bool :=
  let x := s.port p
  x.up && decide (n ≤ x.credits.getD vc 0) && decide (x.replay.length + framesOf n ≤ 256) && s.trunk p == trunk

/-- The next usable port after `from_`; one other than `avoid` where there is one (08 R235). -/
def State.nextPort (s : State) (from_ vc n : Nat) (trunk : Bool) (avoid : Option Nat) : Option Nat :=
  let l := ((List.range 18).map fun i => (from_ + 1 + i) % 18).filter fun p => s.usable p vc n trunk
  (l.find? fun p => some p != avoid).orElse fun _ => l.head?

/-! ### Link frames (07 R201-R204) -/

/-- Bits [95:0] of a control block and the flits, as the CRC covers them. -/
def frameBytes (f : LinkFrame) : List Byte :=
  f.data.flatMap (fun d => leBytes 32 d.toNat) ++
  leBytes 12 (f.flits.toNat + f.credits.toNat * 2 ^ 52 + f.cvc.toNat * 2 ^ 62 + b2n f.retry * 2 ^ 71 + f.ack.toNat * 2 ^ 72
    + f.seq.toNat * 2 ^ 84)
/-- A frame with its CRC. -/
def sealFrame (f : LinkFrame) : LinkFrame := { f with crc := crc32c (frameBytes f) }
/-- Highest SEQ received in order. -/
def Port.ackNow (x : Port) : BitVec 12 := BitVec.ofNat 12 (x.rxSeq + 4095)
/-- The virtual channel whose credits go back next: the lowest that owes some (DESIGN CHOICE, log entry 19). -/
def Port.owing (x : Port) : Option Nat := (List.range 4).find? fun v => x.owed.getD v 0 != 0

/-- The next frame that carries `data` under the FLITS code `code`, kept in the replay buffer: it acknowledges, asks for a resend where
one is due, and returns credits. -/
def Port.sendFrame (x : Port) (code : Nat) (data : List (BitVec 256)) : LinkFrame × Port :=
  let v := x.owing.getD 0
  let n := min 1023 (x.owed.getD v 0)
  let f := sealFrame {
    crc := 0, seq := BitVec.ofNat 12 x.txSeq, ack := x.ackNow, retry := x.retryOut, cvc := BitVec.ofNat 2 v, credits := BitVec.ofNat 10 n,
    flits := BitVec.ofNat 48 code, data := data }
  (f, { x with txSeq := (x.txSeq + 1) % 4096, replay := x.replay ++ [f], retryOut := false, owed := x.owed.set v (x.owed.getD v 0 - n),
               ackDue := false, ackSent := x.rxSeq })

/-- Flit `i` of a packet's image. -/
def flitAt (bs : List Byte) (i : Nat) : BitVec 256 := BitVec.ofNat 256 (leNat ((bs.drop (32 * i)).take 32))
/-- The frames that a packet of `n` flits on channel `vc` fills: FLITS codes and flits. A packet begins a frame, and no other follows it
there (DESIGN CHOICE, log entry 19). -/
def packFrames (vc n : Nat) (bs : List Byte) : List (Nat × List (BitVec 256)) :=
  (List.range (framesOf n)).map fun j =>
    let code := fun (i : Nat) => if 8 * j + i < n then (vc + (if 8 * j + i = 0 then 4 else 0) + 8) * 2 ^ (6 * i) else 0
    (((List.range 8).map code).foldl (· + ·) 0, (List.range 8).map fun i => flitAt bs (8 * j + i))

/-- Frames leave in order. -/
def Port.sendFrames (x : Port) (l : List (Nat × List (BitVec 256))) : List LinkFrame × Port :=
  l.foldl (fun a e => let r := a.2.sendFrame e.1 e.2; (a.1 ++ [r.1], r.2)) ([], x)
/-- Frames of port `p` leave. -/
def State.emitFrames (s : State) (p : Nat) (l : List LinkFrame) : State := l.foldl (fun t f => t.emit (.frame p f)) s

/-- A packet leaves on a port: credits are taken, and its frames are sent and kept for replay. -/
def State.sendPkt (s : State) (p vc n : Nat) (k : Packet) : State :=
  let x := s.port p
  let r := x.sendFrames (packFrames vc n k.image)
  ((s.setPort p { r.2 with credits := x.credits.set vc (x.credits.getD vc 0 - n) }).emitFrames p r.1).emit (.pkt p k)

/-- A frame with no flits is due: it returns credits, asks for a resend, or acknowledges frames that carried flits, or half a replay
buffer of any (DESIGN CHOICE, log entry 19). -/
def Port.idleDue (x : Port) : Bool :=
  x.up && decide (x.replay.length < 256)
    && (x.owing.isSome || x.retryOut || x.ackDue || decide (128 ≤ (x.rxSeq + 4096 - x.ackSent) % 4096))
/-- Ports send the frames with no flits that are due (R201, R204). -/
def State.idleFrames (s : State) : State :=
  s.each (List.range 18) fun t p =>
    if (t.port p).idleDue then let r := (t.port p).sendFrame 0 (List.replicate 8 0); (t.setPort p r.2).emit (.frame p r.1) else t

/-- `n` flits of a packet leave a receive buffer: their credits are owed (R204). -/
def Port.take (x : Port) (vc n : Nat) : Port :=
  let k := min n (x.rx.getD vc 0)
  { x with rx := x.rx.set vc (x.rx.getD vc 0 - k), heads := x.heads.set vc (x.heads.getD vc []).tail,
           owed := x.owed.set vc (x.owed.getD vc 0 + k) }
/-- Ticks since the first flit of the packet at the front of a buffer came, saturating at 0xFFFF (08 R237); 0 for a packet whose frames
no command brought (DESIGN CHOICE, log entry 48). -/
def State.waited (s : State) (p vc : Nat) : Nat :=
  match ((s.port p).heads.getD vc []).head? with | some t => min 65535 (s.tick - t) | none => 0
def State.takeFlits (s : State) (p vc n : Nat) : State := s.setPort p ((s.port p).take vc n)
/-- The messages of the fabric manager leave the MGT buffers as they come (DESIGN CHOICE, log entry 19). -/
def State.takeMgt (s : State) : State := s.each (List.range 18) fun t p => if (t.port p).rx.getD 3 0 = 0 then t else t.takeFlits p 3 32

/-- Flits of each channel that a frame carries (R201). -/
def flitsOn (code vc : Nat) : Nat := ((List.range 8).filter fun i => let c := bits code (6 * i + 5) (6 * i); bit c 3 && c % 4 == vc).length
/-- Packets of each channel whose first flit a frame carries. -/
def headsOn (code vc : Nat) : Nat :=
  ((List.range 8).filter fun i => let c := bits code (6 * i + 5) (6 * i); bit c 3 && bit c 2 && c % 4 == vc).length
/-- The flits of an accepted frame go to the receive buffers (R203). -/
def Port.fill (x : Port) (code t : Nat) : Port :=
  { x with rx := (List.range 4).map fun v => min (vcBuffers.getD v 0) (x.rx.getD v 0 + flitsOn code v),
           heads := (List.range 4).map fun v => x.heads.getD v [] ++ List.replicate (headsOn code v) t,
           ackDue := x.ackDue || (List.range 4).any fun v => flitsOn code v != 0 }

/-- Which of CMB and REQ a port serves next, given the flits at the head of each that waits: deficit round robin with quanta of 131 flits
by weight (R206; DESIGN CHOICE, log entry 19). -/
def Port.drr (x : Port) (cmb req : Option Nat) : Option (Bool × Port) :=
  match cmb, req with
  | none, none => none
  | some c, none => some (false, { x with drrReq := 0, drrOnReq := false, drrCmb := if c ≤ x.drrCmb then x.drrCmb else x.drrCmb + 131 })
  | none, some r => some (true, { x with drrCmb := 0, drrOnReq := true, drrReq := if r ≤ x.drrReq then x.drrReq else x.drrReq + 393 })
  | some c, some r =>
    if x.drrOnReq then
      if r ≤ x.drrReq then some (true, x) else some (false, { x with drrOnReq := false, drrCmb := x.drrCmb + 131 })
    else if c ≤ x.drrCmb then some (false, x) else some (true, { x with drrOnReq := true, drrReq := x.drrReq + 393 })
/-- The deficit after a packet of `n` flits of the class served. -/
def Port.drrSent (x : Port) (n : Nat) : Port :=
  if x.drrOnReq then { x with drrReq := x.drrReq - n } else { x with drrCmb := x.drrCmb - n }

/-- The packet leaves now, where a port can take it: a response or an MGT answer. A key exchange, on REQ, takes its class's turn as well
(R206), which `keyxOut` gives it. -/
def State.trySend (s : State) (w : WaitPkt) : Option State :=
  (s.nextPort s.fab.rotor w.vc w.flits w.trunk none).map fun p =>
    (s.sendPkt p w.vc w.flits w.pkt).modFab fun g => { g with rotor := p }

/-- Packets that waited for credits leave in order, MGT first, then RSP (R206). -/
def State.drainQ (s : State) : State :=
  let go := fun (a : State × List WaitPkt) (w : WaitPkt) =>
    match a.1.trySend w with | some t => (t, a.2) | none => (a.1, a.2 ++ [w])
  let of := fun (v : Nat) => s.fab.sendQ.filter (·.vc == v)
  let r := (of 3 ++ of 1).foldl go (s, [])
  r.1.modFab fun g => { g with sendQ := r.2 ++ of 0 }

/-- A packet that no command of its own sends: at once, or when credits come; a key exchange when its turn comes. -/
def State.send (s : State) (vc flits : Nat) (trunk : Bool) (k : Packet) : State :=
  let w : WaitPkt := ⟨vc, flits, trunk, k, none⟩
  match (if vc = 0 ∨ s.fab.sendQ.any (·.vc == vc) then none else s.trySend w) with
  | some t => t
  | none => s.modFab fun g => { g with sendQ := g.sendQ ++ [w] }

/-! ### Cipher of a flow (08 R238; 12 R352) -/

/-- Key stream applied. -/
def ctr (key nonce : Nat) (bs : List Byte) : List Byte := bs.mapIdx fun i b => b ^^^ Config.keyStream key nonce i

/-- Nonce of an answer to the transmission `xmit`. -/
def ansNonce (a : BulkAns) (xmit : Nat) : Nat :=
  xmit + (if a.typ = 8 then 1 else 2) * 2 ^ 32 + a.status.toNat % 4096 * 2 ^ 34 + b2n a.ceEcho * 2 ^ 46 + a.delay.toNat * 2 ^ 48
    + a.epoch.toNat * 2 ^ 64
/-- Key serving transmission `xmit`: of the two, the one whose START_XMIT is the latest at or before it, in serial
order (12 R353). -/
def keyFor (cur prev : Option FKey) (xmit : Nat) : Option Nat :=
  let before := fun (k : FKey) => decide ((xmit + 2 ^ 32 - k.start % 2 ^ 32) % 2 ^ 32 < 2 ^ 31)
  match cur, prev with
  | some c, p => if before c then some c.key else (p.filter before).map (·.key)
  | none, p => (p.filter before).map (·.key)

/-- No keys. -/
def noKeys : FlowKeys := ⟨none, none, none, none, 0, none⟩
def State.fkeys (s : State) (node : Nat) : FlowKeys := tblGet noKeys s.bulk.keys node
def State.setKeys (s : State) (node : Nat) (k : FlowKeys) : State := s.modBulk fun g => { g with keys := tblPut noKeys g.keys node k }

/-! ### The flow cache (08 R240-R242) -/

def State.flow (s : State) (node : Nat) : Option Flow := tblFind s.bulk.flows node
def State.setFlow (s : State) (node : Nat) (f : Flow) : State := s.modBulk fun g => { g with flows := tblIns g.flows node f }
def State.updFlow (s : State) (node : Nat) (f : Flow → Flow) : State := s.modBulk fun g => { g with flows := tblMod g.flows node f }

/-- The peer's entry is used (R240). -/
def State.useFlow (s : State) (node : Nat) : State :=
  (s.modBulk fun g => { g with useCtr := g.useCtr + 1 }).updFlow node fun f => { f with used := s.bulk.useCtr + 1 }

/-- Highest number below which every message of the sending side is acknowledged or ended (R239). -/
def Flow.floor (f : Flow) : Nat := match f.msgs with | [] => f.nextSeq - 1 | (k, _) :: _ => k - 1

/-- No message is outstanding, none is partly received and no FLUSH is pending. -/
def Flow.quiet (f : Flow) : Bool :=
  f.msgs.isEmpty && f.waiting.isEmpty && f.placeWait.isEmpty && f.flush.isNone && f.parts.isEmpty && f.pendFlush.isEmpty

/-- Bits [51:20] of the counter. -/
def State.stamp (s : State) : Nat := s.tick / 2 ^ 20 % 2 ^ 32

/-- Device-local address of the low-water record of `node` and role `r` (R241; 01 R26): with the next die where the memory island of
its die left service at start-up (16 R449). -/
def State.lwAddr (s : State) (node r : Nat) : Nat :=
  let h := node * 0x9E37 % 65536
  let d := h % 4
  (if s.islandUp d then d * 0x3000000000 + 0x2FC0000000 else (d + 1) % 4 * 0x3000000000 + 0x2FC1000000) + 16 * (2 * (h / 4) + r)
/-- The record in force of `node` and role `r`. -/
def State.lwGet (s : State) (node r : Nat) : Option LwRec :=
  let v := leNat (memRead s.ses.hbm (s.lwAddr node r) 16)
  if bit v 0 && bit v 1 == (r == 1) then some ⟨bits v 127 96, bits v 95 80, bits v 79 32⟩ else none
/-- A record is written; none: it is discarded. -/
def State.lwPut (s : State) (node r : Nat) (w : Option LwRec) : State :=
  let v := match w with
    | some w => w.stamp % 2 ^ 32 * 2 ^ 96 + w.peerEpoch % 65536 * 2 ^ 80 + w.seq % 2 ^ 48 * 2 ^ 32 + r * 2 + 1
    | none => 0
  s.modSes fun g => { g with hbm := memWrite g.hbm (s.lwAddr node r) (leBytes 16 v) }

/-- The entry of a peer as its low-water records have it; W starts at 262,144 (R248). -/
def State.flowInit (s : State) (node : Nat) : Flow :=
  let a := s.lwGet node 0
  let b := s.lwGet node 1
  { nextSeq := (a.map (·.seq)).getD 1, win := 262144, inflight := 0, ackedCut := 262144, srtt := none, rot := 17, xmit := 0,
    msgs := [], waiting := [], placeWait := [], flush := none, hasRecv := b.isSome, peerEpoch := (b.map (·.peerEpoch)).getD 0,
    lw := (b.map (·.seq)).getD 0, doneMap := [], parts := [], pendFlush := [], used := s.bulk.useCtr }

/-- The least recently used quiet entry. -/
def State.victim (s : State) : Option Nat :=
  (s.bulk.flows.foldl (fun (b : Option (Nat × Nat)) (n, f) =>
    if !f.quiet then b else match b with
      | some (_, u) => if f.used < u then some (n, f.used) else b
      | none => some (n, f.used)) none).map (·.1)

/-- A quiet entry is written to the low-water table; its keys are erased (12 R353). -/
def State.evict (s : State) (node : Nat) : State :=
  match s.flow node with
  | none => s
  | some f =>
    let t := (s.modBulk fun g => { g with flows := tblDel g.flows node, keys := tblDel g.keys node }).lwPut node 0
      (some ⟨s.stamp, 0, f.nextSeq⟩)
    (if f.hasRecv then t.lwPut node 1 (some ⟨s.stamp, f.peerEpoch, f.lw⟩) else t).count 0x4203 2

/-- The peer's entry is in the cache: it was, it is loaded, or every entry is busy. A load reads the low-water records (16 R475). -/
def State.flowLoad (s : State) (node : Nat) : Option State :=
  let t := s.modBulk fun g => { g with useCtr := g.useCtr + 1 }
  let load := fun (u : State) => (u.devRead (u.lwAddr node 0) 32).setFlow node (u.flowInit node)
  match t.flow node with
  | some f => some (t.setFlow node { f with used := t.bulk.useCtr })
  | none =>
    if t.bulk.flows.length < 4096 then some (load t)
    else t.victim.map fun v => load (t.evict v)

/-! ### Messages (08 R233, R234, R239) -/

/-- A message to be sent. -/
def bulkMsg (typ ctx cls sink : Nat) (key : W32) (addr : Nat) (len : Nat) (data : List Byte) (u : Purpose) : BulkMsg :=
  { typ := typ, ctx := ctx, cls := cls, sink := sink, key := key, addr := BitVec.ofNat 64 addr, len := len, data := data,
    purpose := u, pkts := [], next := 0, first := none, rank := 3, order := 0, epoch := 0 }

/-- A message waits in its flow, or for an entry of the cache; the map in force has routed it, where no hint has. -/
def State.bulkIssue (s0 : State) (node : Nat) (m0 : BulkMsg) : State :=
  let m := { m0 with epoch := if m0.epoch = 0 then s0.fab.map.epoch else m0.epoch, order := s0.fab.nextOrder }
  let s := s0.modFab fun g => { g with nextOrder := g.nextOrder + 1 }
  match s.flowLoad node with
  | some t => t.updFlow node fun f => { f with waiting := f.waiting ++ [m] }
  | none => s.modBulk fun g => { g with noFlow := g.noFlow ++ [(node, m)] }

/-- Every packet has been sent once. -/
def BulkMsg.allSent (m : BulkMsg) : Bool := if m.typ = 2 then decide (0 < m.next) else decide (m.len ≤ m.next)
/-- Flits of the packet at `off` (R234). -/
def BulkMsg.flits (m : BulkMsg) (off : Nat) : Nat := if m.typ = 2 then 3 else 3 + ceilDiv (m.counted off) 32
/-- Every packet is acknowledged (R249). -/
def BulkMsg.done (m : BulkMsg) : Bool := m.allSent && m.pkts.all fun e => e.2.acked
/-- Resource a message is charged to, and its cost: a GET costs what it fetches (10 R306). -/
def BulkMsg.cost (m : BulkMsg) : Nat := m.len

/-- Largest and least retransmission timeouts in ticks (R247). -/
def rtoMax : Nat := 64 * ticksPerMs
def State.rto (s : State) (f : Flow) : Nat := max (s.obj 0x4202 4 * ticksPerUs) (4 * f.srtt.getD 0)

/-- `x` stands at or beyond `y` in serial order. -/
def serialGe (x y : Nat) : Bool := decide ((x + 2 ^ 32 - y % 2 ^ 32) % 2 ^ 32 < 2 ^ 31)

/-- The key of the flow's next transmission, if it has one: not beyond the 2^31 values of a key, nor the first XMIT of an agreement still
open (12 R353). -/
def State.txKey (s : State) (node : Nat) (f : Flow) : Option Nat :=
  let k := s.fkeys node
  if k.hello.any fun h => serialGe f.xmit h.start then none else keyFor k.tx k.txPrev f.xmit

/-- Numbers that name a transmission. -/
def lo32 (n : Nat) : Nat := n % 2 ^ 32

/-- A packet of the flow to `node` under its next XMIT (R236, R238, R352). -/
def State.bulkPkt (s : State) (node hop key seq off : Nat) (retx : Bool) (f : Flow) (m : BulkMsg) (data : List Byte) : BulkPkt :=
  let p0 : BulkPkt := {
    epoch := m.epoch, key := m.key, addr := m.addr, msgLen := BitVec.ofNat 32 m.len, offset := BitVec.ofNat 32 off,
    dstNode := BitVec.ofNat 16 hop, srcNode := BitVec.ofNat 16 s.fab.node, floor := BitVec.ofNat 48 f.floor,
    xmit := BitVec.ofNat 32 f.xmit, ts := BitVec.ofNat 32 s.tick, len := BitVec.ofNat 13 data.length, typ := BitVec.ofNat 4 m.typ,
    sink := BitVec.ofNat 2 m.sink, ce := false, retx := retx, finalNode := BitVec.ofNat 16 node, hver := 1,
    msgId := BitVec.ofNat 64 (seq + s.dev.bootEpoch * 2 ^ 48), payload := ctr key f.xmit data, tag := 0 }
  { p0 with tag := Config.gcmTag key f.xmit (bulkAad p0) p0.payload }

/-- Packet `off` of message `seq` of flow `node` leaves on `port` (R235, R236, R247). -/
def State.txPkt (s : State) (node seq off port hop : Nat) (key : Nat) (f : Flow) (m : BulkMsg) : State :=
  let old := tblFind m.pkts off
  let n := m.counted off
  let data := if m.typ = 2 then [] else (m.data.drop off).take n
  let p := s.bulkPkt node hop key seq off old.isSome f m data
  let st : PktSt := match old with
    | some o => { o with sentAt := s.tick, timeout := min rtoMax (2 * o.timeout), port := port, again := false, remap := false,
                         tx := ((lo32 s.tick, lo32 f.xmit) :: o.tx).take 3 }
    | none => { sentAt := s.tick, timeout := s.rto f, port := port, acked := false, again := false, remap := false, waitTill := 0,
                tx := [(lo32 s.tick, lo32 f.xmit)] }
  let m' := { m with pkts := tblIns m.pkts off st, next := if old.isSome then m.next else off + max 1 n,
                     first := some (m.first.getD s.tick) }
  let s1 := (s.sendPkt port 0 (m.flits off) (.bulk p)).setFlow node
    { f with msgs := tblIns f.msgs seq m', xmit := (f.xmit + 1) % 2 ^ 32, rot := port,
             inflight := if old.isSome then f.inflight else f.inflight + n }
  (if old.isSome then s1.count 0x4204 2 else s1).useFlow node

/-! ### What waits at a port (10 R307) -/

/-- Last tick at which a packet of a message may go out (R247). -/
def horizon (first : Nat) : Nat := first + 1000 * ticksPerMs
/-- Packets of the message may still go out. -/
def State.inTime (s : State) (m : BulkMsg) : Bool := m.first.all fun t => decide (s.tick ≤ horizon t)

/-- The first packet due to be resent. -/
def State.dueAgain (s : State) (f : Flow) : Option (Nat × Nat) :=
  f.msgs.findSome? fun e =>
    if !s.inTime e.2 then none
    else (tblFirst e.2.pkts fun _ p => p.again && !p.acked && decide (p.waitTill ≤ s.tick)).map fun p => (e.1, p.1)

/-- The first message that has packets not yet sent. -/
def State.openMsg (s : State) (f : Flow) : Option (Nat × BulkMsg) := tblFirst f.msgs fun _ m => !m.allSent && s.inTime m

/-- The port by which packet `off` of a message would leave: the next usable one of the flow's rotation (R235). -/
def State.bulkPort (s : State) (node : Nat) (f : Flow) (m : BulkMsg) (off : Nat) : Option Nat :=
  (s.hop node (pairNum m.addr.toNat)).bind fun h => s.nextPort f.rot 0 (m.flits off) h.2 ((tblFind m.pkts off).map (·.port))

/-- The item that a waiting message is. -/
def BulkMsg.item (m : BulkMsg) : PortItem := ⟨0, m.flits 0, if 256 ≤ m.ctx then 256 else m.ctx, m.rank, m.order⟩
/-- The item that the next packet of a message begun is: its start has been charged. -/
def BulkMsg.more (m : BulkMsg) (off : Nat) : PortItem := ⟨0, m.flits off, 256, 0, m.order⟩

/-- The message may start: the flow tracks fewer than 256, its window has room, and the context's budget allows it (R239, R248). -/
def State.mayBegin (s : State) (f : Flow) (m : BulkMsg) : Bool :=
  decide (f.msgs.length < 256) && decide (f.inflight + m.counted 0 ≤ f.win)
    && (decide (256 ≤ m.ctx) || s.mayStart m.ctx m.cls (m.rank == 0))

/-- What a flow has waiting, with the port each would take: what is due again first, then the rest of a message begun, then its new
messages. -/
def State.flowItems (s : State) (node : Nat) (f : Flow) : List (Nat × PortItem) :=
  if (s.txKey node f).isNone then []
  else
    let at_ := fun (m : BulkMsg) (off : Nat) (i : PortItem) => ((s.bulkPort node f m off).map fun p => (p, i)).toList
    match (s.dueAgain f).bind fun a => (tblFind f.msgs a.1).map fun m => (a.2, m) with
    | some (off, m) => at_ m off (m.more off)
    | none => match s.openMsg f with
      | some (_, m) => if f.inflight + m.counted m.next ≤ f.win then at_ m m.next (m.more m.next) else []
      | none => (f.waiting.filter (s.mayBegin f)).flatMap fun m => at_ m 0 m.item

/-- What waits at port `p` of the bulk transport. -/
def State.bulkItems (s : State) (p : Nat) : List PortItem :=
  (s.bulk.flows.flatMap fun e => s.flowItems e.1 e.2).filterMap fun e => if e.1 = p then some e.2 else none

/-- Of items at a port, the one whose turn it is: those beyond fair queueing in order; then the context with the least finish tag, and
of its items the oldest of the highest class (10 R287, R307). -/
def State.itemPick (s : State) (p : Nat) (l : List PortItem) : Option PortItem :=
  let first := fun (l : List PortItem) => l.foldl (fun b i => match b with
    | none => some i
    | some (j : PortItem) => if i.rank < j.rank ∨ (i.rank = j.rank ∧ i.order < j.order) then some i else b) none
  let out := l.filter fun i => decide (256 ≤ i.ctx)
  if !out.isEmpty then first out
  else match s.fqPick (32 + p) (l.map (·.ctx)) with
    | none => none
    | some c => first (l.filter fun i => i.ctx == c)

end Sys2Proof.Machine
end

