-- ==== Sys2Proof/Machine/Loss.lean ====
section
/-! DEFINITION. Lost pages and the loss sweep (06 R190-R192), HBM lines that fail and what they take with them (16 R443-R447), and
finding the session a command names (05 R127, R128). -/

namespace Sys2Proof.Machine

/-- The session goes to LOST with the event ST_LOST (05 R151). -/
def State.goLost (s : State) (h : Nat) (x0 x : Session) : State :=
  let y := ({ x with ttlDeadline := 0 }.recount (s.sbind x).lgn.toNat).goto s.tick .lost
  (s.setSess h y).sesEvent h x0 y 1 stLost x0.move.kind

/-- No copy of the directory survives: every entry is lost (R191). -/
def State.loseAll (s : State) (h : Nat) (x : Session) : State :=
  let t := (s.wipe x).moveEnd h
  let y : Session := { x with dir := dirNone, pdir := none, lostFirst := 0, lostPages := x.pages, move := moveNone, runs := [],
                              dirRun := none, placed := [], sent := [], demoting := false, extWait := false, dual := false,
                              ttlDeadline := 0 }
  let z := y.goto t.tick .lost
  (t.setSess h z).sesEvent h x z 1 stLost x.move.kind

/-- The last page has landed (R151, R183): the session takes its transition. A LOST session stays LOST. -/
def State.reviveCheck (s : State) (h : Nat) : State :=
  match s.sess h with
  | none => s
  | some x =>
    if x.pdir.isNone || x.extWait || x.dir.ents.any (fun e => e.2.copyPend) then s
    else if x.state = .reviving && x.mig = .none then
      let y := x.goto s.tick (if x.stepPins = 0 then .idle else .active)
      let t := (s.setSess h { y with parkAt := s.dev.nclk }).sesEvent h x y 1 stOk 2
      if x.move.held then t else t.dropParked h
    else if x.state = .lost then (s.setSess h { x with move := { x.move with held := false } }).dropParked h
    else if x.state = .parked || x.move.held then s
    else if x.move.kind = 2 then s.dropParked h
    else s.freeParked h

/-- Where a directory in a lease is read, as an entry (R191). -/
def dirPte (x : Session) (d : Dir) : Pte := { pteNone with valid := true, tier := d.tier, frame := d.root, dual := x.dual }

/-- The lease of the lost one of the two copies of an entry. -/
def State.goneLease (s : State) (ctx : Nat) (e : Pte) : Nat :=
  let l := frameLease e.frame
  if s.leaseLost ctx l then l else (s.paired ctx l).getD l
/-- The record of a dual copy in lease `l`, lost while its partner survives (16 R443). -/
def State.dualRecord (s : State) (h : Nat) (x : Session) (n l : Nat) : State :=
  let g := max 1 (s.sbind x).lgn.toNat
  s.record { sev := 1, code := 0x0018, source := 0x10, unit := l, ctx := x.ctx, handle := some h, addr := n / g % 2 ^ 14 + n % g * 2 ^ 14 }
/-- The record for an entry as it stood before the loss. -/
def State.dualLost (s : State) (h : Nat) (x : Session) (n : Nat) (e : Pte) : State := s.dualRecord h x n (s.goneLease x.ctx e)
/-- The records that a sweep left to the next read of the extent, for the entries of `d` that survive. -/
def State.dueRecords (s : State) (h : Nat) (x : Session) (d : Dir) : State :=
  s.each x.extDue fun t e => if (d.ent e.1).valid then t.dualRecord h x e.1 e.2 else t

/-- Entry `n` of the session's own directory is swept. -/
def State.sweepEnt (h : Nat) (a : State × Session) (n : Nat) (e : Pte) : State × Session :=
  let e' := a.1.readPte a.2.ctx e
  if e' = e then a
  else
    let x := { a.2 with dir := a.2.dir.setEnt n e' }
    if e'.lost then (a.1.copyFree x.ctx e, x) else (a.1.dualLost h x n e, x)

/-- Entry `n` of the parked directory of a revival is lost, with its copy: a page not landed is lost, its entry as it stood but for
that (05 R138), a landed one has no parked copy any more. -/
def State.parkedLost (a : State × Session) (n : Nat) (e : Pte) : State × Session :=
  let c := a.2.dir.ent n
  (a.1.copyFree a.2.ctx e, { a.2 with
    dir := a.2.dir.setEnt n (if c.copyPend then { c with valid := false, lost := true, copyPend := false } else { c with dirty := true })
    pdir := a.2.pdir.map fun d => d.setEnt n pteNone })

/-- Entry `n` of the parked directory of a revival is swept. -/
def State.sweepParked (h : Nat) (a : State × Session) (n : Nat) (e : Pte) : State × Session :=
  let e' := a.1.readPte a.2.ctx e
  if e' = e then a
  else if e'.lost then State.parkedLost a n e
  else (a.1.dualLost h a.2 n e, { a.2 with pdir := a.2.pdir.map fun d => d.setEnt n e' })

/-- An entry of a directory in a lease is swept without a read of the extent: it stands as it will be read, and its record, or the
loss, is due then (R191). -/
def State.sweepOut (a : State × Session × Dir) (n : Nat) (e : Pte) : State × Session × Dir :=
  let e' := a.1.readPte a.2.1.ctx e
  if e' = e then a
  else if e'.lost then (a.1.copyFree a.2.1.ctx e, a.2.1, a.2.2.setEnt n e')
  else (a.1, { a.2.1 with extDue := a.2.1.extDue ++ [(n, a.1.goneLease a.2.1.ctx e)] }, a.2.2.setEnt n e')

/-- A demotion whose source is lost: copies already placed are the session's copies now (R192). -/
def State.sweepDemote (a : State × Session) (n : Nat) (e : Pte) : State × Session :=
  let x := a.2
  match tblFind x.runs n with
  | some o =>
    let two := (a.1.paired x.ctx x.move.lease).isSome
    if (tblFind x.placed n).isSome && (!two || (tblFind x.placed (n + 2 ^ 32)).isSome) then
      let tier := ((a.1.lease x.ctx x.move.lease).map (·.rcd.tier.toNat)).getD 0
      (a.1.copyFree x.ctx e, { x with dir := x.dir.setEnt n { e.bump with tier := tier, frame := leaseFrame x.move.lease o, dual := two },
                                      runs := tblDel x.runs n })
    else (a.1.runFree x.ctx x.move.lease o, { x with runs := tblDel x.runs n })
  | none => a

/-- The lease a session's parked copies lie in is lost: some entry or its directory reads otherwise. -/
def State.touched (s : State) (x : Session) (d : Dir) : Bool :=
  (decide (2 ≤ d.tier) && s.readPte x.ctx (dirPte x d) != dirPte x d) || d.ents.any fun e => s.readPte x.ctx e.2 != e.2

/-- Some entry of the session's directory is lost that `x0` did not have lost, or the session, not LOST yet, has one. -/
def Session.newlyLost (x x0 : Session) : Bool :=
  x.dir.ents.any fun e => e.2.lost && (!(x0.dir.ent e.1).lost || x0.state != .lost)

/-- A demotion that its source's loss ends: what it has taken, but for the placed copies that are the session's now, is freed
(R192). R192 names neither an event nor a status for it, and says nothing of a dual session whose partner copies survive: no event is
posted, the placed copies stay in DEMOTE_TO and the rest on the partner (DESIGN CHOICE, log entry 39). -/
def State.demoteEnd (s : State) (h : Nat) (x : Session) : State × Session :=
  let y := { x with demoting := false, extWait := false, move := moveNone, runs := [], dirRun := none, placed := [], sent := [] }
  (((s.runsFree x x.move.lease).setSess h y).moveEnd h, y)

/-- The sweep of one session (R191, R192). -/
def State.sweepSess (s : State) (h : Nat) : State :=
  match s.sess h with
  | none => s
  | some x0 =>
    if !x0.sweep then s
    else
      let x := { x0 with sweep := false }
      let s0 := s.setSess h x
      if x.state = .free then s0
      else if 2 ≤ x.dir.tier then
        let r := s.readPte x.ctx (dirPte x x.dir)
        if r.lost then s0.loseAll h x
        else if !s.touched x x.dir then s0
        else
          let a := x.dir.ents.foldl (fun a e => State.sweepOut a e.1 e.2) (s0, x, x.dir)
          let y := if r = dirPte x x.dir then { a.2.1 with dir := a.2.2 } else { a.2.1 with dual := false, dir := { a.2.2 with root := r.frame } }
          if x.demoting then let b := a.1.demoteEnd h y; b.1.setSess h b.2 else a.1.setSess h y
      else
        match x.pdir with
        | some d =>
          if x.state = .idle && x.move.held then (if s.touched x d then s0.unhold h else s0)
          else if x.extWait && (s.readPte x.ctx (dirPte x d)).lost then s0.loseAll h x
          else
            let r := s.readPte x.ctx (dirPte x d)
            let rooted := fun (p : Dir) => if 2 ≤ d.tier && !r.lost then { p with root := r.frame } else p
            if x.extWait then
              let a := d.ents.foldl (fun a e => State.sweepOut a e.1 e.2) (s0, x, d)
              a.1.setSess h { a.2.1 with pdir := some (rooted a.2.2) }
            else
              let a := d.ents.foldl (fun a e => State.sweepParked h a e.1 e.2) (s0, x)
              let t := a.1.dueRecords h x d
              let y := { a.2 with pdir := some (rooted (a.2.pdir.getD dirNone)), extDue := [] }
              if y.newlyLost x then t.goLost h x y else t.setSess h y
        | none =>
          let hit := s.touched x x.dir
          let a0 := if x.demoting && hit then x.dir.ents.foldl (fun a e => State.sweepDemote a e.1 e.2) (s0, x) else (s0, x)
          let a := a0.2.dir.ents.foldl (fun a e => State.sweepEnt h a e.1 e.2) a0
          let b := if x.demoting && hit then a.1.demoteEnd h a.2 else a
          if b.2.newlyLost x then b.1.goLost h x b.2 else b.1.setSess h b.2

/-- The entries of a directory extent are read (R191): each is rewritten as it reads, and the session is LOST where one is
lost. -/
def State.sweepExtent (s : State) (h : Nat) (x : Session) : State :=
  let a := x.dir.ents.foldl (fun a e => State.sweepEnt h a e.1 e.2) (s.dueRecords h x x.dir, { x with extDue := [] })
  if a.2.newlyLost x then a.1.goLost h x a.2 else a.1.setSess h a.2

/-! ### HBM lines that fail (01 R25, R26; 16 R443-R447) -/

/-- Slab of an HBM line. -/
def lineSlab (l : Nat) : Nat := l / 32768
/-- The line lies in its die's device area. -/
def inDeviceArea (l : Nat) : Bool := decide (slabsUsable ≤ lineSlab l % slabsPerDie)
/-- Lines of HBM (768 GiB). -/
def hbmLines : Nat := 4 * 98304 * 32768

/-! ### Memory encryption (12 R342) -/

/-- The raw bytes of a 64-byte line that holds `bs` under a key: XTS, with the line's number as tweak. -/
def rawBytes (key l : Nat) (bs : List Byte) : List Byte := (List.range 64).map (Config.xts key l bs)
/-- Context whose slab a line of HBM lies in. -/
def State.lineCtx (s : State) (l : Nat) : Option Nat := (tblFind s.ses.slabs (lineSlab l)).map (·.ctx)
/-- The memory key of a context. -/
def State.memKey (s : State) (c : Nat) : Option Nat := (tblFind s.sec.ctx c).map (·.memKey)
/-- Key under which the channel controller writes a line outside context memory: the device key in the device area, else its
context's. -/
def State.lineKey (s : State) (l : Nat) : Option Nat := if inDeviceArea l then some s.sec.devKey else (s.lineCtx l).bind s.memKey
/-- A byte of a device area that belongs to a session descriptor: the descriptor of the handle whose place it is (01 R26; 05 R129). The
cache writes through (DESIGN CHOICE, log entry 64). -/
def State.descByte (s : State) (h i : Nat) : Byte := match s.sess h with
  | some x => BitVec.ofNat 8 (sessNum x / 2 ^ (8 * i))
  | none => 0
/-- The 64 bytes of a line outside context memory. -/
def State.hbmLine (s : State) (l : Nat) : List Byte :=
  let o := 64 * l % 0x3000000000
  if 0x2F80000000 ≤ o ∧ o < 0x2FC0000000 then
    (List.range 64).map fun i => s.descByte (4 * ((o - 0x2F80000000) / 256) + lineDie l) (o % 256 + i)
  else memRead s.ses.hbm (64 * l) 64
/-- What the stacks hold of a line of page and directory frames or of the device area. State holds the plaintext, which the channel
controllers give every reader inside the device; a line that no key serves cannot be read (DEDUCED, log entry 64). -/
def State.rawLine (s : State) (l : Nat) : Option (List Byte) := (s.lineKey l).map fun k => rawBytes k l (s.hbmLine l)
/-- What the stacks hold of the line of context memory at a context address. -/
def State.rawCtxLine (s : State) (ctx addr : Nat) : Option (List Byte) :=
  (s.memKey ctx).map fun k => rawBytes k (ctxLine (ckey ctx addr)) (s.cread ctx (addr / 64 * 64) 64)

/-! ### Retirement marks (R447) -/

/-- Slab `k` is marked; one that holds nothing and is scrubbed retires at once (DEDUCED, log entry 38). -/
def State.markSlab (s : State) (k : Nat) : State :=
  if (tblFind s.err.marked k).isSome || (tblFind s.err.retired k).isSome || (tblFind s.err.retiredNow k).isSome then s
  else (s.modErr fun g => { g with marked := tblIns g.marked k () }).retireIdle k

/-- 24 hours of TCLK. -/
def day : Nat := 54000000000000

/-- A corrected error in a line (R443, R447): counted, recorded, and counted toward retirement. -/
def State.hbmCe (s : State) (l : Nat) : State :=
  let f := l / 64
  let ts := s.tick :: ((tblFind s.err.ces f).getD []).filter fun t => decide (s.tick < t + day)
  let s1 := ((s.count 0x3001 1 (lineStack l)).record
    { sev := 0, code := 0x0001, source := 0x01, unit := lineChannel l, addr := 64 * l }).modErr fun g => { g with ces := tblIns g.ces f ts }
  if inDeviceArea l then s1
  else if s.obj 0x9004 1 ≤ ts.length then s1.markSlab (lineSlab l)
  else s1

/-- The session and entry whose Tier 1 payload holds line `l`. -/
def State.pageOf (s : State) (l : Nat) : Option (Nat × Nat) :=
  s.ses.tbl.findSome? fun e =>
    let b := s.sbind e.2
    (e.2.dir.ents.find? fun a => (a.2.valid || a.2.lost) && a.2.tier == 1 && decide (64 * a.2.frame ≤ l)
      && decide (l < 64 * a.2.frame + ceilDiv (pageBytes b a.2.fmt) 64)).map fun a => (e.1, a.1)

/-- The context whose data line `l` holds, with the session where it is a page's: that of its slab, or of the byte of context memory
in the frame (R440). -/
def State.lineOwner (s : State) (l : Nat) : Option (Nat × Option Nat) :=
  match (s.pageOf l).bind fun a => s.sess a.1 with
  | some x => some (x.ctx, (s.pageOf l).map (·.1))
  | none => ((s.lineCtx l).orElse fun _ => (s.ses.cmem.find? fun e => ctxFrame (e.1 / 4096) == l / 64).map fun e => e.1 / 2 ^ 48).map fun c =>
    (c, none)

/-- A read of a line that fails (R443, R444, R475): severity `sev`, status of the operation it ends, whose it is. A patrol that finds
it (`sev` 1) ends no operation: its record has STATUS 0 and names the context whose data it hits (R440); service degrades where that is
nobody's alone (12 R360). -/
def State.hbmUe (s : State) (l sev status ctx : Nat) (handle : Option Nat) : State :=
  if inDeviceArea l then s.devUe l
  else
    let e : ErrIn := { sev := sev, code := 0x0002, source := 0x01, unit := lineChannel l, status := status, ctx := ctx, handle := handle,
                       addr := 64 * l }
    let o := s.lineOwner l
    let e' := if sev = 1 then
        { e with status := 0, ctx := (o.map (·.1)).getD 0xFF, handle := o.bind (·.2), shared := o.isNone } else e
    (((s.count 0x3001 2 (lineStack l)).record e').modErr fun g => { g with
      poison := tblIns g.poison l (), failed := tblDel g.failed l }).markSlab (lineSlab l)

/-- An operation of context `ctx` reads a line that fails: it ends with ST_HBM_UE. -/
def State.ueRead (s : State) (l ctx : Nat) (handle : Option Nat) : State :=
  (s.hbmUe l 2 stHbmUe ctx handle).count 0x9005 1

/-! ### Pages that fail (R446) -/

/-- Page `n` of session `h` is marked lost in this cycle of NCLK (R445). -/
def State.noteLost (s : State) (h n : Nat) : State := s.modErr fun g => { g with
  lostNow := (h, n) :: (if g.lostAt = s.dev.nclk then g.lostNow else []), lostAt := s.dev.nclk }

/-- A page of a session is marked lost, and the session goes to LOST from any state (05 R151); a park or demotion gives up the runs
it took, and a migration goes on from LOST (DEDUCED, log entry 68). `ue`: the loss counts among those of R446 (object 0x9005.2). -/
def State.pageLost (s : State) (h n : Nat) (ue : Bool := true) : State :=
  match s.sess h with
  | none => s
  | some x0 =>
    let e := x0.dir.ent n
    let s1 := (s.count 0x9005 2 0 (b2n ue)).noteLost h n
    let lose := fun (x : Session) => { x with dir := x.dir.setEnt n { e with valid := false, lost := true, copyPend := false } }
    if x0.move.kind = 1 ∨ x0.move.kind = 3 then
      let t := (s1.runsFree x0 x0.move.lease).moveEnd h
      match t.sess h with
      | some x => t.goLost h x0 { lose x with demoting := false }
      | none => t
    else s1.goLost h x0 (lose x0)

/-- A page no longer counts as landed: it is landed again from its parked copy, or lost. -/
def State.pageBad (s : State) (h n : Nat) : State :=
  match s.sess h with
  | none => s
  | some x =>
    let e := x.dir.ent n
    let p := s.readPte x.ctx ((x.pdir.map fun d => d.ent n).getD pteNone)
    if !e.landed then s
    else if p.valid && decide (2 ≤ p.tier) && (x.move.held || x.move.suspended) && !decide (n ∈ x.relanded) then
      let r := match s.unitAlloc x.ctx x.homeDie (.pages (footprint (s.sbind x) e.fmt)) with
        | some (f, t) => (f, t.unitFree e.frame)
        | none => (e.frame, s)
      let e' : Pte := { e with frame := r.1, copyPend := true, gen := if r.1 = e.frame then e.gen else e.gen + 1 }
      (r.2.setSess h { x with dir := x.dir.setEnt n e', reland := n :: x.reland }).modRun fun g => { g with
        steps := tblMap g.steps fun _ q =>
          { q with undo := q.undo.map fun u => if u.handle = h ∧ u.n = n then { u with gen := e'.gen } else u } }
    else s.pageLost h n

/-- Entry `n` lies below the directory frame `f`. -/
def Dir.below (d : Dir) (f n : Nat) : Bool :=
  d.root == f || d.leaves.any (fun e => e.2 == f && e.1 == n / 256) || d.inter.any fun e => e.2 == f && e.1 == n / 131072 + 1

/-- Entries below frame `f` of the session's own directory are lost with it, and the runs of their parked copies are freed (R191). -/
def State.leafLost (s : State) (h : Nat) (x : Session) (f : Nat) : State :=
  let gone := x.dir.ents.filter fun e => x.dir.below f e.1 && e.2.valid
  if gone.isEmpty then s
  else
    let t := (s.each gone fun t e => (if 2 ≤ e.2.tier then t.copyFree x.ctx e.2 else t).noteLost h e.1).count 0x9005 2 0 gone.length
    t.goLost h x { x with dir := gone.foldl (fun d e => d.setEnt e.1 { e.2 with valid := false, lost := true, copyPend := false }) x.dir }

/-- Entries below frame `f` of a parked directory in Tier 1 are lost with their copies; a hint that is held ends. -/
def State.parkedBad (s : State) (h : Nat) (x : Session) (d : Dir) (f : Nat) : State :=
  let gone := d.ents.filter fun e => d.below f e.1 && e.2.valid && decide (2 ≤ e.2.tier)
  let a := gone.foldl (fun a e => State.parkedLost a e.1 e.2) (s, x)
  let t := a.1.count 0x9005 2 0 (gone.filter fun e => (x.dir.ent e.1).copyPend).length
  if a.2.newlyLost x then (t.goLost h x a.2).reviveCheck h
  else if x.state = .idle && x.move.held then (t.setSess h a.2).unhold h
  else t.setSess h a.2

/-- The directory frame at `f` fails (R446): what lies below it is lost, everything where it is the root. The state engine then writes
the frame anew (DESIGN CHOICE, log entry 68). -/
def State.dirBad (s : State) (f : Nat) : State :=
  let holds := fun (d : Dir) => d.tier == 1 && decide (f ∈ d.frames)
  let t := match tblFirst s.ses.tbl (fun _ x => holds x.dir) with
    | some (h, x) =>
      if x.dir.root = f then (s.count 0x9005 2 0 x.pages).loseAll h x else s.leafLost h x f
    | none => match tblFirst s.ses.tbl (fun _ x => x.pdir.any holds) with
      | some (h, x) => match x.pdir with
        | some d => s.parkedBad h x d f
        | none => s
      | none => s
  if s.ses.tbl.any fun e => holds e.2.dir || e.2.pdir.any holds then t.cleanLines (· / 64) (4096 * f) 4096 else t

/-- What an uncorrectable error in line `l` does to the page or directory frame that holds it. -/
def State.lineBad (s : State) (l : Nat) : State :=
  match s.pageOf l with
  | some (h, n) => s.pageBad h n
  | none => s.dirBad (l / 64)

/-! ### The session a command names (05 R127, R128) -/

/-- The session is an incoming migration (06 R193), or a truncation waits for its directory. -/
def Session.incoming (x : Session) : Bool := x.mig == .inReceiving || x.mig == .inReady || x.trunc.isSome

/-- The state engine reads the directory frames that a session of `ctx` has in Tier 1 (16 R475). -/
def State.dirRead (s : State) (ctx h : Nat) : State :=
  match (s.sess h).filter fun x => x.ctx == ctx with
  | none => s
  | some x =>
    let fs := fun (d : Dir) => if d.tier = 1 then d.frames else []
    s.each (fs x.dir ++ fs (x.pdir.getD dirNone)) fun t f => match t.hbad f 0 4096 with
      | some l => (t.hbmUe l 2 0 ctx (some h)).lineBad l
      | none => t

/-- The session of `ctx` under handle `h`, or the status (05 R128): a session that the sweep has not reached is swept first. -/
def State.owned (s : State) (ctx h : Nat) : State × Except Nat Session :=
  let t := ((s.descTouch h).dirRead ctx h).sweepSess h
  (t, match t.sess h with
    | none => .error stNoSession
    | some x =>
      if x.ctx ≠ ctx then .error stNoSession
      else if x.state = .free then .error (if x.tomb then stExpired else stNoSession)
      else .ok x)

/-- A session lost while it migrates: its migration decides first who owns it (06 R188; DEDUCED, log entry 68). -/
def Session.leaving (x : Session) : Bool := x.state == .lost && x.mig != .none

/-- The session that a command of `ctx` names by handle `h`, or the status. -/
def State.named (s : State) (ctx h : Nat) : State × Except Nat Session :=
  let r := s.owned ctx h
  (r.1, match r.2 with
    | .error st => .error st
    | .ok x => if x.incoming || x.leaving then .error stSessionState else .ok x)

end Sys2Proof.Machine
end

