-- ==== Sys2Proof/Machine/Sessions.lean ====
section
/-! DEFINITION. Session, binding and adapter commands (05), except SESSION_TRUNCATE, which shares its work with the
moves of 06. -/

namespace Sys2Proof.Machine

/-- Handle `h` lies in the handle block of `ctx` (R127, object 0x3101). -/
def State.handleIn (s : State) (ctx h : Nat) : Bool :=
  let base := s.obj 0x3101 1 ctx 0
  decide (base ≤ h) && decide (h < base + s.obj 0x3101 1 ctx 1)

/-- SESSION_CREATE (R151). A handle whose descriptor has no home is ST_FENCED (16 R449); one held by MIGRATE_IN or
not FREE is ST_SESSION_STATE. -/
def execSessionCreate (sq : Nat) (h : CmdHdr) (handle : BitVec 24) (binding : BitVec 8) (homeDie : BitVec 2) (eventCq : BitVec 6)
    (s : State) : Res :=
  s.ringCmd sq h (.sessionCreate handle binding homeDie eventCq) [] fun t =>
    let ctx := h.ctx.toNat
    let n := handle.toNat
    let old := (t.sess n).getD (sesFree ctx)
    if !t.handleIn ctx n then .done stHandleRange 0 t
    else if old.tomb && old.ctx != ctx then .done stNoSession 0 t
    else if old.state != .free || (tblFind t.ses.migIn n).isSome then .done stSessionState 0 t
    else if !t.islandUp (n % 4) then .done stFenced 0 t
    else if (tblFind t.ses.binds (ctx * 256 + binding.toNat)).isNone then .done stBinding 0 t
    else if t.awakeFull then .done stAwakeLimit 0 t
    else match t.dirFresh ctx homeDie.toNat with
      | none => .done stNoFrame 0 t
      | some (d, u) =>
        let x : Session := { sesFree ctx with
          state := .idle, binding := binding.toNat, homeDie := homeDie.toNat, sgen := old.sgen + 1, dir := d,
          eventCq := eventCq.toNat, lastChange := u.tick }
        .done stOk x.sgen.toNat ((u.descTouch n).setSess n x)

/-- What remains of a session that becomes FREE: its handle's generation, and the tomb of an expiry. -/
def freed (x : Session) (tick : Nat) (tomb : Bool) : Session :=
  { sesFree x.ctx with sgen := x.sgen, tomb := tomb, lastChange := tick }

/-- The session becomes FREE and everything it holds is freed. -/
def State.dropSess (s : State) (h : Nat) (x : Session) (tomb : Bool) : State :=
  ((s.wipe x).moveEnd h).setSess h (freed x s.tick tomb)

/-- SESSION_DROP (R151). -/
def execSessionDrop (sq : Nat) (h : CmdHdr) (handle : BitVec 24) (s : State) : Res :=
  s.ringCmd sq h (.sessionDrop handle) [] fun t =>
    let n := handle.toNat
    let r := t.named h.ctx.toNat n
    match r.2 with
    | .error st => .done st 0 r.1
    | .ok x =>
      if (x.state = .idle ∨ x.state = .parked ∨ x.state = .lost) ∧ x.stepPins = 0 then .done stOk 0 (r.1.dropSess n x false)
      else .done stSessionState 0 r.1

/-- SESSION_RELEASE (R128, R151). -/
def execSessionRelease (sq : Nat) (h : CmdHdr) (handle : BitVec 24) (s : State) : Res :=
  s.ringCmd sq h (.sessionRelease handle) [] fun t =>
    let n := handle.toNat
    match t.sess n with
    | none => .done stNoSession 0 t
    | some x =>
      if x.ctx ≠ h.ctx.toNat then .done stNoSession 0 t
      else if x.state ≠ .free then .done stSessionState 0 t
      else if x.tomb then .done stOk 0 (t.setSess n { x with tomb := false, lastChange := t.tick })
      else .done stNoSession 0 t

/-- An index set, ascending, with one more member. -/
def insAsc (a : Nat) : List Nat → List Nat
  | [] => [a]
  | b :: l => if a < b then a :: b :: l else if a = b then b :: l else b :: insAsc a l

/-- PINNED of every entry agrees with the pinned indices. -/
def repin (lgn : Nat) (pins : List Nat) (d : Dir) : Dir :=
  { d with ents := tblMap d.ents fun n e => { e with pinned := decide (n / max 1 lgn ∈ pins) } }

/-- SESSION_PIN (R139). A session that is being handed over takes no pin (DESIGN CHOICE, log entry 20); an index no page can have is
ST_PIN_LIMIT. -/
def execSessionPin (sq : Nat) (h : CmdHdr) (handle : BitVec 24) (set : Bool) (first count : W32) (s : State) : Res :=
  s.ringCmd sq h (.sessionPin handle set first count) [] fun t =>
    let n := handle.toNat
    let r := t.named h.ctx.toNat n
    match r.2 with
    | .error st => .done st 0 r.1
    | .ok x =>
      let a := first.toNat
      let k := count.toNat
      let pins := if set then (span a (min k 65)).foldl (fun l p => insAsc p l) x.pins
                  else x.pins.filter fun p => !(decide (a ≤ p) && decide (p < a + k))
      if x.state = .migrating then .done stSessionState 0 r.1
      else if set && (decide (64 < pins.length) || decide (16384 < a + k)) then .done stPinLimit 0 r.1
      else
        let lgn := (r.1.sbind x).lgn.toNat
        .done stOk 0 (r.1.setSess n { x with pins := pins, dir := repin lgn pins x.dir, pdir := x.pdir.map (repin lgn pins) })

/-- SESSION_QUERY: the descriptor is written to host memory (R130, 00 R5). -/
def execSessionQuery (sq : Nat) (h : CmdHdr) (handle : BitVec 24) (dest : W64) (s : State) : Res :=
  s.ringCmd sq h (.sessionQuery handle dest) [(dest.toNat, 256)] fun t =>
    if dest.toNat % 64 ≠ 0 then .done stDescField 0 t
    else
      let r := t.owned h.ctx.toNat handle.toNat
      match r.2 with
      | .error st => .done st 0 r.1
      | .ok x =>
        if x.incoming then .done stSessionState 0 r.1 else .done stOk 0 (r.1.dwr dest.toNat (leBytes 256 (sessNum x)))

/-! ### Bindings -/

/-- Formats a PARK_MASK names. -/
def parkFmts (m : BitVec 3) : List Nat := [13, 14, 15].filter fun f => bit m.toNat (f - 13)

/-- The record's own checks of R132. -/
def bindOk (b : BindRec) : Bool :=
  let fs := parkFmts b.parkMask
  let blocks := fs.any (fun f => hasOffsets f)
  b.bver.toNat == 1 && decide (b.dV.toNat ≤ 2048) && decide (1 ≤ b.dK.toNat) && decide (b.dK.toNat ≤ 2048)
  && decide (1 ≤ b.kvh.toNat) && decide (b.kvh.toNat ≤ 128) && decide (1 ≤ b.lgn.toNat) && isAppendFmt b.resFmt.toNat
  && decide (bindCk b ≤ 8192) && decide (bindCv b ≤ 8192)
  && (b.resFmt.toNat :: fs).all (fun f => decide (footprint b f ≤ 512))
  && (!blocks || (bindCk b % 32 == 0 && bindCv b % 32 == 0 && b.dK.toNat % 32 == 0 && b.dV.toNat % 32 == 0))
  && !(bit b.parkMask.toNat 2 && bindCv b == 0)

/-- BIND_INSTALL (R131, R132). -/
def execBindInstall (sq : Nat) (h : CmdHdr) (binding : BitVec 8) (rcd : BindRec) (s : State) : Res :=
  s.ringCmd sq h (.bindInstall binding rcd) [] fun t =>
    let ctx := h.ctx.toNat
    let k := ctx * 256 + binding.toNat
    if !bindOk rcd || (tblFind t.ses.binds k).isSome
        || decide (t.obj 0x3106 1 ≤ tblCount t.ses.binds fun j _ => j / 256 == ctx) || decide (1024 ≤ t.ses.binds.length) then
      .done stBinding 0 t
    else .done stOk 0 (t.modSes fun g => { g with binds := tblIns g.binds k rcd })

/-- BIND_REMOVE (R134). -/
def execBindRemove (sq : Nat) (h : CmdHdr) (binding : BitVec 8) (s : State) : Res :=
  s.ringCmd sq h (.bindRemove binding) [] fun t =>
    let ctx := h.ctx.toNat
    let b := binding.toNat
    if (tblFind t.ses.binds (ctx * 256 + b)).isNone
        || tblAny t.ses.tbl (fun _ x => x.ctx == ctx && x.binding == b && x.state != .free)
        || tblAny t.run.steps (fun _ p => p.d.ctx.toNat == ctx && p.d.binding.toNat == b) then .done stBinding 0 t
    else .done stOk 0 (t.modSes fun g => { g with binds := tblDel g.binds (ctx * 256 + b) })

/-! ### Adapters -/

/-- Adapter `a` lies in the context's adapter block (R155). -/
def State.adapterIn (s : State) (ctx a : Nat) : Bool :=
  let base := s.obj 0x3107 3 ctx 0
  decide (base ≤ a) && decide (a < base + s.obj 0x3107 3 ctx 1)

def adKey (ctx a : Nat) : Nat := ctx * 4096 + a

/-- The current version of an adapter. -/
def Adapter.cur (a : Adapter) : Option AVer := a.vers.find? (·.current)

/-- Retiring versions without pins retire, each with its event; without a version the number is free (R158). -/
def State.adRetire (s : State) (ctx a : Nat) : State :=
  match tblFind s.ses.adapters (adKey ctx a) with
  | none => s
  | some x =>
    let gone := x.vers.filter fun v => !v.current && v.pins == 0
    let keep := x.vers.filter fun v => v.current || v.pins != 0
    let s1 := s.modSes fun g => { g with
      adapters := if keep.isEmpty then tblDel g.adapters (adKey ctx a) else tblIns g.adapters (adKey ctx a) { x with vers := keep } }
    s1.each gone fun t v => t.otherEvent v.cq ctx 0x0010 stOk a v.version

/-- The version current in this cycle is pinned (R157). -/
def State.adPin (s : State) (ctx a : Nat) (d : Int) (version : Nat) : State :=
  s.modSes fun g => { g with adapters := tblMod g.adapters (adKey ctx a) fun x =>
    { x with vers := x.vers.map fun v => if v.version = version then { v with pins := (v.pins + d).toNat } else v } }

/-- Jobs whose pin on adapter `a` was made in this very cycle pin version `v` instead: the install comes first (R159). -/
def State.adRepin (s : State) (ctx a v : Nat) : State :=
  let now := fun (q : Nat × Nat × Nat) => q.1 == a && q.2.2 == s.dev.nclk
  let t := s.each s.run.jobs fun t e =>
    if e.2.ctx == ctx then t.each (e.2.pins.filter now) fun u q => (u.adPin ctx a (-1) q.2.1).adPin ctx a 1 v else t
  t.modRun fun g => { g with jobs := tblMap g.jobs fun _ j =>
    if j.ctx = ctx then { j with pins := j.pins.map fun q => if now q then (a, v, q.2.2) else q } else j }

/-- ADAPTER_INSTALL (R155, R156). R156 names no rejection for a version record with another AVER, with a WEIGHT_ADDR or
WEIGHT_LEN that is no multiple of 64, or with an FMT that is no engine operand format: it is installed (DESIGN CHOICE, log
entry 59). A number that became free forgets the versions it had (DESIGN CHOICE, log entry 59). -/
def execAdapterInstall (sq : Nat) (h : CmdHdr) (eventCq : BitVec 6) (rcd : AdapterRec) (s : State) : Res :=
  s.ringCmd sq h (.adapterInstall eventCq rcd) [] fun t =>
    let ctx := h.ctx.toNat
    let a := rcd.adapter.toNat
    let old := (tblFind t.ses.adapters (adKey ctx a)).getD ⟨ctx, rcd.binding.toNat, 0, []⟩
    if !t.adapterIn ctx a || (tblFind t.ses.binds (ctx * 256 + rcd.binding.toNat)).isNone || old.binding != rcd.binding.toNat then
      .done stAdapter 0 t
    else if !old.vers.isEmpty && decide (rcd.version.toNat ≤ old.last) then .done stVersion 0 t
    else if 4 ≤ old.vers.length then .done stAdapterBusy 0 t
    else
      let vs := (old.vers.map fun v => { v with current := false }) ++ [⟨rcd.version.toNat, rcd, true, 0, eventCq.toNat⟩]
      .done stOk 0 (((t.modSes fun g => { g with
        adapters := tblIns g.adapters (adKey ctx a) { old with last := rcd.version.toNat, vers := vs } }).adRepin ctx a
          rcd.version.toNat).adRetire ctx a)

/-- ADAPTER_REMOVE (R158). -/
def execAdapterRemove (sq : Nat) (h : CmdHdr) (adapter : BitVec 12) (s : State) : Res :=
  s.ringCmd sq h (.adapterRemove adapter) [] fun t =>
    let ctx := h.ctx.toNat
    let a := adapter.toNat
    match tblFind t.ses.adapters (adKey ctx a) with
    | none => .done stAdapter 0 t
    | some x =>
      if !t.adapterIn ctx a || x.cur.isNone then .done stAdapter 0 t
      else .done stOk 0 ((t.modSes fun g => { g with
        adapters := tblIns g.adapters (adKey ctx a) { x with vers := x.vers.map fun v => { v with current := false } } }).adRetire ctx a)

end Sys2Proof.Machine
end

