-- ==== Sys2Proof/Machine/Steps.lean ====
section
/-! DEFINITION. Steps and jobs: quads, what is charged, and how a step ends (03 R98, R99; 05 R147, R151, R157;
10 R288-R303, R306). -/

namespace Sys2Proof.Machine

/-! ### Stores (R73) -/

/-- One byte: a line whose written bit is clear reads as zero. -/
def Store.get (m : Store) (a : Nat) : Byte := if (tblFind m.wr (a / 256)).isSome then memGet m.mem a else 0
def Store.read (m : Store) (a n : Nat) : List Byte := (List.range n).map fun i => m.get (a + i)
/-- The bytes from `a` on, as the arithmetic reads them. -/
def Store.rd (m : Store) (a : Nat) : Nat → Byte := fun i => m.get (a + i)
/-- Lines that [a, a+n) touches. -/
def storeLines (a n : Nat) : List Nat := if n = 0 then [] else span (a / 256) ((a % 256 + n - 1) / 256 + 1)
/-- A line whose written bit is clear becomes a line of zeros with its bit set. -/
def Store.open1 (m : Store) (l : Nat) : Store :=
  if (tblFind m.wr l).isSome then m else ⟨memZero m.mem (256 * l) 256, tblIns m.wr l ()⟩
def Store.write (m : Store) (a : Nat) (bs : List Byte) : Store :=
  let m' := (storeLines a bs.length).foldl Store.open1 m
  { m' with mem := memWrite m'.mem a bs }

/-! ### Steps -/

def State.stp (s : State) (n : Nat) : Option Step := tblFind s.run.steps n
def State.setStp (s : State) (n : Nat) (p : Step) : State := s.modRun fun g => { g with steps := tblIns g.steps n p }
def State.updStp (s : State) (n : Nat) (f : Step → Step) : State := s.modRun fun g => { g with steps := tblMod g.steps n f }
def Step.ctx (p : Step) : Nat := p.d.ctx.toNat
/-- The step is of class KEYSTONE. -/
def Step.ks (p : Step) : Bool := p.d.jclass == 0
/-- Core-set size in quads (R96). -/
def descQuads (d : StepDesc) : Nat := if d.quads = 0 then 256 else d.quads.toNat
def Step.waits (p : Step) : Bool := p.ph == .waiting

/-! ### Profiles and quads (10 R289, R290; 15 R429, R431-R433) -/

/-- Die `d` is fenced (16 R451), or its memory island is out of service (15 R428). -/
def State.dieFenced (s : State) (d : Nat) : Bool := (s.dev.dies.getD d ⟨none, true⟩).fenced || !s.islandUp d
/-- Die `d` takes no new quads: fenced, in reset, or drained by an activation (14 R409). -/
def State.dieClosed (s : State) (d : Nat) : Bool :=
  s.dieFenced d || (s.dev.dies.getD d ⟨none, true⟩).resetAt.isSome
  || (match s.mg.act with | some a => a.kind == 2 && a.current == some d | none => false)
/-- Die `d` is throttled: its own sensor, one of its stacks, or the plinth (15 R429). -/
def State.dieThrottled (s : State) (d : Nat) : Bool :=
  (d :: 4 :: span (5 + 3 * d) 3).any fun i => s.dev.throttled.getD i false

def State.grant (s : State) (c : Nat) : Nat := s.obj 0x5002 1 c
def State.reserve (s : State) (c : Nat) : Nat := s.obj 0x5002 2 c
/-- Eligible quads: grant minus reserve, minus quads of fenced dies (R289). -/
def State.eligible (s : State) (c : Nat) : List Nat :=
  (maskBits (s.grant c) 256).filter fun q => !bit (s.reserve c) q && !s.dieFenced (q / 64)
/-- Reserve quads on dies not fenced. -/
def State.reserveQuads (s : State) (c : Nat) : List Nat := (maskBits (s.reserve c) 256).filter fun q => !s.dieFenced (q / 64)

/-- Quads that dispatched steps and periodic reservations hold. -/
def State.heldQuads (s : State) : List Nat :=
  (s.run.steps.flatMap fun e => e.2.quads) ++ s.run.jobs.flatMap fun e => e.2.resQuads

/-- The whole clusters among a list of quads, as quads. -/
def wholeClusters (l : List Nat) : List Nat :=
  ((List.range 64).filter fun k => (span (4 * k) 4).all fun q => decide (q ∈ l)).flatMap fun k => span (4 * k) 4

/-- The first `n` quads of `l`, of whole clusters when `w`. -/
def takeQuads (l : List Nat) (n : Nat) (w : Bool) : Option (List Nat) :=
  let m := if w then wholeClusters l else l
  if n ≤ m.length then some (m.take n) else none

/-- Allotment of R290 from the free quads `free`, preferring die `pref`. -/
def allot (free : List Nat) (pref : Option Nat) (n : Nat) (w : Bool) : Option (List Nat) :=
  let cnt := fun d => (free.filter fun q => q / 64 == d).length
  let d := pref.getD ((List.range 4).foldl (fun b d => if cnt b < cnt d then d else b) 0)
  (takeQuads (free.filter fun q => q / 64 == d) n w).orElse fun _ => takeQuads free n w

/-- Home dies of the sessions a step names. -/
def State.homeDies (s : State) (seqs : List SeqEnt) : List Nat :=
  seqs.map fun e => ((s.sess e.handle).map (·.homeDie)).getD 0

/-- The reservation of a step's job already charges die `d` (R294). -/
def State.reserved (s : State) (p : Step) (d : Nat) : Bool := (tblFind s.run.jobs p.jobId).any fun j => decide (d ∈ j.resDies)

/-- HBM share of the dispatched steps that `f` selects, charged now on a die; what a reservation charges is not counted again. -/
def State.stepShares (s : State) (d : Nat) (f : Step → Bool) : Nat :=
  (s.run.steps.map fun e =>
      if !e.2.waits && f e.2 && decide (d ∈ e.2.dies) && !s.reserved e.2 d then e.2.d.hbmShare.toNat else 0).foldl (· + ·) 0

/-- HBM share charged now on a die (R293): dispatched steps that are not KEYSTONE, and periodic reservations. -/
def State.hbmCharged (s : State) (d : Nat) : Nat :=
  s.stepShares d (fun p => !p.ks) + (s.run.jobs.map fun e => if decide (d ∈ e.2.resDies) then e.2.share else 0).foldl (· + ·) 0

/-- HBM_CHARGED (R310): KEYSTONE steps too are charged their share. -/
def State.hbmChargedAll (s : State) (d : Nat) : Nat := s.hbmCharged d + s.stepShares d Step.ks

/-- POWER_CAP is selected (15 R431, R432). -/
def State.capped (s : State) : Bool := s.obj 0x2101 1 == 3
/-- QUAD_LIMIT (15 R433); the limit is 0 where the difference is negative. -/
def State.quadLimit (s : State) : Nat := min 256 ((s.obj 0x2101 3 - 1100 - s.obj 0x2001 2) * 256 / 2200)
/-- Quads of every KEYSTONE reserve. -/
def State.allReserve (s : State) : Nat :=
  ((List.range 256).filter fun q => (List.range 256).any fun c => bit (s.reserve c) q).length
/-- Quads of periodic reservations, those of job `j` excepted. -/
def State.periodicQuads (s : State) (j : Nat) : Nat :=
  (s.run.jobs.map fun e => if e.1 = j then 0 else e.2.resQuads.length).foldl (· + ·) 0
/-- Quads in use (15 R433). -/
def State.quadsInUse (s : State) : Nat :=
  s.allReserve + s.periodicQuads s.run.nextJob
  + (s.run.steps.map fun e => if e.2.ks || e.2.lent || e.2.d.periodic then 0 else e.2.quads.length).foldl (· + ·) 0

/-! ### Sequences (04 R103, R105, R116, R122) -/

/-- The sequence table entry that 32 bytes spell; T and E are filled in at admission. -/
def decSeq (v : Nat) : SeqEnt :=
  { handle := bits v 23 0, appendN := bits v 47 24, stream := bit v 48, stall := bits v 63 56, ringTokens := bits v 95 64,
    expect := bits v 127 96, chunkPages := bits v 143 128, ringPos := bits v 151 144, ringN := bits v 159 152,
    ringTag := fld 32 v 160, pred := bits v 207 192, succ := bits v 223 208, ringKey := fld 32 v 224, t := 0, e := 0 }

/-- Global index of the session's page number `j`: a ring member owns chunks RING_POS and 2N − 1 − RING_POS. -/
def SeqEnt.pageAt (e : SeqEnt) (j : Nat) : Nat :=
  if e.ringN = 0 then j
  else if j < e.chunkPages then e.ringPos * e.chunkPages + j
  else (2 * e.ringN - 1 - e.ringPos) * e.chunkPages + (j - e.chunkPages)

/-- Page and slot of append ordinal `k`. -/
def SeqEnt.slotAt (e : SeqEnt) (k : Nat) : Nat × Nat := (e.pageAt ((e.t + k) / 256), (e.t + k) % 256)

/-- Pages of the reservation, as numbers of the session's own pages. -/
def SeqEnt.resPages (e : SeqEnt) : List Nat :=
  if e.appendN = 0 then [] else span (e.t / 256) ((e.t + e.appendN - 1) / 256 + 1 - e.t / 256)

/-- Pages below the sweep end. -/
def SeqEnt.sweepPages (e : SeqEnt) : Nat := ceilDiv e.e 256

/-! ### The end of a reservation (05 R147) -/

/-- Layer groups of a step. -/
def Step.lgs (p : Step) : List Nat := span p.d.firstLg.toNat p.d.lgCount.toNat

/-- One more than the highest ordinal that the step appended to (sequence, layer group). -/
def Step.appended (p : Step) (i lg : Nat) : Nat :=
  p.appends.foldl (fun m a => if a.seqi = i ∧ a.lg = lg then max m (a.slot + 1) else m) 0

/-- The page opened by the step's reservation. -/
def Step.openedPage (p : Step) (handle n : Nat) : Bool := p.undo.any fun u => u.handle == handle && u.n == n && u.opened

/-- Commit of page number `j` of sequence `i`, layer group `g`. -/
def State.commitPage (p : Step) (i : Nat) (e : SeqEnt) (g j : Nat) (s : State) : State :=
  match s.sess e.handle with
  | none => s
  | some x =>
    let lgn := (s.sbind x).lgn.toNat
    let n := e.pageAt j * lgn + g
    let c := x.dir.ent n
    let a := p.appended i (g - p.d.firstLg.toNat)
    let f := max c.fill (min 256 (e.t + a - 256 * j))
    if !c.valid then s
    else if a ≠ 0 ∧ 256 * j < e.t + a then
      s.setSess e.handle { x with dir := x.dir.setEnt n { (if f = c.fill then c else c.bump) with fill := f, dirty := true } }
    else if p.openedPage e.handle n && c.fill == 0 then
      (s.copyFree x.ctx c).updSess e.handle fun y => { y with dir := y.dir.setEnt n pteNone }
    else s

/-- Zero bytes over token slots [k, k + m) of a page in Tier 1. -/
def State.zeroSlots (s : State) (b : BindRec) (c : Pte) (k m : Nat) : State :=
  let ck := bindCk b
  let cv := bindCv b
  let wk := keyBits c.fmt / 8
  let wv := valBits c.fmt / 8
  let a := 4096 * c.frame
  s.modSes fun g => { g with
    hbm := memZero (memZero g.hbm (a + k * ck * wk) (m * ck * wk)) (a + valOff c.fmt ck + k * cv * wv) (m * cv * wv) }

/-- The slot of an append is zeroed (R147, class F). -/
def State.unappend (p : Step) (s : State) (a : AppendLog) : State :=
  let e := p.seqs.getD a.seqi (decSeq 0)
  match s.sess e.handle with
  | none => s
  | some x =>
    let b := s.sbind x
    let r := e.slotAt a.slot
    let c := x.dir.ent (r.1 * b.lgn.toNat + (p.d.firstLg.toNat + a.lg))
    if c.landed then s.zeroSlots b c r.2 1 else s

/-- A page entry is put back as it stood, or freed when the reservation opened it. -/
def State.undoPage (s : State) (u : UndoPage) : State :=
  match s.sess u.handle with
  | none => s
  | some x =>
    let c := x.dir.ent u.n
    if u.opened then (s.entFree x.ctx c).updSess u.handle fun y =>
      let z := { y with dir := y.dir.setEnt u.n pteNone }
      if c.lost then z.recount (s.sbind x).lgn.toNat else z
    else if !c.valid then s
    else s.setSess u.handle { x with dir := x.dir.setEnt u.n { c with crc := u.crc, gen := u.gen } }

/-- The reservations of step `n` end (R147). -/
def State.endRes (s : State) (n : Nat) (p : Step) (bad : Bool) : State :=
  let s1 :=
    if bad then (s.each p.appends (State.unappend p)).each p.undo State.undoPage
    else (p.seqs.zipIdx.foldl (fun t (e, i) =>
      p.lgs.foldl (fun t g => e.resPages.foldl (fun t j => State.commitPage p i e g j t) t) t) s : State)
  p.seqs.foldl (fun t e => t.updSess e.handle fun x =>
    let y := { x with res := x.res.filter fun r => r.step != n }
    if bad then y else y.retoken (t.sbind x).lgn.toNat) s1

/-! ### The end of a step (R98, R99) -/

/-- STEP_PINS falls by one, with the transition of R151; a pending park makes the session PARKING. In LOST the end of a step is no
transition. -/
def State.unpin (s : State) (h : Nat) : State :=
  match s.sess h with
  | none => s
  | some x =>
    let y := { x with stepPins := x.stepPins - 1, lastChange := if x.state = .lost then x.lastChange else s.tick }
    if x.state = .active ∧ y.stepPins = 0 then
      s.setSess h ({ y with parkAt := s.dev.nclk }.goto s.tick (if x.parkPend then .parking else .idle))
    else s.setSess h y

/-- A post is sent (R95; 09 R270; 11 R328). -/
def State.sendPost (s : State) (p : Step) (q : Post) : State :=
  if q.event = 0xF001 then
    s.modTxt fun g => { g with
      nextOrder := g.nextOrder + 1
      events := g.events ++ [{
        ctx := p.ctx, stepCq := p.d.cq.toNat, jobId := p.jobId, stream := bits q.payload.toNat 45 32, token := bits q.payload.toNat 17 0,
        end_ := bit q.payload.toNat 63, rank := p.d.jclass.toNat, order := g.nextOrder, till := none }] }
  else if 0xF000 ≤ q.event ∧ q.event ≤ 0xF0FF then s.count 0x6006 5
  else s.event p.d.cq.toNat { kind := 2, event := q.event, status := stOk, ctx := p.ctx, sqId := 0xFF, sqHead := s.site.lastHead,
                              time := s.tick, tag := p.d.userTag, body := q.payload.toNat + q.pos % 2 ^ 16 * 2 ^ 64 }

/-- Body of a STEP entry (11 R328). -/
def stepBody (cycles discarded job instr pos : Nat) : Nat :=
  pos % 2 ^ 16 + instr % 2 ^ 16 * 2 ^ 16 + job % 2 ^ 16 * 2 ^ 32 + discarded % 2 ^ 16 * 2 ^ 48 + cycles % 2 ^ 64 * 2 ^ 64

/-- The completion record of a step or a rejected descriptor (R99). -/
def State.stepEntry (s : State) (sq cq ctx : Nat) (d : StepDesc) (status cycles discarded : Nat) (at_ : Option (Nat × Nat)) (head : Nat) : State :=
  let w := at_.getD (0xFFFF, 0xFFFF)
  s.settle sq cq { kind := 1, event := 0, status := status, ctx := ctx, sqId := sq, sqHead := head, time := s.tick,
                   tag := d.userTag, body := stepBody cycles discarded d.job.toNat w.2 w.1 }

/-- Key of an expiry still to fall for an ended step: kind 0 its deadline, 1 its WCET, 2 its PP_GAP, 3 its stall limit, and
16 + k the bound of a WAIT of core k (11 R332). -/
def expKey (n kind : Nat) : Nat := n * 2048 + kind

/-- The expiry `kind` of an ended step falls: it is counted and discarded (11 R332). -/
def State.lateExpiry (s : State) (n kind : Nat) : State :=
  match tblFind s.run.expiries (expKey n kind) with
  | some t =>
    if s.live && decide (t < s.dev.nclk) then
      (s.modRun fun g => { g with expiries := tblDel g.expiries (expKey n kind) }).modSite fun g => { g with late := (g.late + 1) % 2 ^ 64 }
    else s
  | none => s

/-- STALL of the sequence that the stream segment under key `k` belongs to; of the ring's sequence for a credit (04 R120, R124). -/
def Step.stallMs (p : Step) (k : Nat) : Nat := (p.seqs.getD (k / 16384) (p.seqs.headD (decSeq 0))).stall

/-- Expiries that a step ending with `status` leaves behind: its deadline, and limits reached in this very cycle. -/
def State.leftOver (s : State) (n : Nat) (p : Step) (status : Nat) : List (Nat × Nat) :=
  (if p.d.deadline != 0 && status != stDeadline then [(expKey n 0, 4 * (p.release + p.d.deadline.toNat))] else [])
  ++ (if !p.waits && decide (p.d.wcet.toNat ≤ p.executed) && status != stWcetOverrun then [(expKey n 1, s.dev.nclk)] else [])
  ++ (if p.lent && decide (p.d.ppGap.toNat ≤ p.gap) && status != stPpGap then [(expKey n 2, s.dev.nclk)] else [])
  ++ (if p.stall.any (fun a => p.stallMs a.1 != 0 && decide (4 * (a.2 + p.stallMs a.1 * ticksPerMs) ≤ s.dev.nclk)) && status != stStreamStall then
      [(expKey n 3, s.dev.nclk)] else [])
  ++ p.cores.filterMap fun k => match tblFind s.run.cores k with
    | some c => match c.ph with
      | .waiting _ t => if t ≤ s.aclk && status != stWaitBound then some (expKey n (16 + k), s.dev.nclk) else none
      | _ => none
    | none => none

/-- QUAD tokens of `cycles` cycles on `q` quads (10 R306). -/
def quadCost (q cycles : Nat) : Nat := ceilDiv (q * cycles) 1250

/-! ### Messages of a ring (04 R124) -/

/-- Ring page header (R124). -/
def ringHeader (p : Step) (e : SeqEnt) (round page fill fmt len : Nat) (crc : W32) : List Byte :=
  leBytes 64 (1 + fmt * 2 ^ 28 + p.d.qfmt.toNat * 2 ^ 32 + fill * 2 ^ 41 + page * 2 ^ 50 + e.chunkPages * 2 ^ 64 + e.ringN * 2 ^ 80
    + round * 2 ^ 88 + len * 2 ^ 96 + e.ringTag.toNat * 2 ^ 128 + crc.toNat * 2 ^ 160)

/-- Local slot of the ring receive region: the first one of the context whose key is RING_KEY (DEDUCED, log entry 24). -/
def State.ringSlot (s : State) (ctx : Nat) (key : W32) : Nat :=
  ((s.fab.regions.find? fun g => g.2.ctx == ctx && g.2.rcd.key == key).map (·.1)).getD 0

/-- The ring message with `data` to device `dev`. -/
def State.ringMsg (s : State) (p : Step) (e : SeqEnt) (dev : Nat) (data : List Byte) (u : Purpose) : BulkMsg :=
  { bulkMsg 1 p.ctx 3 2 e.ringKey (dev * 2 ^ 48 + s.ringSlot p.ctx e.ringKey * 2 ^ 32) data.length data u with rank := p.d.jclass.toNat }

/-- A ring step has ended well: the buffers it had not yet released are free, every core having reached END, and their credits go to the
predecessor. -/
def State.lastCredits (s : State) (p : Step) : State :=
  match p.ring, p.seqs.head? with
  | some r, some e =>
    let i := s.fab.map.idEnt e.pred
    if i.kind = 0 ∨ i.lost then s
    else (span (r.released + 1) (e.ringN - 1 - r.released)).foldl (fun t k =>
      t.bulkIssue i.node (t.ringMsg p e e.pred (ringHeader p e k 0 0 0 0 0) .nothing)) s
  | _, _ => s

/-- One step leaves the scheduler: its cores, posts, reservation, pins, tokens and its completion record. -/
def State.endOne (s : State) (n : Nat) (p : Step) (status : Nat) (at_ : Option (Nat × Nat)) : State :=
  let q := descQuads p.d
  let s1 := s.modRun fun g => { g with
    steps := tblDel g.steps n
    cores := tblKeep g.cores fun _ c => c.step != n
    chosen := if g.chosen = some n then none else g.chosen
    expiries := (s.leftOver n p status).foldl (fun t e => tblIns t e.1 e.2) g.expiries }
  let s2 := s1.each p.posts fun t w => t.sendPost p w
  let s3 := s2.endRes n p (isClassF status)
  let s4 := s3.each p.seqs fun t e => t.unpin e.handle
  let s5 := match p.ring with | some r => s4.unitsFree r.frames | none => s4
  let s6 := if p.waits then s5 else s5.charge p.ctx 0 ((quadCost q p.executed : Int) - quadCost q p.d.wcet.toNat)
  (if isClassF status then s6.ringSilent n else (s6.lastCredits p).ringOrphan n).stepEntry
    p.sq p.d.cq.toNat p.ctx p.d status p.executed p.discarded at_ p.head

/-- A job ends: its pins are released (05 R157) and its reservation ends (R294). -/
def State.endJob (s : State) (j : Nat) : State :=
  match tblFind s.run.jobs j with
  | none => s
  | some b =>
    let s1 := b.pins.foldl (fun t v => (t.adPin b.ctx v.1 (-1) v.2.1).adRetire b.ctx v.1) s
    s1.modRun fun g => { g with jobs := tblDel g.jobs j }

/-- An arm is in force for the context (R298). -/
def State.armed (s : State) (c : Nat) : Bool := (tblFind s.run.arms c).any fun a => decide (s.tick < a.till)

/-- KEYSTONE steps of the context that wait. -/
def State.ksWaiting (s : State) (c : Nat) : List (Nat × Step) := s.run.steps.filter fun e => e.2.ks && e.2.waits && e.2.ctx == c

/-- The previous steps of the step's job, and older jobs of its name, have ended; the text unit has finished the
job's token events (R288; 09 R282). -/
def State.jobReady (s : State) (p : Step) : Bool :=
  !(s.run.steps.any fun e => e.2.jobId == p.jobId && decide (e.2.order < p.order))
  && !(s.run.jobs.any fun e => e.1 != p.jobId && decide (e.1 < p.jobId) && e.2.ctx == p.ctx && e.2.num == p.d.job.toNat)
  && !(s.txt.events.any fun e => e.jobId == p.jobId)

/-! ### Pre-emption and resumption (10 R299-R303) -/

/-- Quads in ascending order. -/
def sortNat (l : List Nat) : List Nat := l.foldl (fun a x => insAsc x a) []

/-- Quads that KEYSTONE steps hold. -/
def State.ksQuads (s : State) : List Nat := s.run.steps.flatMap fun e => if e.2.ks then e.2.quads else []

/-- Reserve quads that nothing holds. -/
def State.freeReserve (s : State) (c : Nat) : List Nat :=
  let h := s.heldQuads
  (s.reserveQuads c).filter fun q => !decide (q ∈ h)

/-- Quads of the context's pre-empted courses that KEYSTONE step `t` took, and that no KEYSTONE step holds; with none, of the courses whose
takers have ended. -/
def State.takenQuads (s : State) (c : Nat) (t : Option Nat) : List Nat :=
  let ks := s.ksQuads
  let of := fun (p : Step) => match t with
    | some n => p.taker == some n
    | none => !p.taker.any fun n => (s.stp n).isSome
  ((s.run.steps.filter fun e => e.2.ctx == c && e.2.ph == .preempted && of e.2).flatMap fun e => e.2.quads).filter fun q => !decide (q ∈ ks)

/-- Reserve quads that any KEYSTONE step can have at once, ascending: free ones, and those of pre-empted courses whose takers have ended. What
a running KEYSTONE step has left over of a course it took stays idle (R299). -/
def State.idleReserve (s : State) (c : Nat) : List Nat :=
  sortNat ((s.freeReserve c ++ s.takenQuads c none).filter fun q => !s.dieClosed (q / 64))

/-- Lent courses in ascending order of their lowest quad. -/
def byLowest (l : List (Nat × Step)) : List (Nat × Step) :=
  let low := fun (e : Nat × Step) => e.2.quads.foldl min 256
  l.foldl (fun a e => (a.filter fun f => low f < low e) ++ [e] ++ a.filter fun f => !(low f < low e)) []

/-- The lent courses of a context in the order of R299: held ones, then running ones. -/
def State.lentCourses (s : State) (c : Nat) : List (Nat × Step) :=
  let l := s.run.steps.filter fun e => e.2.ctx == c && e.2.lent && !e.2.waits && e.2.ph != .preempted
  byLowest (l.filter fun e => e.2.ph == .held) ++ byLowest (l.filter fun e => e.2.ph != .held)

/-- Quads and courses collected in order until `n` quads are there, of whole clusters when `w` (R299). -/
def gather (n : Nat) (w : Bool) (qs : List Nat) : List (Nat × Step) → List Nat × List (Nat × Step)
  | [] => (qs, [])
  | e :: l =>
    if (takeQuads (sortNat qs) n w).isSome then (qs, [])
    else let r := gather n w (qs ++ e.2.quads) l; (r.1, e :: r.2)

/-- What a waiting KEYSTONE step collects: its number, the quads it takes once its courses have stopped, every quad it has
collected, and those courses. -/
structure KsTake where
  step  : Nat
  takes : Option (List Nat)
  quads : List Nat
  from_ : List (Nat × Step)
  deriving DecidableEq, Repr

/-- The waiting KEYSTONE steps of a context collect from their admission on, one after the other, in queue order (R299); quads of a course
beyond those a step takes are left to no other (log entry 58). -/
def State.ksPlan (s : State) (c : Nat) : List KsTake :=
  ((s.ksWaiting c).foldl (fun (a : List KsTake × List Nat × List (Nat × Step)) e =>
    let own := (s.takenQuads c (some e.1)).filter fun q => !s.dieClosed (q / 64)
    let r := gather (descQuads e.2.d) e.2.d.wholeCl (a.2.1 ++ own) a.2.2
    let t := takeQuads (sortNat r.1) (descQuads e.2.d) e.2.d.wholeCl
    let used := t.getD r.1
    let cut := (s.run.steps.filter fun f => f.2.ph == .preempted && f.2.quads.any fun q => decide (q ∈ used)).flatMap fun f => f.2.quads
    (a.1 ++ [⟨e.1, t, r.1, r.2⟩], a.2.1.filter fun q => !decide (q ∈ used ++ cut), a.2.2.drop r.2.length))
    ([], s.idleReserve c, s.lentCourses c)).1

/-- A waiting KEYSTONE step has collected course `n`. -/
def State.noticed (s : State) (c n : Nat) : Bool := (s.ksPlan c).any fun k => k.from_.any fun e => e.1 == n

/-- Quads that waiting KEYSTONE steps need. -/
def State.ksNeeds (s : State) (c : Nat) : List Nat := (s.ksPlan c).flatMap fun k => k.takes.getD k.quads

/-- Live ranges with the place of each in the save area, in 256-byte lines from slice offset 0x3_0000 on (R300). -/
def packs : Nat → List (Nat × Nat) → List (Nat × Nat × Nat)
  | _, [] => []
  | o, (b, l) :: t => (b, l, o) :: packs (o + l) t

/-- Slice offset of line `o` of the packed live ranges. -/
def packAt (o : Nat) : Nat := 0x30000 + 256 * o

/-- Ranges of the PPOINT a core has left. -/
def Core.leftRanges (c : Core) : List (Nat × Nat) :=
  match decodeIsn (c.istore.getD (c.ip - 1) 0) with
  | .ppoint f => [(f.base0.toNat, f.len0.toNat), (f.base1.toNat, f.len1.toNat), (f.base2.toNat, f.len2.toNat),
                  (f.base3.toNat, f.len3.toNat)]
  | _ => []

/-- What a core writes to its save area (R300). -/
def Core.save (c : Core) : SavedCore :=
  let rs := c.leftRanges
  { core := { c with ls := ⟨[], []⟩, cs := ⟨[], []⟩, rem := [] }, ranges := rs, liens := c.rem, held := []
    area := (packs 0 rs).foldl (fun m (b, l, o) => memWrite m (packAt o) (c.ls.read (256 * b) (256 * l))) [] }

/-- Cycles of a core's switch or restore (R300, R302): the declared live bytes and the lien count decide. -/
def SavedCore.cycles (v : SavedCore) : Nat :=
  32 + ceilDiv (16384 + 256 * (v.ranges.map (·.2)).foldl (· + ·) 0) 256 + 8 * v.core.liens

/-- The local store that a restore brings back. -/
def SavedCore.store (v : SavedCore) : Store :=
  (packs 0 v.ranges).foldl (fun m (b, l, o) => m.write (256 * b) (memRead v.area (packAt o) (256 * l))) ⟨[], []⟩

/-- Bytes of a GET go into the image copy of their destination (R301). -/
def SavedCore.put (v : SavedCore) (a : Nat) (bs : List Byte) : SavedCore :=
  { v with area := (packs 0 v.ranges).foldl (fun m (b, l, o) =>
      if 256 * b ≤ a ∧ a < 256 * (b + l) then memWrite m (packAt o + (a - 256 * b)) bs else m) v.area }

/-- A course that stands at its point is pre-empted (R300): its cores are saved, and leave. -/
def State.preempt (s : State) (n : Nat) : State :=
  match s.stp n with
  | none => s
  | some p =>
    let saved := p.cores.filterMap fun k => (tblFind s.run.cores k).map Core.save
    (s.modRun fun g => { g with
      cores := tblKeep g.cores fun _ c => c.step != n
      steps := tblIns g.steps n { p with
        ph := .preempted, saved := saved, switched := s.aclk + (saved.map SavedCore.cycles).foldl max 0,
        taker := ((s.ksPlan p.ctx).find? fun k => k.from_.any fun e => e.1 == n).map (·.step) } }).count 0x5007 2

/-- The context's held courses continue, unless an arm keeps them or a KEYSTONE step has collected them (R298); and where a KEYSTONE step has
ended, `ends`, its pre-empted courses whose quads no KEYSTONE step holds or needs resume (R302). -/
def State.resume (s : State) (c : Nat) (ends : Bool) : State :=
  let ks := s.ksQuads ++ s.ksNeeds c
  let gone := (s.run.steps.filter fun e => e.2.ctx == c && e.2.ph == .held && s.noticed c e.1).map (·.1)
  let t := if s.armed c then s else s.each gone State.preempt
  t.modRun fun g => { g with steps := tblMap g.steps fun _ p =>
    if p.ctx ≠ c then p
    else match p.ph with
      | .preempted =>
        if !ends || p.quads.any fun q => decide (q ∈ ks) then p
        else { p with ph := .restoring (s.aclk + (p.saved.map SavedCore.cycles).foldl max 0) s.dev.nclk }
      | .held => if s.armed c then p else { p with ph := .running }
      | _ => p }

/-- The steps of a job that wait, in order of admission. -/
def State.jobWaiting (s : State) (j : Nat) : List (Nat × Step) := s.run.steps.filter fun e => e.2.jobId == j && e.2.waits

/-- A step ends (R98, R99, R288): after a status of class F the later steps of its job that wait end with ST_JOB_ABORTED. A
failure noted in this cycle comes first. -/
def State.endStep (s : State) (n status : Nat) (at_ : Option (Nat × Nat)) : State :=
  match s.stp n with
  | none => s
  | some p =>
    let st := (p.fail.map (·.status)).getD status
    let w := match p.fail with | some f => some (f.pos, f.ip) | none => at_
    let s1 := s.endOne n p st w
    let s2 :=
      if isClassF st then
        (((s1.jobWaiting p.jobId).filter fun e => decide (p.order < e.2.order)).foldl
          (fun t e => t.endOne e.1 e.2 stJobAborted none) s1).endJob p.jobId
      else if p.d.chainEnd then s1.endJob p.jobId
      else s1
    s2.resume p.ctx p.ks

/-- The core at position `pos` of step `n` fails at instruction `ip`: it issues nothing more, and the step ends with the failure
of the lowest position in this cycle of ACLK (R98). -/
def State.stepFail (s : State) (n pos ip status : Nat) : State :=
  match s.stp n with
  | none => s
  | some p =>
    let f : StepFail := ⟨status, pos, ip, s.aclk⟩
    let g := match p.fail with | some o => if o.at_ = f.at_ ∧ f.pos < o.pos then f else o | none => f
    let t := s.setStp n { p with fail := some g }
    match p.cores[pos]? with
    | some k => t.modRun fun r => { r with cores := tblMod r.cores k fun c => if c.step = n then { c with ph := .failed } else c }
    | none => t

/-- A core's instruction ends its step (R98): its position and instruction index go into the record. -/
def State.coreFault (s : State) (c : Core) (status : Nat) : State := s.stepFail c.step c.pos c.ip status

/-- The steps that failed in an earlier cycle of ACLK end (R98). -/
def State.endFailed (s : State) : State :=
  s.each s.run.steps fun t e => match e.2.fail with
    | some f => if f.at_ < t.aclk then t.endStep e.1 f.status (some (f.pos, f.ip)) else t
    | none => t

end Sys2Proof.Machine
end

