-- ==== Sys2Proof/Machine/Faults.lean ====
section
/-! DEFINITION. Containment of faults (16): the fencing of compute dies. -/

namespace Sys2Proof.Machine

/-! ### Fencing (R450, R451) -/

/-- A job ends and its waiting steps with it. -/
def State.abortJob (s : State) (j : Nat) : State :=
  ((s.jobWaiting j).foldl (fun t e => t.endOne e.1 e.2 stJobAborted none) s).endJob j

/-- Every step that holds quads of die `d` ends with `st`, and every periodic reservation on it ends. -/
def State.endDie (s : State) (d st : Nat) : State :=
  let on := fun (qs : List Nat) => qs.any fun q => q / 64 == d
  let s1 := (s.run.steps.filter fun e => !e.2.waits && on e.2.quads).foldl (fun t e => t.endStep e.1 st none) s
  (s1.run.jobs.filter fun e => on e.2.resQuads).foldl (fun t e => t.abortJob e.1) s1

/-- Die `d` is fenced; the record's STATUS is that of the steps it ends, 0 where there are none (R440). -/
def State.fenceDie (s : State) (d : Nat) : State :=
  let ends := s.run.steps.any fun e => !e.2.waits && e.2.quads.any fun q => q / 64 == d
  let s1 := s.record { sev := 2, code := 0x0015, source := 0x05, unit := d, status := if ends then stFenced else 0, shared := true }
  let s2 := (s1.modDev fun g => { g with
    dies := g.dies.set d ⟨some s.tick, true⟩, fencedForce := true, rails := g.rails.set (4 + d) 0
    resetOrder := if decide (0x10 + d ∈ g.resetOrder) then g.resetOrder else g.resetOrder ++ [0x10 + d] }).count 0x2100 4 (2 + d)
  s2.endDie d stFenced

/-- Some die other than `d` is fenced. -/
def State.otherFenced (s : State) (d : Nat) : Bool := (List.range 4).any fun k => k != d && s.dieFenced k

/-- An automatic trigger for die `d`. -/
def State.fenceAuto (s : State) (d : Nat) : State :=
  if s.dieFenced d then s
  else if s.otherFenced d then s.fatal 0x0015 0x05 d 0
  else s.fenceDie d

/-- An event of code 0x0007 or 0x0008 on die `d`. -/
def State.dieFault (s : State) (d : Nat) : State :=
  let ts := s.tick :: ((s.err.fenceEv.getD d []).filter fun t => decide (s.tick < t + 62500000))
  let s1 := (s.modErr fun g => { g with fenceEv := g.fenceEv.set d ts }).count 0x9003 3 d
  if s.obj 0x9003 1 < ts.length then s1.fenceAuto d else s1

end Sys2Proof.Machine
end

