-- ==== Sys2Proof/Machine/RingStep.lean ====
section
/-! DEFINITION. Ring steps between devices (04 R122-R125): credits, pages sent to the successor, pages and credits that
arrive. Own and visiting pages are those of the step's first layer group; a page of the own block goes out once the step
has appended every slot it reserves there whole, or every core has ended (DEDUCED, log entry 24). -/

namespace Sys2Proof.Machine

/-- Pages of the block of ring member `m` (R122). -/
def SeqEnt.block (e : SeqEnt) (m : Nat) : List Nat :=
  let lim := ceilDiv e.ringTokens 256
  (span (m * e.chunkPages) e.chunkPages ++ span ((2 * e.ringN - 1 - m) * e.chunkPages) e.chunkPages).filter (· < lim)
/-- Pages of the largest block of a ring. -/
def SeqEnt.blockPages (e : SeqEnt) : Nat := min (2 * e.chunkPages) (ceilDiv e.ringTokens 256)
/-- Frames of the largest page the binding can hold. -/
def maxFootprint (b : BindRec) : Nat :=
  ((b.resFmt.toNat :: (([13, 14, 15] : List Nat).filter fun f => bit b.parkMask.toNat (f - 13))).map (footprint b)).foldl max 4
/-- Keys of stream segments (R119): layer group `lg` of sequence `i`, and round `r` of a ring, over all its layer groups. -/
def segOwn (i lg : Nat) : Nat := (i * 256 + lg) * 64
def segRound (i r : Nat) : Nat := i * 256 * 64 + r
/-- Key under which a ring member's wait for a credit is timed. -/
def creditKey : Nat := 2 ^ 40
/-- Member whose block round `r` brings. -/
def SeqEnt.roundOf (e : SeqEnt) (r : Nat) : Nat := (e.ringPos + e.ringN - r) % e.ringN

/-- A ring member has sent on every page it owes its successor (R124). -/
def Step.ringDone (p : Step) : Bool :=
  match p.ring, p.seqs.head? with
  | some r, some e =>
    (List.range (e.ringN - 1)).all fun k =>
      let v := tblGet [] r.visits k
      v.length == (e.block (e.roundOf k)).length && v.all (·.done)
  | _, _ => true

/-- A ring message to device `dev`. -/
def State.ringSend (s : State) (n : Nat) (p : Step) (e : SeqEnt) (dev : Nat) (data : List Byte) (u : Purpose) : State :=
  let i := s.fab.map.idEnt dev
  if i.kind = 0 ∨ i.lost then s.endStep n stNoRoute none else s.bulkIssue i.node (s.ringMsg p e dev data u)

/-- A credit to the predecessor for round `r`. -/
def State.ringCredit (s : State) (n r : Nat) : State :=
  match s.stp n with
  | none => s
  | some p => match p.seqs.head? with
    | none => s
    | some e => s.ringSend n p e e.pred (ringHeader p e r 0 0 0 0 0) (.ringCredit n r)

/-- The two credits of an admitted ring step (R124); they release no buffer, and their ROUND is 0 (DESIGN CHOICE, log entry 24). -/
def State.ringStart (s : State) (n : Nat) : State :=
  match s.stp n with
  | some p => if p.ring.isSome then (s.ringCredit n 0).ringCredit n 0 else s
  | none => s

/-- Channel `ch` of a section of slot ordinal `k` has been appended. -/
def Step.hasAppended (p : Step) (i lg k : Nat) (val : Bool) (ch : Nat) : Bool :=
  p.appends.any fun a => a.seqi == i && a.lg == lg && a.slot == k && a.val == val && decide (a.ch0 ≤ ch) && decide (ch < a.ch0 + a.nch)

/-- Every channel of both sections of slot ordinal `k` has been appended. -/
def Step.slotWhole (p : Step) (b : BindRec) (i lg k : Nat) : Bool :=
  ((List.range (bindCk b)).all fun ch => p.hasAppended i lg k false ch) && (List.range (bindCv b)).all fun ch => p.hasAppended i lg k true ch

/-- An own page holds what it will hold when the step ends. -/
def State.ownFinal (s : State) (n : Nat) (p : Step) (e : SeqEnt) (x : Session) (g : Nat) : Bool :=
  let b := s.sbind x
  (x.dir.ent (g * max 1 b.lgn.toNat + p.d.firstLg.toNat)).landed
  && ((s.run.cores.all fun c => c.2.step != n || c.2.ph == .ended)
    || (List.range e.appendN).all fun j => (e.slotAt j).1 != g || p.slotWhole b 0 0 j)

/-- The next page of source round `k` that may go out: its bytes and header fields, or none yet. -/
inductive RingPage where
  | none
  | bad (line : Nat)
  | page (g fmt fill : Nat) (crc : W32) (data : List Byte)

/-- Tokens a page of the ring's sequence holds: FILL of the header of a page whose appends the entry's fill count does not include yet
(DESIGN CHOICE, log entry 24). -/
def SeqEnt.ringFill (e : SeqEnt) (g : Nat) : Nat := min 256 (e.ringTokens - 256 * g)

def State.ringNext (s : State) (n : Nat) (p : Step) (e : SeqEnt) (r : RingSt) (k : Nat) : RingPage :=
  let v := tblGet [] r.visits k
  if k = 0 then
    match s.sess e.handle, (e.block e.ringPos)[v.length]? with
    | some x, some g =>
      let b := s.sbind x
      let lgn := max 1 b.lgn.toNat
      if !s.ownFinal n p e x g then .none
      else
        let c := x.dir.ent (g * lgn + p.d.firstLg.toNat)
        let len := pageBytes b c.fmt
        match s.hbad c.frame 0 len with
        | some l => .bad l
        | none => .page g c.fmt (e.ringFill g) c.crc (s.hread c.frame 0 len)
    | _, _ => .none
  else
    match (e.block (e.roundOf k)).find? fun g => !(v.any fun w => w.page == g && w.sent) with
    | none => .none
    | some g => match v.find? fun w => w.page == g with
      | some w =>
        let len := pageBytes (s.bind p.ctx p.d.binding.toNat) w.fmt
        match s.hbad w.frame 0 len with
        | some l => .bad l
        | none => .page g w.fmt w.fill w.crc (s.hread w.frame 0 len)
      | none => .none

/-- Pages of source round `k` are all on their way. -/
def Step.ringSent (e : SeqEnt) (r : RingSt) (k : Nat) : Bool :=
  let v := tblGet [] r.visits k
  ((v.filter (·.sent)).length == (e.block (e.roundOf k)).length)

/-- One action of a ring member: a block is begun against a credit, or the next page of a begun block goes out. -/
def State.ringPump1 (s : State) (n : Nat) : State :=
  match s.stp n with
  | none => s
  | some p => match p.ring, p.seqs.head? with
    | some r, some e =>
      if p.waits || p.fail.isSome then s
      else match (List.range r.sentRound).find? fun k => !Step.ringSent e r k with
        | some k => match s.ringNext n p e r k with
          | .none => s
          | .bad l => ((s.ueRead l p.ctx (some e.handle)).lineBad l).endStep n stHbmUe none
          | .page g fmt fill crc data =>
            let v := tblGet [] r.visits k
            let w := if k = 0 then v ++ [⟨g, fmt, fill, crc, 0, true, false⟩] else v.map fun a => if a.page = g then { a with sent := true } else a
            let t := s.setStp n { p with ring := some { r with visits := tblIns r.visits k w } }
            t.ringSend n p e e.succ (ringHeader p e (k + 1) g fill fmt data.length crc ++ data) (.ringPage n k g)
        | none =>
          if 0 < r.credits ∧ r.sentRound + 1 < e.ringN then
            s.setStp n { p with ring := some { r with credits := r.credits - 1, sentRound := r.sentRound + 1 } }
          else s
    | _, _ => s

/-- Up to `k` actions of a ring member. -/
def State.ringPump (s : State) (n : Nat) : Nat → State
  | 0 => s
  | k + 1 => let t := s.ringPump1 n; if t = s then s else t.ringPump n k

/-- Actions in one go: more than a block and its credits need. -/
def ringBatch : Nat := 16

/-- A page of source round `k` has reached LOCAL_DONE. -/
def State.ringPageDone (s : State) (n k g : Nat) : State :=
  s.updStp n fun p => { p with ring := p.ring.map fun r =>
    { r with visits := tblMod r.visits k fun v => v.map fun w => if w.page = g then { w with done := true } else w } }

/-- A ring message has come whole (R124, R125): to the ring step with its RING_TAG, or nowhere. A page lands in buffer r mod 2. A ring step
that is admitted and not yet dispatched, which has sent its credits, counts as running here (DESIGN CHOICE, log entry 24). -/
def State.ringIn (s : State) (ctx : Nat) (bs : List Byte) : State :=
  let v := leNat (bs.take 64)
  match s.run.steps.find? fun e => e.2.ring.isSome && e.2.ctx == ctx && ((e.2.seqs.head?.map (·.ringTag)) == some (fld 32 v 128)) with
  | none => s
  | some (n, p) => match p.ring, p.seqs.head? with
    | some r, some e =>
      let fmt := bits v 31 28
      let round := bits v 95 88
      let g := bits v 63 50
      let pay := bs.drop 64
      if bits v 87 80 ≠ e.ringN ∨ bits v 79 64 ≠ e.chunkPages ∨ bits v 35 32 ≠ p.d.qfmt.toNat ∨ bits v 7 0 ≠ 1 then
        s.endStep n stRingBroken none
      else if fmt = 0 then
        (s.setStp n { p with ring := some { r with credits := r.credits + 1 }, stall := tblMod p.stall creditKey fun _ => s.tick }).ringPump n ringBatch
      else if crc32c pay ≠ fld 32 v 160 ∨ round = 0 ∨ e.ringN ≤ round ∨ !decide (g ∈ e.block (e.roundOf round)) then
        s.endStep n stRingBroken none
      else
        let old := tblGet [] r.visits round
        if old.any fun w => w.page == g then s
        else
          let b := s.bind p.ctx p.d.binding.toNat
          let f := r.frames.getD (round % 2 * e.blockPages + (e.block (e.roundOf round)).idxOf g) 0
          let w : VisitPage := ⟨g, fmt, bits v 49 41, fld 32 v 160, f, false, false⟩
          ((s.hwrite f 0 (pay.take (4096 * maxFootprint b))).setStp n { p with
            ring := some { r with visits := tblIns r.visits round (old ++ [w]) }, stall := tblMod p.stall (segRound 0 round) fun _ => s.tick }).ringPump
            n ringBatch
    | _, _ => s

/-- RING_BUFFER_RELEASE (R124): the buffer of the next round not yet released is free, and a credit goes to the
predecessor. -/
def execRingBufferRelease (step : Nat) (s : State) : Res :=
  match s.stp step with
  | none => .next s
  | some p => match p.ring, p.seqs.head? with
    | some r, some e =>
      let k := r.released + 1
      let v := tblGet [] r.visits k
      let cores := s.run.cores.filter fun c => c.2.step == step
      let whole := v.length == (e.block (e.roundOf k)).length
      let past := cores.all fun c => c.2.ph == .ended || c.2.seg.any fun a => a.1 % 64 == k + 1
      if !s.live || p.waits || p.fail.isSome || cores.isEmpty || e.ringN ≤ k || !(k + 1 == e.ringN || (whole && v.all (·.done)))
          || !past then .next s
      else .next ((s.setStp step { p with ring := some { r with released := k } }).ringCredit step k)
    | _, _ => .next s

end Sys2Proof.Machine
end

