-- ==== Sys2Proof/Machine/Park.lean ====
section
/-! DEFINITION. Parked copies and the moves that write and read them (06 R168-R186): seals, runs, parks, revivals and
demotions, below the commands. -/

namespace Sys2Proof.Machine

/-! ### Seals (06 R168, R169; 12 R343) -/

/-- Additional authenticated data of a copy. -/
def sealAad (off lg page fmt fill : Nat) (crc gen : W32) : List Byte :=
  leBytes 4 off ++ leBytes 1 lg ++ leBytes 2 page ++ leBytes 1 fmt ++ leBytes 2 fill ++ leBytes 4 crc.toNat ++ leBytes 2 gen.toNat

/-- A sealed copy: payload under the key, then the trailer. -/
def sealCopy (key nonce : Nat) (aad pay : List Byte) : List Byte :=
  let c := ctr key nonce pay
  c ++ leBytes 4 (crc32c pay).toNat ++ leBytes 12 nonce ++ leBytes 16 (Config.gcmTag key nonce aad c).toNat

/-- The payload of a copy whose TAG verifies. -/
def openCopy (key : Nat) (aad img : List Byte) : Option (List Byte) :=
  let n := img.length - 32
  let c := img.take n
  let t := leNat (img.drop n)
  let nonce := bits t 127 32
  if 32 ≤ img.length ∧ bits t 255 128 = (Config.gcmTag key nonce aad c).toNat then some (ctr key nonce c) else none

/-- The nonce of the next seal, and the counter after it. -/
def State.sealNonce (s : State) : Nat × State :=
  let c := (s.sec.sealCtr + 1) % 2 ^ 80
  (s.fab.ownId * 2 ^ 80 + c, s.modSec fun g => { g with sealCtr := c })

/-- Parking key of a context. -/
def State.parkKey (s : State) (ctx : Nat) : Nat := ((tblFind s.sec.ctx ctx).map (·.parkKey)).getD 0

/-! ### Places of a copy -/

/-- The second copy of index `n`. -/
def secondIdx (n : Nat) : Nat := n + 2 ^ 32

/-- Layer groups of a session's binding, at least 1. -/
def State.lgn (s : State) (x : Session) : Nat := max 1 (s.sbind x).lgn.toNat

/-- Entries in ascending layer group, and within one in ascending page index (R172, R180). -/
def lgOrder {α : Type} (lgn : Nat) (t : Table α) : List (Nat × α) := (List.range lgn).flatMap fun g => t.filter fun e => e.1 % lgn == g

/-- Hall address of frame `off` of a lease. -/
def leaseAddr (l : Lease) (off : Nat) : Nat := (l.rcd.base.toNat + 4096 * off) % 2 ^ 64

/-- A PUT or GET toward a lease, or the status it ends with at once: the lease is lost, or no node owns the address. -/
def State.bulkLease (s : State) (ctx lease off : Nat) (mk : Nat → W32 → BulkMsg) : Except Nat State :=
  match s.lease ctx lease with
  | none => .error stLease
  | some l =>
    if l.lost || !l.valid then .error stLease
    else
      let a := leaseAddr l off
      if !s.idOk a then .error stNoRoute
      else match s.ownerOf a with
        | none => .error stNoRoute
        | some (node, _, _) => .ok (s.bulkIssue node (mk a l.rcd.key))

/-- A copy is written (R164). -/
def State.putCopy (s : State) (ctx lease off : Nat) (img : List Byte) (u : Purpose) : Except Nat State :=
  s.bulkLease ctx lease off fun a k => bulkMsg 1 ctx 1 0 k a img.length img u

/-- A copy of `n` bytes is read. -/
def State.getCopy (s : State) (ctx lease off n : Nat) (u : Purpose) : Except Nat State :=
  s.bulkLease ctx lease off fun a k => bulkMsg 2 ctx 2 0 k a n [] u

/-- Bytes of the copy of a page. -/
def State.copyBytes (s : State) (x : Session) (fmt : Nat) : Nat := pageBytes (s.sbind x) fmt + 32
/-- Frames and bytes of a directory extent. -/
def extentFrames (d : Dir) : Nat := max 4 (d.size + 1)
def extentBytes (d : Dir) : Nat := 4096 * d.size + 32

/-- AAD of entry `n`, with `off` as its frame offset and `gen` as its generation. -/
def State.pageAad (s : State) (x : Session) (n off fmt fill : Nat) (crc gen : W32) : List Byte :=
  let g := s.lgn x
  sealAad off (n % g) (n / g) fmt fill crc gen

/-! ### Directory extents (R174) -/

/-- Position of a directory's frames in an extent: interior frames by key (the root first), then leaves. -/
def dirPlace (d : Dir) (frame : Nat → Nat) (tier : Nat) : Dir :=
  let inter := d.inter.zipIdx.map fun e => (e.1.1, frame e.2)
  let k := d.inter.length
  let leaves := d.leaves.zipIdx.map fun e => (e.1.1, frame (k + e.2))
  { d with inter := inter, leaves := leaves, root := frame 0, tier := tier }

/-- Bytes of an interior frame whose entry `i` names `f i`. -/
def interBytes (f : Nat → Option Nat) : List Byte :=
  (List.range 512).flatMap fun i => leBytes 8 (match f i with | some a => a + 2 ^ 63 | none => 0)

/-- Bytes of a directory, in the order of an extent. -/
def dirBytes (d : Dir) : List Byte :=
  (d.inter.flatMap fun e =>
    if e.1 = 0 then interBytes fun i => if d.depth = 2 then tblFind d.inter (i + 1) else tblFind d.leaves i
    else interBytes fun j => tblFind d.leaves (512 * (e.1 - 1) + j))
  ++ d.leaves.flatMap fun e => (List.range 256).flatMap fun j => leBytes 16 (pteNum (d.ent (256 * e.1 + j)))

/-- AAD of an extent: layer group 0xFF, page 0; fields that only a page has are 0 (DEDUCED, log entry 22). -/
def extentAad (off : Nat) (crc : W32) : List Byte := sealAad off 0xFF 0 0 0 crc 0

/-- An extent read back passes its checks. -/
def State.extentOk (s : State) (ctx off : Nat) (img : List Byte) : Bool :=
  let crc := BitVec.ofNat 32 (bits (leNat (img.drop (img.length - 32))) 31 0)
  match openCopy (s.parkKey ctx) (extentAad off crc) img with
  | some pay => crc32c pay == crc
  | none => false

/-! ### Time to live (R176) -/

def ttlTicks (ms : Nat) : Nat := (if ms = 0 then 2 ^ 32 else ms) * ticksPerMs

/-! ### Runs of a move (R167) -/

/-- Runs for a list of (index, frames). -/
def State.takeRuns (s : State) (ctx lease : Nat) : List (Nat × Nat) → Option (Table Nat × State)
  | [] => some ([], s)
  | (n, k) :: l => match s.runAlloc ctx lease k with
    | none => none
    | some (o, t) => (t.takeRuns ctx lease l).map fun r => (tblIns r.1 n o, r.2)

/-- Runs for the pages and, when `ext`, for a directory extent. -/
def State.takeMove (s : State) (ctx lease : Nat) (pages : List (Nat × Nat)) (ext : Option Nat) : Option (Table Nat × Option Nat × State) :=
  match s.takeRuns ctx lease pages with
  | none => none
  | some (r, t) => match ext with
    | none => some (r, none, t)
    | some k => (t.runAlloc ctx lease k).map fun a => (r, some a.1, a.2)

/-- Leases a move writes: its lease and, when dual, the partner. -/
def State.moveLeases (s : State) (x : Session) : List Nat :=
  x.move.lease :: (if x.move.dual then (s.paired x.ctx x.move.lease).toList else [])

/-- Every copy of the move is placed (R173). A page the park leaves in Tier 1 is waited for only where its copy has left. -/
def Session.allPlaced (x : Session) : Bool :=
  let ok := fun n => ((tblFind x.placed n).isSome && (!x.move.dual || (tblFind x.placed (secondIdx n)).isSome))
    || (x.keeps n && (tblFind x.sent n).isNone)
  x.runs.all (fun e => ok e.1) && (x.dirRun.isNone || ok dirIdx)

/-! ### Parking (R171-R174) -/

/-- Pages a park moves, with their parked frames. -/
def State.parkPages (s : State) (x : Session) (pf : Nat) : List (Nat × Nat) :=
  let b := s.sbind x
  (lgOrder (s.lgn x) (x.dir.ents.filter fun e => e.2.valid && e.2.tier == 1 && !e.2.pinned)).map fun e =>
    (e.1, parkedFrames b (if isParkFmt e.2.fmt then e.2.fmt else pf))

/-- Entry `n` as the last placement leaves it: `off` is its run, `crc` what the copy holds. -/
def movedPte (e : Pte) (lease off tier fmt : Nat) (crc : W32) (dual : Bool) : Pte :=
  { e.bump with tier := tier, frame := leaseFrame lease off, fmt := fmt, crc := crc, dual := dual, dirty := false, copyPend := false }

def State.tierOf (s : State) (ctx lease : Nat) : Nat := ((s.lease ctx lease).map (·.rcd.tier.toNat)).getD 2

/-- Format a park gives a page. -/
def parkFmtOf (pf : Nat) (e : Pte) : Nat := if isParkFmt e.fmt then e.fmt else pf

/-- The session's directory with its moved entries rewritten; a page the park leaves in Tier 1 keeps its entry (05 R139). -/
def State.movedDir (s : State) (x : Session) : Dir :=
  let m := x.move
  let tier := s.tierOf x.ctx m.lease
  (x.runs.filter fun r => !x.keeps r.1).foldl (fun d r =>
    let e := d.ent r.1
    d.setEnt r.1 (movedPte e m.lease r.2 tier (if m.kind = 1 then parkFmtOf m.pfmt e else e.fmt)
      ((tblFind x.sent r.1).map (·.2) |>.getD e.crc) m.dual)) x.dir

/-- The directory as its extent holds it, when the move writes one. -/
def State.movedExtent (s : State) (x : Session) (o : Nat) : Dir :=
  dirPlace (s.movedDir x) (fun i => leaseFrame x.move.lease (o + i)) (s.tierOf x.ctx x.move.lease)

/-- The park is placed (R173, R174): entries rewritten, Tier 1 frames freed, the session PARKED. A page it leaves in Tier 1 gives its run
back (05 R139). -/
def State.parkDone (s : State) (h : Nat) (x : Session) : State :=
  let d := match x.dirRun with | some o => s.movedExtent x o | none => s.movedDir x
  let s0 := s.each (x.runs.filter fun r => x.keeps r.1) fun t r => t.runFree x.ctx x.move.lease r.2
  let s1 := s0.unitsFree ((x.runs.filter fun r => !x.keeps r.1).map fun r => (x.dir.ent r.1).frame)
  let s2 := if x.dirRun.isSome then s1.unitsFree x.dir.frames else s1
  let y := { x with dir := d, dual := x.move.dual, move := moveNone, runs := [], dirRun := none, placed := [], sent := [],
                    relanded := [], kept := [], ttlDeadline := s.tick + ttlTicks x.ttlMs }
  let z := y.goto s.tick .parked
  (((s2.setSess h x).moveEnd h).setSess h z).sesEvent h x z 1 stOk 1

/-- A park that moves nothing is placed at once. -/
def State.parkCheck (s : State) (h : Nat) : State :=
  match s.sess h with
  | some x => if x.state = .parking && !x.parkPend && x.move.kind = 1 && x.allPlaced then s.parkDone h x else s
  | none => s

/-- The park fails (R173). -/
def State.parkFail (s : State) (h status : Nat) : State :=
  match s.sess h with
  | none => s
  | some x =>
    let t := (s.runsFree x x.move.lease).moveEnd h
    let y := { (t.sess h).getD x with parkPend := false }
    let z := if x.state = .parking then y.goto s.tick .idle else y
    (t.setSess h z).sesEvent h x z 1 status 1

/-- A PARK whose checks passed: runs `runs` are taken, its parameters recorded; an IDLE session starts at once. -/
def State.parkAccept (s : State) (h : Nat) (x : Session) (pf lease exp : Nat) (dual dirOut : Bool) (ttl : W32)
    (runs : Table Nat) (dirRun : Option Nat) : State :=
  let m : Move := { moveNone with start := s.tick, total := runs.length, lease := lease, pfmt := pf, kind := 1, dual := dual, dirOut := dirOut }
  let y := { x with parkFmt := pf, expiry := exp, ttlMs := ttl.toNat, move := m, runs := runs, dirRun := dirRun, placed := [], sent := [] }
  if x.state = .active then s.setSess h ({ y with parkPend := true }.goto s.tick .active)
  else (s.setSess h (y.goto s.tick .parking)).parkCheck h

/-- A pending park starts: runs of entries that have gone, or whose pages have been pinned since (05 R139), are freed. -/
def State.parkStart (s : State) (h : Nat) (x : Session) : State :=
  let stays := fun (r : Nat × Nat) => let e := x.dir.ent r.1; e.valid && !e.pinned
  let t := s.each (x.runs.filter fun r => !stays r) fun t r => t.runFree x.ctx x.move.lease r.2
  let runs := x.runs.filter stays
  let y := { x with parkPend := false, runs := runs, move := { x.move with start := s.tick, total := runs.length } }
  if (s.moveLeases x).all (s.leaseOk x.ctx) then (t.setSess h y).parkCheck h
  else (t.setSess h y).parkFail h stLease

/-! ### Demotion (R178) -/

/-- The lease that holds a session's parked copies (R179): the one DIR_ROOT names for a directory in a lease, whose entries a
sweep does not rewrite, else the one the entries name. -/
def dirCopyLease (d : Dir) : Option Nat :=
  if 2 ≤ d.tier then some (frameLease d.root)
  else (d.ents.find? fun e => e.2.valid && decide (2 ≤ e.2.tier)).map fun e => frameLease e.2.frame

/-- A suspended revival is abandoned: landed and reserved Tier 1 frames and the new directory are freed, and the parked
directory is the session's again. A landed page whose parked copy a loss took survives in Tier 1 (R192). -/
def State.abandonRevival (s : State) (h : Nat) : State :=
  match s.sess h with
  | none => s
  | some x => match x.pdir with
    | none => s
    | some d =>
      let s1 := s.each x.dir.ents fun t e => if decide (2 ≤ (d.ent e.1).tier) && e.2.valid && e.2.tier == 1 then t.unitFree e.2.frame else t
      let s2 := s1.unitsFree x.dir.frames
      let stay := x.dir.ents.filter fun e => e.2.landed && !(d.ent e.1).valid
      let d' := stay.foldl (fun a e => a.setEnt e.1 e.2) d
      (s2.moveEnd h).updSess h fun y => { y with dir := d', pdir := none, hinted := false, extWait := false, reland := [], relanded := [] }

/-- The demotion fails. -/
def State.demoteFail (s : State) (h status : Nat) : State :=
  match s.sess h with
  | none => s
  | some x =>
    let t := (s.runsFree x x.move.lease).moveEnd h
    let z := { (t.sess h).getD x with demoting := false, extWait := false }
    (t.setSess h z).sesEvent h x z 2 status 3

/-- The demotion is placed. -/
def State.demoteDone (s : State) (h : Nat) (x : Session) : State :=
  let d := match x.dirRun with | some o => s.movedExtent x o | none => s.movedDir x
  let s1 := s.each x.runs fun t r => t.copyFree x.ctx (x.dir.ent r.1)
  let s2 := if x.dirRun.isSome then s1.dirFree x.ctx x.dir else s1
  let t := ((s2.setSess h x).moveEnd h).count 0x310A 3
  let z := { (t.sess h).getD x with dir := d, dual := x.move.dual, demoting := false, expiry := 0 }
  (t.setSess h z).sesEvent h x z 2 stOk 3

def State.demoteCheck (s : State) (h : Nat) : State :=
  match s.sess h with
  | some x => if x.demoting && !x.extWait && x.allPlaced then s.demoteDone h x else s
  | none => s

/-- The page reads of a demotion, each entry read under R191. -/
def State.demotePages (s : State) (h : Nat) (x : Session) : Except Nat State :=
  (lgOrder (s.lgn x) (x.dir.ents.filter fun e => (tblFind x.runs e.1).isSome)).foldl (fun r e =>
    match r with
    | .error st => .error st
    | .ok t =>
      let p := t.readPte x.ctx e.2
      if !p.valid then .ok t
      else t.getCopy x.ctx (frameLease p.frame) (frameOff p.frame) (t.copyBytes x p.fmt) (.demoteRead h e.1)) (.ok s)

/-- The reads of a demotion: the extent first, where the directory is out. -/
def State.demoteReads (s : State) (h : Nat) (x : Session) : Except Nat State :=
  if x.dirRun.isSome then
    s.getCopy x.ctx (frameLease x.dir.root) (frameOff x.dir.root) (extentBytes x.dir) (.demoteRead h dirIdx)
  else s.demotePages h x

/-- A DEMOTE expiry of a session that the sweep before it has left PARKED. One that holds no parked copy names no source lease: its
demotion is placed at once, and DEMOTE_TTL counts as 0, which is 2^32 ms (DESIGN CHOICE, log entry 39). -/
def State.demoteStart (s : State) (h : Nat) : State :=
  let s0 := if (s.sess h).any fun x => x.state == .parked then s.abandonRevival h else s
  match (s0.sess h).filter fun x => x.state == .parked with
  | none => s
  | some x =>
    let src := (dirCopyLease x.dir).bind fun l => s0.lease x.ctx l
    let dst := (src.map (·.rcd.demoteTo.toNat)).getD 0
    let dual := (s0.paired x.ctx dst).isSome
    let y := { x with demoting := true, lastChange := s.tick, ttlDeadline := s.tick + ttlTicks ((src.map (·.rcd.demoteTtl.toNat)).getD 0)
                      move := { moveNone with start := s.tick, lease := dst, kind := 3, dual := dual } }
    let t := s0.setSess h y
    let b := s0.sbind x
    let pages := (lgOrder (s0.lgn x) (x.dir.ents.filter fun e => e.2.valid && decide (2 ≤ e.2.tier))).map fun e =>
      (e.1, parkedFrames b e.2.fmt)
    let ext := if 2 ≤ x.dir.tier then some (extentFrames x.dir) else none
    if (dirCopyLease x.dir).isNone then t.demoteCheck h
    else if !(src.any fun l => l.rcd.demoteEn) || !s0.leaseOk x.ctx dst then t.demoteFail h stLease
    else match t.takeMove x.ctx dst pages ext with
      | none => t.demoteFail h stLeaseFull
      | some (runs, dr, u) =>
        let z := { y with runs := runs, dirRun := dr, move := { y.move with total := runs.length }, extWait := dr.isSome }
        match (u.setSess h z).demoteReads h z with
        | .error st => (u.setSess h z).demoteFail h st
        | .ok v => v

/-! ### Placement and failure of the copies a move writes -/

/-- A copy is placed (R173). -/
def State.copyPlaced (s : State) (h n : Nat) (second : Bool) : State :=
  match s.sess h with
  | none => s
  | some x =>
    let placed := tblIns x.placed (if second then secondIdx n else n) ()
    let y0 := { x with placed := placed }
    let done := (y0.runs.filter fun r => (tblFind placed r.1).isSome && (!x.move.dual || (tblFind placed (secondIdx r.1)).isSome)).length
    let y := { y0 with move := { x.move with done := done } }
    let t := s.setSess h y
    if x.demoting then t.demoteCheck h else t.parkCheck h

/-- A park or demotion fails. -/
def State.writeFail (s : State) (h status : Nat) : State :=
  match s.sess h with
  | none => s
  | some x => if x.demoting then s.demoteFail h status else if x.move.kind = 1 then s.parkFail h status else s

/-- Copy of index `n` with plaintext `pay` leaves for its run in every lease of the move. -/
def State.sendCopy (s : State) (h : Nat) (x : Session) (n off : Nat) (aad pay : List Byte) (u : Bool → Purpose) : State :=
  let r := s.sealNonce
  let img := sealCopy (s.parkKey x.ctx) r.1 aad pay
  let y := { x with sent := tblIns x.sent n (off, crc32c pay) }
  let go := fun (e : Except Nat State) (l : Nat × Nat) => match e with
    | .error st => .error st
    | .ok t => t.putCopy x.ctx l.1 off img (u (l.2 == 1))
  match (s.moveLeases x).zipIdx.foldl go (.ok (r.2.setSess h y)) with
  | .ok t => t
  | .error st => (r.2.setSess h y).writeFail h st

/-- The directory extent of the move leaves: what the park leaves in Tier 1 is settled. -/
def State.sendExtent (s : State) (h : Nat) (x : Session) (o : Nat) : State :=
  let pay := dirBytes (s.movedExtent x o)
  let y := { x with kept := (x.runs.filter fun r => x.keeps r.1).map (·.1) }
  s.sendCopy h y dirIdx o (extentAad o (crc32c pay)) pay (.parkDir h)

/-! ### Revival (R180-R185) -/

/-- Landing format (R181). -/
def landFmt (b : BindRec) (e : Pte) (narrow : Bool) : Nat :=
  if narrow && e.fill == 256 then e.fmt else b.resFmt.toNat

/-- The new directory of a revival: frames for every page outside Tier 1, and for every directory frame. -/
def State.newDir (s : State) (x : Session) (narrow : Bool) : Option (Dir × State) :=
  let b := s.sbind x
  let step := fun (a : Option (Dir × State)) (e : Nat × Pte) => match a with
    | none => none
    | some (d, t) =>
      match t.dirNeed x.ctx x.homeDie e.1 d with
      | none => none
      | some (d1, t1) =>
        let c := t1.readPte x.ctx e.2
        if c.valid && decide (2 ≤ c.tier) then
          let f := landFmt b c narrow
          (t1.unitAlloc x.ctx x.homeDie (.pages (footprint b f))).map fun r =>
            (d1.setEnt e.1 { c.bump with tier := 1, frame := r.1, fmt := f, copyPend := true, dual := false, dirty := false }, r.2)
        else some (d1.setEnt e.1 c, t1)
  x.dir.ents.foldl step (s.dirFresh x.ctx x.homeDie)

/-- A revival of `h` waits for page `n`: no read of it is under way. -/
def State.unread (s : State) (h n : Nat) : Bool :=
  let mine := fun (u : Purpose) => match u with | .revivePage a m _ => a == h && m == n | _ => false
  !(tblAny s.bulk.gets (fun _ g => mine g.purpose)
    || tblAny s.bulk.flows (fun _ f => tblAny f.msgs (fun _ m => mine m.purpose) || f.waiting.any fun m => mine m.purpose)
    || s.bulk.noFlow.any (fun e => mine e.2.purpose) || s.ses.staged.any (fun j => j.handle == h && j.n == n)
    || tblAny s.ses.movers fun _ j => j.land && j.handle == h && j.n == n)

/-- The revival fails (R184): the session is PARKED, SUSPENDED; a LOST one stays LOST. -/
def State.reviveFail (s : State) (h status : Nat) : State :=
  match s.sess h with
  | none => s
  | some x =>
    if x.pdir.isNone then s
    else
      let t := (s.orphan (Purpose.ofSession h)).modSes fun g => { g with
        movers := tblKeep g.movers fun _ j => j.handle != h, staged := g.staged.filter fun j => j.handle != h }
      if x.state = .reviving then
        let y := { x with move := { x.move with suspended := true }, ttlDeadline := s.tick + ttlTicks x.ttlMs }
        let z := y.goto s.tick .parked
        (t.setSess h z).sesEvent h x z 1 status 2
      else if x.state = .lost then
        let z := { x with move := { x.move with suspended := true } }
        (t.setSess h z).sesEvent h x z 1 status 2
      else t

/-- Every page not landed and not being read is requested (R180). A read of a lost lease is left to R191. -/
def State.requestPages (s : State) (h : Nat) : State :=
  match s.sess h with
  | none => s
  | some x => match x.pdir with
    | none => s
    | some d =>
      if x.extWait then s
      else
        let want := lgOrder (s.lgn x) (x.dir.ents.filter fun e => e.2.copyPend)
        let go := fun (r : Except Nat State) (e : Nat × Pte) => match r with
          | .error st => .error st
          | .ok t =>
            let p := t.readPte x.ctx (d.ent e.1)
            if !p.valid || !t.unread h e.1 then .ok t
            else match t.getCopy x.ctx (frameLease p.frame) (frameOff p.frame) (t.copyBytes x p.fmt) (.revivePage h e.1 false) with
              | .ok u => .ok u
              | .error st => if st = stLease then .ok t else .error st
        match want.foldl go (.ok s) with
        | .ok t => t
        | .error st => s.reviveFail h st

/-- The extent of a parked directory is requested. -/
def State.requestExtent (s : State) (h : Nat) (second : Bool) (u : Purpose) : State × Option Nat :=
  match s.sess h with
  | none => (s, none)
  | some x =>
    let d := x.pdir.getD x.dir
    let r := s.readPte x.ctx (dirPte x d)
    let l := if second then (s.paired x.ctx (frameLease r.frame)).getD 4096 else frameLease r.frame
    match s.getCopy x.ctx l (frameOff r.frame) (extentBytes d) u with
    | .ok t => (t, none)
    | .error st => (s, some st)

/-- An accepted revival starts or resumes its reads. -/
def State.reviveGo (s : State) (h : Nat) : State :=
  match s.sess h with
  | none => s
  | some x =>
    if x.extWait then
      match s.requestExtent h false (.reviveDir h false) with
      | (t, none) => t
      | (t, some st) => if st = stLease then t else t.reviveFail h st
    else (s.requestPages h).reviveCheck h

/-- Checks 3 and 4 of R180 and the acceptance; `hint`: REVIVE_HINT (R185). -/
def State.reviveAccept (s : State) (h : Nat) (narrow hint : Bool) : Except Nat State :=
  match s.sess h with
  | none => .error stNoSession
  | some x =>
    if s.awakeFull then .error stAwakeLimit
    else if x.pdir.isSome then
      let y := { x with hinted := hint, ttlDeadline := 0
                        move := { x.move with start := s.tick, suspended := false, held := hint } }
      .ok ((s.setSess h (y.goto s.tick .reviving)).reviveGo h)
    else
      let s0 := if x.demoting then (s.runsFree x x.move.lease).moveEnd h else s
      let x0 := { (s0.sess h).getD x with demoting := false, extWait := false }
      match s0.newDir x0 narrow with
      | none => .error stNoFrame
      | some (d, t) =>
        let old := x0.dir
        let m : Move := { moveNone with
          start := s.tick, total := (d.ents.filter fun e => e.2.copyPend).length, proot := old.root,
          lease := (dirCopyLease old).getD 0, kind := 2, pdepth := old.depth, ptier := old.tier, narrow := narrow, held := hint }
        let y := { x0 with hinted := hint, move := m, dir := d, pdir := some old, extWait := decide (2 ≤ old.tier), ttlDeadline := 0,
                           reland := [], relanded := [] }
        .ok ((t.setSess h (y.goto s.tick .reviving)).reviveGo h)

/-- Bytes that landed for a revival of page `n`: payload in the landing format, zeros from FILL on (05 R137). -/
def State.landBytes (s : State) (x : Session) (p e : Pte) (pay : List Byte) : List Byte :=
  let b := s.sbind x
  if e.fmt = p.fmt then pay
  else
    let bs := codecExpand p.fmt e.fmt (bindCk b) (bindCv b) (fun i => pay.getD i 0)
    let wk := keyBits e.fmt / 8 * bindCk b
    let wv := valBits e.fmt / 8 * bindCv b
    let vo := valOff e.fmt (bindCk b)
    bs.mapIdx fun i c => if i < vo then (if p.fill ≤ i / max 1 wk then 0 else c) else if p.fill ≤ (i - vo) / max 1 wv then 0 else c

/-- The directory extent of a revival has been read. -/
def State.extentRead (s : State) (h : Nat) (second : Bool) (img : List Byte) : State :=
  match s.sess h with
  | none => s
  | some x => match x.pdir with
    | none => s
    | some d =>
      if !x.extWait then s
      else if s.extentOk x.ctx (frameOff d.root) img then
        -- the entries are read under R191 now that they are known
        let t := s.setSess h { x with extWait := false, sweep := true }
        ((t.sweepSess h).requestPages h).reviveCheck h
      else
        let t := s.count 0x310C 3
        let fail := fun (u : State) => (u.record
          { sev := 1, code := 0x0005, source := 0x08, unit := 0, ctx := x.ctx, handle := some h, addr := 0xFF * 2 ^ 14, shared := true }).loseAll h x
        if x.dual && !second && (s.paired x.ctx (frameLease d.root)).isSome then
          match t.requestExtent h true (.reviveDir h true) with
          | (u, none) => u
          | (u, some st) => if st = stLease then fail u else u.reviveFail h st
        else fail t

/-- The session's move fails with a bulk status; a read of a lost lease leaves its page to R191. -/
def State.readFail (s : State) (h status : Nat) : State :=
  match s.sess h with
  | none => s
  | some x =>
    if x.demoting then s.demoteFail h status
    else if status = stLease then s
    else s.reviveFail h status

/-- A reservation that names the page takes its CRC and GEN as they stand from here on (05 R147). -/
def State.noteEntry (s : State) (h n : Nat) (e : Pte) : State :=
  s.modRun fun r => { r with steps := tblMap r.steps fun _ p =>
    { p with undo := p.undo.map fun u => if u.handle = h ∧ u.n = n then { u with crc := e.crc, gen := e.gen } else u } }

/-- A page of layer group `g` of session `h` has landed: waits on its segment are timed anew (R120). -/
def State.noteLanding (s : State) (h g : Nat) : State :=
  s.modRun fun r => { r with steps := tblMap r.steps fun _ p =>
    if g < p.d.firstLg.toNat then p
    else { p with stall := p.seqs.zipIdx.foldl (fun l e =>
      if e.1.handle = h then tblMod l (segOwn e.2 (g - p.d.firstLg.toNat)) fun _ => s.tick else l) p.stall } }

/-- A copy of page `n` reached mover `mv` (R182): checked, expanded, written; or its partner is read; or the page is
lost. -/
def State.landPage (s : State) (mv h n : Nat) (second : Bool) (img : List Byte) : State :=
  match s.sess h with
  | none => s
  | some x =>
    let e := x.dir.ent n
    match x.pdir.map fun d => s.readPte x.ctx (d.ent n) with
    | none => s
    | some p =>
      if !e.copyPend || !p.valid then s
      else
        let g := s.lgn x
        let pay := openCopy (s.parkKey x.ctx) (s.pageAad x n (frameOff p.frame) p.fmt p.fill p.crc p.gen) img
        match pay.filter fun b => crc32c b == p.crc with
        | some b =>
          let bs := s.landBytes x p e b
          let again := decide (n ∈ x.reland)
          let e' : Pte := { e.bump with copyPend := false, crc := crc32c bs, dirty := false }
          let y := { x with
            dir := x.dir.setEnt n e'
            move := if again then x.move else { x.move with done := x.move.done + 1 }
            reland := x.reland.filter (· != n), relanded := if again then n :: x.relanded else x.relanded }
          let t := ((s.hwrite e.frame 0 bs).setSess h y).noteEntry h n e'
          ((if again then t.count 0x9005 3 else t).noteLanding h (n % s.lgn x)).reviveCheck h
        | none =>
          let t := s.count 0x310C 3
          let lose := fun (u : State) =>
            let v := (u.record { sev := 1, code := 0x0005, source := 0x08, unit := mv, ctx := x.ctx, handle := some h,
                                 addr := n / g % 2 ^ 14 + n % g * 2 ^ 14, shared := true }).copyFree x.ctx p
            let w := v.updSess h fun y =>
              { y with pdir := y.pdir.map (fun d => d.setEnt n pteNone), reland := y.reland.filter (· != n) }
            (w.pageLost h n false).reviveCheck h
          if p.dual && !second then
            match (s.paired x.ctx (frameLease p.frame)) with
            | none => lose t
            | some l => match t.getCopy x.ctx l (frameOff p.frame) (t.copyBytes x p.fmt) (.revivePage h n true) with
              | .ok u => u
              | .error st => if st = stLease then lose t else t.reviveFail h st
          else lose t

/-- A copy to be demoted reached a mover (R169, R178): unsealed, sealed again for its new place. -/
def State.reseal (s : State) (h n : Nat) (second : Bool) (img : List Byte) : State :=
  match s.sess h with
  | none => s
  | some x => match tblFind x.runs n with
    | none => s
    | some o =>
      let e := s.readPte x.ctx (x.dir.ent n)
      let pay := openCopy (s.parkKey x.ctx) (s.pageAad x n (frameOff e.frame) e.fmt e.fill e.crc e.gen) img
      match pay.filter fun b => crc32c b == e.crc with
      | some b => s.sendCopy h x n o (s.pageAad x n o e.fmt e.fill e.crc (e.gen + 1)) b (.parkPage h n)
      | none =>
        let t := s.count 0x310C 3
        match (if e.dual && !second then s.paired x.ctx (frameLease e.frame) else none) with
        | none => t.demoteFail h stHbmUe
        | some l => match t.getCopy x.ctx l (frameOff e.frame) (t.copyBytes x e.fmt) (.demoteRead h (secondIdx n)) with
          | .ok u => u
          | .error st => t.demoteFail h st

/-- The extent of a session being demoted has been read (R191): its entries are rewritten as they read, and the pages are asked
for; a lost entry ends the demotion, and the session is LOST. -/
def State.demoteExtent (s : State) (h : Nat) (second : Bool) (img : List Byte) : State :=
  match s.sess h with
  | none => s
  | some x =>
    let off := frameOff x.dir.root
    if !x.extWait then s
    else if s.extentOk x.ctx off img then
      let t := s.sweepExtent h { x with extWait := false }
      match t.sess h with
      | none => t
      | some y =>
        if y.state == .lost then (t.runsFree y y.move.lease).moveEnd h |>.updSess h fun z => { z with demoting := false }
        else match t.demotePages h y with
          | .ok u => u.demoteCheck h
          | .error st => t.demoteFail h st
    else
      let t := s.count 0x310C 3
      match (if x.dual && !second then s.paired x.ctx (frameLease x.dir.root) else none) with
      | none => t.demoteFail h stHbmUe
      | some l => match t.getCopy x.ctx l off (extentBytes x.dir) (.demoteRead h (secondIdx dirIdx)) with
        | .ok u => u
        | .error st => t.demoteFail h st

/-! ### What a mover reads from Tier 1 (R172) -/

/-- A mover reads page `n` to park or to migrate it; its payload, or the state after the failure (16 R443). -/
def State.moverRead (s : State) (mv h n : Nat) (ue : Option Nat) (x : Session) : Except State (List Byte) :=
  let e := x.dir.ent n
  let len := pageBytes (s.sbind x) e.fmt
  let g := s.lgn x
  let bad := (ue.filter fun i => decide (64 * i < len)).map fun i => 64 * e.frame + i
  match (s.hbad e.frame 0 len).orElse fun _ => bad with
  | some l => .error ((s.ueRead l x.ctx (some h)).lineBad l)
  | none =>
    let pay := s.hread e.frame 0 len
    if crc32c pay = e.crc then .ok pay
    else .error ((s.record { sev := 2, code := 0x0004, source := 0x08, unit := mv, status := stHbmUe, ctx := x.ctx, handle := some h,
                             addr := n / g % 2 ^ 14 + n % g * 2 ^ 14, shared := true }).pageBad h n)

/-- A mover parks page `n`. -/
def State.parkPage (s : State) (mv h n : Nat) (ue : Option Nat) : State :=
  match s.sess h with
  | none => s
  | some x => match tblFind x.runs n with
    | none => s
    | some o =>
      let e := x.dir.ent n
      match s.moverRead mv h n ue x with
      | .error t => match t.sess h with
        | some y => if y.state = .parking then t.parkFail h stHbmUe else t
        | none => t
      | .ok pay =>
        let b := s.sbind x
        let f := parkFmtOf x.move.pfmt e
        let out := if f = e.fmt then pay else codecEncode e.fmt f (bindCk b) (bindCv b) e.fill fun i => pay.getD i 0
        s.sendCopy h x n o (s.pageAad x n o f e.fill (crc32c out) (e.gen + 1)) out (.parkPage h n)

end Sys2Proof.Machine
end

