-- ==== Sys2Proof/Machine/Ckpt.lean ====
section
/-! DEFINITION. Checkpoint and restore below their commands (13): the manifest, the trigger checks, the cut, the drain
and the restore. -/

namespace Sys2Proof.Machine

/-! ### The manifest (R367-R370) -/

/-- Bits of an element of width code ELEM; none when it is reserved. -/
def ckptBits : Nat → Nat
  | 0 => 4 | 1 => 6 | 2 => 8 | 3 => 16 | 4 => 32 | _ => 0

/-- Four fields of 32 bits from bit `lo` on. -/
def quads (v lo : Nat) : List Nat := (List.range 4).map fun a => bits v (lo + 32 * a + 31) (lo + 32 * a)
/-- ORDER as axes by position. -/
def orderOf (v : Nat) : List Nat := (List.range 4).map fun i => v / 4 ^ i % 4

/-- A tensor entry. -/
def decTensor (v : Nat) : Tensor :=
  { tid := fld 256 v 768, shape := quads v 640, lo := quads v 512, hi := quads v 384, addr := bits v 383 336, dtype := bits v 19 16,
    order := orderOf (bits v 15 8), elem := bits v 4 2, rank := bits v 1 0 + 1 }

/-- Header fields of the manifest at `a`, with TENSORS and MVER. -/
def State.manHeader (s : State) (ctx a : Nat) : Manifest × Nat × Nat :=
  let v := s.cnum ctx a 64
  (⟨bits v 303 256, bits v 255 240, bits v 239 192, bits v 191 144, bits v 127 116, []⟩, bits v 26 16, bits v 7 0)

/-- The manifest at `a`. -/
def State.manifest (s : State) (ctx a : Nat) : Manifest × Nat × Nat :=
  let h := s.manHeader ctx a
  ({ h.1 with tensors := (List.range h.2.1).map fun i => decTensor (s.cnum ctx (a + 64 + 128 * i) 128) }, h.2)

/-- Extent of axis `a` of a box. -/
def axisLen (lo hi : List Nat) (a : Nat) : Nat := hi.getD a 1 - lo.getD a 0
/-- Elements of a box over the first `r` axes. -/
def boxLen (lo hi : List Nat) (r : Nat) : Nat := ((List.range r).map (axisLen lo hi)).foldl (· * ·) 1
/-- Axis at an ORDER position. -/
def axisAt (order : List Nat) (i : Nat) : Nat := order.getD i 0

/-- Major-most and minor-most axes of a tensor. -/
def Tensor.major (t : Tensor) : Nat := axisAt t.order (t.rank - 1)
def Tensor.minor (t : Tensor) : Nat := axisAt t.order 0
/-- Bits of a major slice. -/
def Tensor.sliceBits (t : Tensor) : Nat := ckptBits t.elem * (boxLen t.lo t.hi t.rank / max 1 (axisLen t.lo t.hi t.major))
/-- Bytes of the box. -/
def Tensor.bytes (t : Tensor) : Nat := ceilDiv (ckptBits t.elem * boxLen t.lo t.hi t.rank) 8

/-- Slices per shard: as many as fit, and in a tensor of one axis so many that the shard ends at a byte. -/
def Tensor.perShard (t : Tensor) : Nat :=
  let n := 536870912 / max 1 t.sliceBits
  if t.rank = 1 then n / 4 * 4 else n

/-- Shards of tensor number `i` (R369). -/
def Tensor.shards (i : Nat) (t : Tensor) : List Shard :=
  let p := max 1 t.perShard
  let l := t.lo.getD t.major 0
  let h := t.hi.getD t.major 1
  (List.range (ceilDiv (h - l) p)).map fun k =>
    let a := l + k * p
    let b := min h (a + p)
    { tensor := i, lo := a, hi := b, addr := t.addr + k * p * t.sliceBits / 8, len := ceilDiv ((b - a) * t.sliceBits) 8, frame := 0 }

/-- Every shard of a manifest, in ascending tensor entry and shard. -/
def Manifest.shards (m : Manifest) : List Shard := m.tensors.zipIdx.flatMap fun e => Tensor.shards e.2 e.1

/-- One axis of a tensor entry is well formed. -/
def Tensor.axisOk (t : Tensor) (a : Nat) : Bool :=
  let lo := t.lo.getD a 0
  let hi := t.hi.getD a 0
  if a < t.rank then
    decide (lo < hi) && decide (hi ≤ t.shape.getD a 0) && decide (((List.range t.rank).filter fun i => axisAt t.order i == a).length = 1)
    && (a != t.minor || (match t.elem with | 0 => lo % 2 == 0 && hi % 2 == 0 | 1 => lo % 4 == 0 && hi % 4 == 0 | _ => true))
  else t.shape.getD a 0 == 1 && lo == 0 && hi == 1

/-- A tensor entry passes R370. -/
def Tensor.ok (t : Tensor) : Bool :=
  decide (t.elem ≤ 4) && decide (t.dtype ≤ 15) && t.addr % 64 == 0 && (List.range 4).all t.axisOk
  && decide (t.sliceBits ≤ 536870912) && decide (t.addr + t.bytes ≤ 2 ^ 48)

/-- R370 for context `ctx`: the manifest, or none. -/
def State.manifestOf (s : State) (ctx : Nat) : Option Manifest :=
  let a := s.obj 0x8001 1 ctx
  let h := s.manHeader ctx a
  if a = 0 ∨ h.2.2 ≠ 1 ∨ h.2.1 < 1 ∨ 1024 < h.2.1 then none
  else
    let m := (s.manifest ctx a).1
    if m.tensors.all Tensor.ok && decide (m.shards.length ≤ 2047) && decide (1 ≤ m.reportMax) && m.report % 64 == 0 && m.rlist % 64 == 0
        && m.mark % 8 == 0 && decide (m.mark + 8 ≤ 2 ^ 48) && decide (m.report + 64 + 16 * m.reportMax ≤ 2 ^ 48)
        && s.leaseOk ctx m.lease && s.tierOf ctx m.lease == 3 then some m
    else none

/-! ### State of a context -/

/-- Nothing in progress and nothing kept. -/
def ckptNone : Ckpt :=
  { state := 0, trigger := 0, since := 0, seq := 0, step := 0, man := none, uncopied := [], shadow := [], shards := [], leases := [],
    old := [], part := 0, placed := 0, bad := [], rest := none }

def State.ckpt (s : State) (ctx : Nat) : Ckpt := tblGet ckptNone s.cks.tbl ctx
def State.setCkpt (s : State) (ctx : Nat) (k : Ckpt) : State := s.modCks fun g => { g with tbl := tblPut ckptNone g.tbl ctx k }

/-- Frames of context memory, as keys, that the shards cover, ascending. -/
def coverOf (ctx : Nat) (l : List Shard) : List Nat :=
  (l.flatMap fun x => cframes ctx x.addr x.len).foldl (fun a f => if decide (f ∈ a) then a else a ++ [f]) []

/-- Die of a context frame. -/
def frameDie (f : Nat) : Nat := ctxFrame f / framesPerDie

/-- Frames of a cut on a die are still to be copied. -/
def State.cutOn (s : State) (die : Nat) : Bool := s.cks.tbl.any fun e => e.2.uncopied.any fun f => frameDie f == die

/-- Shadow frames in use on a die. -/
def State.shadowUsed (s : State) (die : Nat) : Nat :=
  (s.cks.tbl.map fun e => ((coverOf e.1 e.2.shards).filter fun f => frameDie f == die).length).foldl (· + ·) 0

/-- HBM line of the shadow copy of a byte of context memory: in the shadow area of the frame's die (R375). Which of its frames holds the
copy of a frame the spec does not say: any (free value, log entry 68). -/
def State.shadowLine (s : State) (a : Nat) : Nat :=
  let d := frameDie (a / 4096)
  let n := 512 * s.obj 0x8000 1 d
  64 * (d * framesPerDie + (framesUsable - n) + Config.shadowFrame (a / 4096) % max 1 n) + a % 4096 / 64

/-- A checkpoint event (R386). -/
def State.ckptEvent (s : State) (ctx code status seq value : Nat) : State :=
  match s.firstPair ctx with
  | some q => s.otherEvent q ctx code status seq value
  | none => s

/-- Frames of a sealed shard (06 R168). -/
def shardFrames (x : Shard) : Nat := max 4 (ceilDiv (x.len + 32) 4096)

/-- Runs for shards, or none. -/
def State.shardRuns (s : State) (ctx lease : Nat) : List Shard → Option (List Nat × State)
  | [] => some ([], s)
  | x :: l => match s.runAlloc ctx lease (shardFrames x) with
    | none => none
    | some (o, t) => (t.shardRuns ctx lease l).map fun r => (o :: r.1, r.2)

/-- Frames 0 to 255 of a lease become the checkpoint's, where they are free. -/
def State.takeSlots (s : State) (ctx lease : Nat) (k : Ckpt) : Option State :=
  if decide (lease ∈ k.leases) then some s
  else match s.lease ctx lease with
    | none => none
    | some l =>
      if l.rcd.len.toNat < 256 || l.runs.any (fun r => decide (r.1 < 256)) then none
      else
        let put := fun (y : Lease) => { y with runs := tblIns y.runs 0 256 }
        let t := s.updLease ctx lease put
        some (match s.paired ctx lease with | some p => t.updLease ctx p put | none => t)

/-! ### Triggers (R371-R373) -/

/-- The checks of R372 and the start of the hold: the state, or the failing status. -/
def State.ckptStart (s : State) (ctx trig : Nat) : Except Nat State :=
  let k := s.ckpt ctx
  if k.state ≠ 0 then .error stCkptBusy
  else match s.manifestOf ctx with
    | none => .error stCkptManifest
    | some m =>
      let sh := m.shards
      match s.takeSlots ctx m.lease k with
      | none => .error stCkptSpace
      | some t =>
        let cov := coverOf ctx sh
        let fits := (List.range 4).all fun d =>
          decide ((cov.filter fun f => frameDie f == d).length + s.shadowUsed d ≤ 512 * s.obj 0x8000 1 d)
        if (t.shardRuns ctx m.lease sh).isNone || !fits then .error stCkptSpace
        else .ok (t.setCkpt ctx { k with
          state := 1, trigger := trig, since := s.tick, man := some m, shards := sh, leases := if decide (m.lease ∈ k.leases) then k.leases else m.lease :: k.leases
          part := 0, placed := 0, bad := [] })

/-- Status of the last checkpoint or restore (object 0x8003). -/
def State.ckptResult (s : State) (ctx st : Nat) : State := s.setObj 0x8003 2 ctx 0 st

/-- A warning trigger for every context with CKPT_AUTO set (R371). -/
def State.ckptWarn (s : State) (trig : Nat) : State :=
  s.each (s.ctxs.filter fun c => s.obj 0x8001 2 c == 1 && s.obj 0x8001 1 c != 0) fun t c =>
    if (t.ckpt c).state ≠ 0 then t.count 0x8005 5
    else match t.ckptStart c trig with
      | .ok u => u.count 0x8005 4
      | .error st => t.ckptResult c st

/-- A step of the context is running. -/
def State.ctxRuns (s : State) (ctx : Nat) : Bool := s.run.steps.any fun e => e.2.ctx == ctx && !e.2.waits

/-! ### The cut (R374-R376) -/

/-- One frame is copied into the shadow; a line that fails, or is poisoned, makes its shadow frame poisoned (16 R444, R475). -/
def State.copyFrame (s : State) (ctx f : Nat) : State :=
  let k := s.ckpt ctx
  let a := f * 4096
  let bad := s.badLine ctxLine a 4096
  let t := match bad with | some l => (s.hbmUe l 2 0 ctx none).count 0x9005 1 | none => s
  ((t.cleanLines t.shadowLine a 4096).setCkpt ctx { k with
    uncopied := k.uncopied.filter (· != f), shadow := memWrite k.shadow a (memRead s.ses.cmem a 4096)
    bad := if bad.isSome then f :: k.bad else k.bad }).modCks fun g => { g with held := tblDel g.held f }

/-- The context returns to IDLE: shadow frames are released, and no message or mover works for it. -/
def State.ckptIdle (s : State) (ctx : Nat) : State :=
  let k := s.ckpt ctx
  let t := s.orphan fun u => match u with | .drain c _ | .restore c _ => c == ctx | _ => false
  (t.modSes fun g => { g with movers := tblKeep g.movers fun _ j => j.handle != 2 ^ 24 + ctx }).modCks fun g => { g with
    held := tblKeep g.held fun f _ => f / 2 ^ 36 != ctx
    tbl := tblPut ckptNone g.tbl ctx { k with state := 0, man := none, uncopied := [], shadow := [], shards := [], part := 0, placed := 0,
                                              bad := [], rest := none } }

/-! ### The drain (R378, R379) -/

/-- Context identity of a context: ORIGIN_ID, ORIGIN_CTX, KEY_EPOCH (12 R340). -/
def State.identity (s : State) (ctx : Nat) : Nat × Nat × Nat :=
  match tblFind s.sec.ctx ctx with
  | some c => (c.originId, c.originCtx, c.keyEpoch)
  | none => (0, 0, 0)

/-- Catalog header (R379). -/
def State.catHeader (s : State) (ctx : Nat) (k : Ckpt) (n : Nat) (void : Bool) : List Byte :=
  let i := s.identity ctx
  leBytes 64 (1 + b2n void * 2 ^ 312 + k.trigger * 2 ^ 320 + n * 2 ^ 324 + ctx * 2 ^ 336 + i.2.1 * 2 ^ 344 + i.2.2 * 2 ^ 352
    + i.1 * 2 ^ 384 + s.fab.ownId * 2 ^ 400 + k.seq % 2 ^ 32 * 2 ^ 416 + k.step * 2 ^ 448)

/-- Bytes of a shard in the shadow. -/
def Ckpt.bytes (k : Ckpt) (ctx : Nat) (x : Shard) : List Byte := memRead k.shadow (ckey ctx x.addr) x.len

/-- Four fields of 32 bits. -/
def catQuads (l : List Nat) : Nat := catNums 32 ((List.range 4).map fun a => l.getD a 0)
def packOrder (l : List Nat) : Nat := catNums 2 ((List.range 4).map fun a => l.getD a 0)

/-- Header of shard number `j` (R379). -/
def State.shardHeader (s : State) (ctx : Nat) (k : Ckpt) (t : Tensor) (x : Shard) (j : Nat) (pay : List Byte) : List Byte :=
  let i := s.identity ctx
  leBytes 256 (t.rank - 1 + t.elem * 2 ^ 2 + packOrder t.order * 2 ^ 8 + t.dtype * 2 ^ 16 + 2 ^ 24 + j * 2 ^ 1120 + ctx * 2 ^ 1136
    + i.2.1 * 2 ^ 1144 + i.2.2 * 2 ^ 1152 + i.1 * 2 ^ 1184 + s.fab.ownId * 2 ^ 1200 + x.frame * 2 ^ 1220 + x.len * 2 ^ 1248
    + (crc32c pay).toNat * 2 ^ 1280 + k.seq % 2 ^ 32 * 2 ^ 1312 + k.step * 2 ^ 1344 + catQuads (t.hi.set t.major x.hi) * 2 ^ 1408
    + catQuads (t.lo.set t.major x.lo) * 2 ^ 1536 + catQuads t.shape * 2 ^ 1664 + t.tid.toNat * 2 ^ 1792)

/-- A tensor that no manifest names. -/
def tensorNone : Tensor := ⟨0, [], [], [], 0, 0, [], 0, 1⟩

/-- Header of shard number `j` of a checkpoint. -/
def State.hdrOf (s : State) (ctx : Nat) (k : Ckpt) (j : Nat) (x : Shard) : List Byte :=
  let t := ((k.man.map (·.tensors)).getD []).getD x.tensor tensorNone
  s.shardHeader ctx k t x j (k.bytes ctx x)

/-- The part a mover may take next, if its turn has come (R378). -/
def Ckpt.nextPart (k : Ckpt) : Option Nat :=
  let n := k.shards.length
  if k.state ≠ 3 then none
  else if k.part = 0 ∨ (k.part ≤ n ∧ 1 ≤ k.placed) ∨ (k.part = n + 1 ∧ k.placed = n + 1) then some k.part
  else none

/-- Bytes of part `p` as they lie in the lease. -/
def State.partImage (s : State) (ctx : Nat) (k : Ckpt) (p nonce : Nat) : List Byte :=
  let key := s.parkKey ctx
  if p = 0 then
    let h := s.catHeader ctx k 0 true
    h ++ sealCopy key nonce h []
  else match k.shards[p - 1]? with
    | some x => sealCopy key nonce (s.hdrOf ctx k (p - 1) x) (k.bytes ctx x)
    | none =>
      let h := s.catHeader ctx k k.shards.length false
      h ++ sealCopy key nonce h (k.shards.zipIdx.flatMap fun e => s.hdrOf ctx k e.2 e.1)

/-- Frame of part `p` in the lease. -/
def Ckpt.partFrame (k : Ckpt) (p : Nat) : Nat :=
  match (if p = 0 then none else k.shards[p - 1]?) with
  | some x => x.frame
  | none => 128 * (k.seq % 2)

/-- A cut or drain fails (R380): the runs of its shards are freed, and a catalog that was sent gives way to a void one; `tell`:
CKPT_DRAINED is posted. -/
def State.ckptFail (s : State) (ctx st : Nat) (tell : Bool) : State :=
  let k := s.ckpt ctx
  let lease := (k.man.map (·.lease)).getD 0
  let t0 := if k.placed = 0 then s else s.each k.shards fun t x => t.runFree ctx lease x.frame
  let t1 :=
    if k.state = 3 ∧ k.shards.length + 1 < k.part then
      let r := t0.sealNonce
      match r.2.putCopy ctx lease (128 * (k.seq % 2)) (r.2.partImage ctx k 0 r.1) .nothing with
      | .ok u => u
      | .error _ => t0
    else t0
  let t := (t1.ckptIdle ctx).ckptResult ctx st
  if tell then t.ckptEvent ctx 0x0031 st k.seq 0 else t

/-- What a mover finds as it reads part `p` from the shadow: that it is poisoned, with what a line that fails leaves (16 R444, R475). -/
def State.partUe (s : State) (ctx p : Nat) : Option State :=
  let k := s.ckpt ctx
  match (if p = 0 then none else k.shards[p - 1]?) with
  | none => none
  | some x =>
    match s.badLine s.shadowLine (ckey ctx x.addr) x.len with
    | some l => some (s.ueRead l ctx none)
    | none => if (cframes ctx x.addr x.len).any fun f => decide (f ∈ k.bad) then some (s.count 0x9005 1) else none

/-- A mover sends part `p`. -/
def State.sendPart (s : State) (ctx p : Nat) : State :=
  let k := s.ckpt ctx
  let lease := (k.man.map (·.lease)).getD 0
  match s.partUe ctx p with
  | some t => t.ckptFail ctx stHbmUe true
  | none =>
    let r := s.sealNonce
    match (r.2.setCkpt ctx { k with part := p + 1 }).putCopy ctx lease (k.partFrame p) (s.partImage ctx k p r.1) (.drain ctx p) with
    | .ok t => t
    | .error st => s.ckptFail ctx st true

/-- The void catalog is placed: checkpoint n − 2 loses its runs, and every shard takes one. -/
def State.drainVoid (s : State) (ctx : Nat) (k : Ckpt) : State :=
  let lease := (k.man.map (·.lease)).getD 0
  let gone := k.old.filter fun o => o.1 % 2 == k.seq % 2 && o.2.1 == lease
  let s1 := s.each gone fun t o => t.each o.2.2 fun u f => u.runFree ctx lease f
  let k1 := { k with old := k.old.filter fun o => !(o.1 % 2 == k.seq % 2 && o.2.1 == lease) }
  match s1.shardRuns ctx lease k.shards with
  | none => (s1.setCkpt ctx { k1 with placed := 0 }).ckptFail ctx stCkptSpace true
  | some (fs, t) => t.setCkpt ctx { k1 with shards := k.shards.zipIdx.map fun e => { e.1 with frame := fs.getD e.2 0 } }

/-- A part of the drain is placed. -/
def State.drainPlaced (s : State) (ctx : Nat) : State :=
  let k0 := s.ckpt ctx
  if k0.state ≠ 3 then s
  else
    let k := { k0 with placed := k0.placed + 1 }
    let t := s.setCkpt ctx k
    if k.placed = 1 then t.drainVoid ctx k
    else if k.placed = k.shards.length + 2 then
      let lease := (k.man.map (·.lease)).getD 0
      let t1 := (t.setCkpt ctx { k with old := (k.seq, lease, k.shards.map (·.frame)) :: k.old }).ckptIdle ctx
      (((t1.ckptResult ctx stOk).setObj 0x8003 3 ctx 0 k.step).count 0x8005 1).ckptEvent ctx 0x0031 stOk k.seq 0
    else t

/-! ### The restore (R381-R384) -/

/-- A shard header as read. -/
def decHdr (raw : List Byte) : ShardHdr :=
  let v := leNat raw
  { tid := fld 256 v 1792, shape := quads v 1664, lo := quads v 1536, hi := quads v 1408, step := bits v 1407 1344,
    crc := fld 32 v 1280, len := bits v 1279 1248, frame := bits v 1247 1220, shard := bits v 1135 1120, dtype := bits v 19 16,
    order := orderOf (bits v 15 8), elem := bits v 4 2, rank := bits v 1 0 + 1, raw := raw }

/-- Bytes of a catalog of `n` shards. -/
def catBytes (n : Nat) : Nat := 64 + 256 * n + 32
/-- SHARDS of a catalog header. -/
def catShards (bs : List Byte) : Nat := bits (leNat (bs.take 64)) 335 324

/-- Candidates and unusable lines of one catalog (list index `li`, slot `sl`). -/
def State.readCat (s : State) (ctx li sl : Nat) (bs : List Byte) : List Cand × List RepLine :=
  let v := leNat (bs.take 64)
  let i := s.identity ctx
  let n := if bit v 312 then 0 else catShards bs
  let whole := bs.take (catBytes n)
  let bad := fun r => ([], [⟨bits v 511 448, li, 0xFFFF, sl, r⟩])
  if (bits v 399 384, bits v 351 344, bits v 383 352) ≠ i ∧ bits v 7 0 = 1 then bad 3
  else match openCopy (s.parkKey ctx) (bs.take 64) (whole.drop 64) with
    | none => bad 2
    | some pay =>
      if bits v 7 0 ≠ 1 then bad 2
      else if bit v 312 then bad 4
      else ((List.range n).map fun j => ⟨li, sl, decHdr ((pay.drop (256 * j)).take 256)⟩, [])

/-- A shard agrees with a tensor entry. -/
def agrees (e : Tensor) (x : ShardHdr) : Bool := x.shape == e.shape && x.dtype == e.dtype && x.elem == e.elem && x.rank == e.rank

/-- Boxes cover [lo, hi) on the axes listed. -/
def covers (axes : List Nat) (lo hi : List Nat) (boxes : List (List Nat × List Nat)) : Bool :=
  match axes with
  | [] => !boxes.isEmpty
  | a :: rest =>
    let l := lo.getD a 0
    let h := hi.getD a 1
    let cuts := (l :: boxes.flatMap fun b => [b.1.getD a 0, b.2.getD a 1]).filter fun c => decide (l ≤ c) && decide (c < h)
    cuts.all fun c => covers rest lo hi (boxes.filter fun b => decide (b.1.getD a 0 ≤ c) && decide (c < b.2.getD a 1))

/-- Step `st` is complete (R382). -/
def stepComplete (man : Manifest) (cands : List Cand) (st : Nat) : Bool :=
  man.tensors.all fun e =>
    let xs := cands.filter fun c => c.hdr.step == st && c.hdr.tid == e.tid
    xs.all (fun c => agrees e c.hdr) && covers (List.range e.rank) (List.replicate 4 0) e.shape (xs.map fun c => (c.hdr.lo, c.hdr.hi))

/-- Two boxes meet over the first `r` axes. -/
def boxesMeet (r : Nat) (l1 h1 l2 h2 : List Nat) : Bool :=
  (List.range r).all fun a => decide (max (l1.getD a 0) (l2.getD a 0) < min (h1.getD a 1) (h2.getD a 1))

/-- The greatest complete step. -/
def chooseStep (man : Manifest) (cands : List Cand) : Option Nat :=
  (cands.map (·.hdr.step)).foldl (fun b st =>
    if stepComplete man cands st then some (max st (b.getD 0)) else b) none

/-- Shards to read for the chosen step, in order. -/
def planOf (man : Manifest) (cands : List Cand) (st : Nat) : List (Nat × Cand) :=
  man.tensors.zipIdx.flatMap fun e =>
    (cands.filter fun c => c.hdr.step == st && c.hdr.tid == e.1.tid && boxesMeet e.1.rank e.1.lo e.1.hi c.hdr.lo c.hdr.hi).map fun c => (e.2, c)

/-- Index vectors of a box, the axes of `order` from the major-most down, over positions 1 and up: one per row along the
minor-most axis. -/
def rowsOf (lo hi : List Nat) (axes : List Nat) : List (List Nat) :=
  axes.foldl (fun acc a => acc.flatMap fun ix => (span (lo.getD a 0) (axisLen lo hi a)).map fun i => ix.set a i) [lo]

/-- Linear position of an index vector in a box stored under `order`. -/
def linear (lo hi order : List Nat) (r : Nat) (ix : List Nat) : Nat :=
  ((List.range r).foldr (fun p acc =>
    let a := axisAt order p
    acc * axisLen lo hi a + (ix.getD a 0 - lo.getD a 0)) 0)

/-- An index vector lies in a box. -/
def inBox (r : Nat) (lo hi ix : List Nat) : Bool :=
  (List.range r).all fun a => decide (lo.getD a 0 ≤ ix.getD a 0) && decide (ix.getD a 0 < hi.getD a 1)

/-- The intersection of a shard's box and an entry's is copied; elements of boxes in `old` keep what they hold (R382). -/
def State.copyBox (s : State) (ctx : Nat) (e : Tensor) (x : ShardHdr) (old : List Cand) (pay : List Byte) : State :=
  let w := ckptBits e.elem
  let lo := (List.range 4).map fun a => max (e.lo.getD a 0) (x.lo.getD a 0)
  let hi := (List.range 4).map fun a => min (e.hi.getD a 1) (x.hi.getD a 1)
  let m := e.minor
  let axes := ((List.range e.rank).map (axisAt e.order)).drop 1
  (rowsOf lo hi axes).foldl (fun t ix =>
    let p0 := linear e.lo e.hi e.order e.rank ix * w
    let n := axisLen lo hi m
    let o := p0 % 8
    let len := ceilDiv (o + n * w) 8
    let now := t.cnum ctx (e.addr + p0 / 8) len
    let vals := (List.range n).map fun i =>
      let jx := ix.set m (lo.getD m 0 + i)
      if old.any fun c => inBox e.rank c.hdr.lo c.hdr.hi jx then now / 2 ^ (o + i * w)
      else unpackAt (fun j => pay.getD j 0) w (linear x.lo x.hi x.order x.rank jx)
    t.cwrite ctx (e.addr + p0 / 8) (leBytes len (now % 2 ^ o + catNums w vals * 2 ^ o + now / 2 ^ (o + n * w) * 2 ^ (o + n * w)))) s

/-- Lines of the report, in ascending list index, slot and shard (R384). -/
def reportLines (r : Restore) (st : Option Nat) : List RepLine :=
  let others := r.cands.filterMap fun c =>
    if some c.hdr.step = st then none
    else some ⟨c.hdr.step, c.li, c.hdr.shard, c.slot,
      if r.man.tensors.any fun e => e.tid == c.hdr.tid && !agrees e c.hdr then 3 else 1⟩
  let key := fun (l : RepLine) => (l.li * 2 + l.slot) * 65536 + l.shard
  (others ++ r.bad).foldl (fun acc l => (acc.takeWhile fun a => decide (key a ≤ key l)) ++ [l] ++ acc.dropWhile fun a => decide (key a ≤ key l)) []

/-- The report is written (R384). -/
def State.report (s : State) (ctx : Nat) (r : Restore) (st : Option Nat) (status : Nat) : State :=
  let ls := reportLines r st
  let hdr := leBytes 64 (1 + b2n (decide (r.man.reportMax < ls.length)) * 2 ^ 8 + ls.length * 2 ^ 16 + status * 2 ^ 48
    + (st.getD (2 ^ 64 - 1)) * 2 ^ 64)
  let body := (ls.take r.man.reportMax).flatMap fun l => leBytes 16 (l.reason + l.slot * 2 ^ 24 + l.shard * 2 ^ 32 + l.li * 2 ^ 48 + l.step * 2 ^ 64)
  s.cwrite ctx r.man.report (hdr ++ body)

/-- The boxes of a manifest hold undefined bytes (R383): free values. -/
def State.freeBoxes (s : State) (ctx : Nat) (m : Manifest) : State :=
  s.each m.tensors fun t e =>
    let a := t.take1
    a.2.cwrite ctx e.addr ((List.range e.bytes).map (Config.freeByte a.1))

/-- The restore ends: `st` the step restored; `lines`: the report is written. One that ends while the shards it chose are read leaves
its boxes undefined. -/
def State.restoreEnd (s : State) (ctx status : Nat) (st : Option Nat) (lines : Bool) : State :=
  let k := s.ckpt ctx
  let t := match k.rest with
    | some r => if lines then s.report ctx r st status else if r.chosen.isSome then s.freeBoxes ctx r.man else s
    | none => s
  let t1 := (t.ckptIdle ctx).ckptResult ctx status
  let t2 := if st.isSome then t1.count 0x8005 2 else t1
  t2.ckptEvent ctx 0x0032 status k.seq (b2n st.isSome)

/-- A list of a restore's steps has more than one. -/
def manySteps (cands : List Cand) : Bool :=
  match cands with
  | [] => false
  | c :: l => l.any fun d => d.hdr.step != c.hdr.step

/-- A GET of a restore, or its end. -/
def State.restoreGet (s : State) (ctx lease off n part : Nat) : State :=
  match s.getCopy ctx lease off n (.restore ctx part) with
  | .ok t => t
  | .error st => s.restoreEnd ctx st none false

/-- The next shard of the plan is read, or the restore ends with its step restored. -/
def State.restoreNext (s : State) (ctx : Nat) : State :=
  match (s.ckpt ctx).rest with
  | none => s
  | some r => match r.plan with
    | [] => s.restoreEnd ctx (if manySteps r.cands then stStaleStep else stOk) r.chosen true
    | (_, c) :: _ => s.restoreGet ctx (r.leases.getD c.li 0) c.hdr.frame (c.hdr.len + 32) (2 ^ 20)

/-- A step is chosen (R382), or the restore ends with nothing restored (R383). -/
def State.restoreChoose (s : State) (ctx : Nat) : State :=
  let k := s.ckpt ctx
  match k.rest with
  | none => s
  | some r => match chooseStep r.man r.cands with
    | none => s.restoreEnd ctx (if manySteps r.cands then stStaleStep else stCkptIncomplete) none true
    | some st =>
      (s.setCkpt ctx { k with rest := some { r with chosen := some st, plan := planOf r.man r.cands st, done := [] } }).restoreNext ctx

/-- The catalogs have come: candidates are listed in ascending list index, slot and shard. -/
def State.restoreCats (s : State) (ctx : Nat) : State :=
  let k := s.ckpt ctx
  match k.rest with
  | none => s
  | some r =>
    let all := (span 0 (2 * r.leases.length)).map fun j =>
      s.readCat ctx (j / 2) (j % 2) (tblGet [] r.cats (2 * j) ++ tblGet [] r.cats (2 * j + 1))
    (s.setCkpt ctx { k with rest := some { r with cands := all.flatMap (·.1), bad := all.flatMap (·.2) } }).restoreChoose ctx

/-- Bytes of a restore's GET have come: `part` is 2 × (list index × 2 + slot), and 1 more for a catalog's second part; or
2^20 for the shard at the head of the plan. -/
def State.restoreData (s : State) (ctx part : Nat) (bs : List Byte) : State :=
  let k := s.ckpt ctx
  match k.rest with
  | none => s
  | some r =>
    if part < 2 ^ 20 then
      let j := part / 2
      let n := catBytes (catShards bs)
      let more := part % 2 == 0 && !bit (leNat (bs.take 64)) 312 && bits (leNat (bs.take 64)) 7 0 == 1 && decide (4096 < n)
      let want := (r.want.filter fun w => w != (j, part % 2)) ++ (if more then [(j, 1)] else [])
      let t := s.setCkpt ctx { k with rest := some { r with want := want, cats := tblIns r.cats part bs } }
      if more then t.restoreGet ctx (r.leases.getD (j / 2) 0) (128 * (j % 2) + 1) (n - 4096) (part + 1)
      else if want.isEmpty then t.restoreCats ctx
      else t
    else match r.plan with
      | [] => s
      | (i, c) :: rest =>
        match (openCopy (s.parkKey ctx) c.hdr.raw bs).filter fun b => crc32c b == c.hdr.crc with
        | none =>
          let r1 := { r with cands := r.cands.filter (· != c), bad := r.bad ++ [⟨c.hdr.step, c.li, c.hdr.shard, c.slot, 2⟩] }
          (s.setCkpt ctx { k with rest := some r1 }).restoreChoose ctx
        | some pay =>
          let e := r.man.tensors.getD i tensorNone
          let old := (r.done.filter fun d => d.1 == i).map (·.2)
          let t := s.copyBox ctx e c.hdr old pay
          (t.setCkpt ctx { k with rest := some { r with plan := rest, done := r.done ++ [(i, c)] } }).restoreNext ctx

/-- The restore list at RLIST_ADDR (R381). -/
def State.restoreList (s : State) (ctx : Nat) (m : Manifest) : Option (List Nat) :=
  let v := s.cnum ctx m.rlist 64
  let n := bits v 10 0
  let ls := (List.range n).map fun i => s.cnum ctx (m.rlist + 64 + 2 * i) 2
  if 1 ≤ n ∧ n ≤ 1024 ∧ bits v 23 16 = 1 ∧ bits v 15 11 = 0 ∧ bits v 511 24 = 0 ∧ ls.all fun l => decide (l < 4096) && s.leaseOk ctx l then some ls
  else none

/-- The checks of R381 and the start of a restore. -/
def State.restoreStart (s : State) (ctx : Nat) : Except Nat State :=
  let k := s.ckpt ctx
  if k.state ≠ 0 || s.run.steps.any (fun e => e.2.ctx == ctx) then .error stCkptBusy
  else match s.manifestOf ctx with
    | none => .error stCkptManifest
    | some m => match s.restoreList ctx m with
      | none => .error stCkptManifest
      | some ls =>
        let js := span 0 (2 * ls.length)
        let r : Restore := { man := m, leases := ls, want := js.map fun j => (j, 0), cats := [], cands := [], bad := [], chosen := none,
                             plan := [], done := [] }
        let t := s.setCkpt ctx { k with state := 4, since := s.tick, rest := some r }
        .ok (js.foldl (fun u j => if (u.ckpt ctx).state = 4 then
          u.restoreGet ctx (ls.getD (j / 2) 0) (128 * (j % 2)) 4096 (2 * j) else u) t)

/-- A checkpoint or restore in progress ends by ABORT, or because its context is disabled (R380, R383). -/
def State.ckptAbort (s : State) (ctx : Nat) (tell : Bool) : State :=
  let k := s.ckpt ctx
  if k.state = 0 then s
  else if k.state = 4 then (if tell then s.restoreEnd ctx stCkptAborted none false else (s.ckptIdle ctx).ckptResult ctx stCkptAborted)
  else s.ckptFail ctx stCkptAborted tell

end Sys2Proof.Machine
end

