-- ==== Sys2Proof/Machine/Cores.lean ====
section
/-! DEFINITION. Cores: their stores and operand addresses, when an instruction executes, the order in which a course
reaches its common points, and the sequencer's own instructions (03 R65-R76). -/

namespace Sys2Proof.Machine

/-! ### Operands (R76) -/

/-- The FP32 word at `a`. -/
def Store.f32 (m : Store) (a : Nat) : Num := of32 (leNat (m.read a 4))
/-- FP32 results as bytes. -/
def f32Bytes (vs : List Num) : List Byte := vs.flatMap fun v => leBytes 4 (f32 v)

/-- End of local store. -/
def lsEnd : Nat := 0x180000
/-- P[r] plus an offset, modulo 2^64. -/
def Core.addr (c : Core) (r : BitVec 4) (off : Int) : Nat := wrap 64 (((c.p.getD r.toNat 0).toNat : Int) + off)
/-- An operand of `n` bytes of local store. -/
def lsOk (a n : Nat) : Bool := a % 64 == 0 && decide (a + n ≤ lsEnd)
/-- An operand of `n` bytes of the own cluster-store slice; a KEYSTONE step stays below the save area (10 R300). -/
def csOk (core : Nat) (ks : Bool) (a n : Nat) : Bool :=
  within a n (0x40000 * (core % 16)) (if ks then 0x28000 else 0x40000)
/-- A context address range. -/
def cxOk (a n : Nat) : Bool := decide (a + n ≤ 2 ^ 48)
/-- A 32-bit signed offset. -/
def off32 (v : W32) : Int := v.toInt
/-- An unsigned offset. -/
def offU {w : Nat} (v : BitVec w) : Int := (v.toNat : Int)

/-! ### When an instruction executes (R74, R80) -/

def State.core (s : State) (k : Nat) : Option Core := tblFind s.run.cores k
def State.setCore (s : State) (k : Nat) (c : Core) : State := s.modRun fun g => { g with cores := tblIns g.cores k c }
/-- The instruction at the core's index. -/
def Core.cur (c : Core) : Option Isn := (c.istore[c.ip]?).map decodeIsn
/-- The sequencer is at an instruction it may start, or held at an append (R146). -/
def Core.ready (c : Core) (t : Nat) : Bool := (c.ph == .run || c.ph == .apndHold) && decide (c.busyUntil ≤ t)
/-- Step `n` runs. -/
def State.running (s : State) (n : Nat) : Option Step :=
  match s.stp n with
  | some p => if s.live && p.ph == .running then some p else none
  | none => none

/-- Core `k` and its step, when the core executes `i` now: its sequencer stands at a word that spells `i` and the cost
of the instruction before has passed (R74). -/
def State.atIsn (s : State) (k : Nat) (i : Isn) : Option (Core × Step) :=
  match s.core k with
  | none => none
  | some c => match s.running c.step with
    | none => none
    | some p => if c.ready s.aclk && c.cur == some i then some (c, p) else none

/-- The core goes on at index `target`, which must lie in the program (R72); the instruction's effects are in `c`. -/
def State.goTo (s : State) (k : Nat) (c : Core) (cost target : Nat) : State :=
  if target < c.istore.length then s.setCore k { c with ip := target, busyUntil := s.aclk + cost, ph := .run }
  else s.coreFault c stInstr
/-- The core goes on at the next instruction. -/
def State.retireIsn (s : State) (k : Nat) (c : Core) (cost : Nat) : State := s.goTo k c cost (c.ip + 1)

/-- Outcome of an instruction: it retires with a cost, branches, or ends the step with a status. -/
inductive Did where
  | ok (c : Core) (cost : Nat)
  | goto (c : Core) (cost target : Nat)
  | stop (status : Nat)
  deriving DecidableEq, Repr

/-- What follows from an outcome; a failing instruction has no effect. -/
def State.did (s : State) (k : Nat) (c : Core) : Did → State
  | .ok c' cost => s.retireIsn k c' cost
  | .goto c' cost t => s.goTo k c' cost t
  | .stop st => s.coreFault c st

/-- Core `k` executes `i`: an instruction that acts on its own core alone. Nothing happens at a core that does not stand at
`i`. -/
def State.coreIsn (s : State) (k : Nat) (i : Isn) (f : Core → Step → Did) : Res :=
  match s.atIsn k i with
  | none => .next s
  | some (c, p) => .next (s.did k c (f c p))

/-- Core `k` executes `i`, with effects beyond the core. -/
def State.coreIsn' (s : State) (k : Nat) (i : Isn) (f : Core → Step → State) : Res :=
  match s.atIsn k i with
  | none => .next s
  | some (c, p) => .next (f c p)

/-! ### The order of common points (R67-R69) -/

/-- Issue signature of an engine instruction (R67). -/
def sigOf (f : FmtE) : EngSig := ⟨f.emask, f.fmtA, f.fmtW, f.fmtO, f.accin, f.sparse, f.append, f.kb⟩
/-- The signature with the reserved bit [107] of ENG.ATS and ENG.ATV left out: TAG is [106:104] (R75, 00 R11). -/
def tagged (g : EngSig) : EngSig := { g with fmtW := g.fmtW &&& 7 }
/-- Opcode and issue signature of an engine instruction. -/
def engSig : Isn → Option (Nat × EngSig)
  | .engMm f => some (0x10, sigOf f)
  | .engAts f => some (0x11, tagged (sigOf f))
  | .engAtv f => some (0x12, tagged (sigOf f))
  | _ => none

/-- The engine instruction the core has reached. -/
def Core.engAt (c : Core) (t : Nat) : Option SyncEv :=
  if c.ready t then match c.cur.bind engSig with
    | some (op, sig) => some (.eng op sig)
    | none => none
  else none

/-- Cores of a step, in order of position. -/
def State.cores (s : State) (p : Step) : List (Nat × Core) := p.cores.filterMap fun k => (s.core k).map fun c => (k, c)

/-- What the course has shown as its `i`-th common point: logged, or reached by some core. -/
def State.evAt (s : State) (p : Step) (i : Nat) : Option SyncEv :=
  (p.sync[i]?).orElse fun _ => (s.cores p).findSome? fun e => if e.2.nsync = i then e.2.engAt s.aclk else none

/-- The core of lowest position whose engine instruction differs from what the course has shown. -/
def State.engSkew (s : State) (p : Step) : Option Core :=
  (s.cores p).findSome? fun e => match e.2.engAt s.aclk with
    | some ev => if s.evAt p e.2.nsync = some ev then none else some e.2
    | none => none

/-- Core `c` reaches a BARRIER, PPOINT or END: the log, or none when it differs (R69). -/
def State.reach (s : State) (p : Step) (c : Core) (ev : SyncEv) : Option (List SyncEv) :=
  match s.evAt p c.nsync with
  | some e => if e = ev then some (if c.nsync < p.sync.length then p.sync else p.sync ++ [ev]) else none
  | none => some (p.sync ++ [ev])

/-- Every core has passed the same points: the log starts anew. -/
def State.syncClear (s : State) (n : Nat) : State :=
  (s.updStp n fun p => { p with sync := [] }).modRun fun g => { g with
    cores := tblMap g.cores fun _ c => if c.step = n then { c with nsync := 0 } else c }

/-- The course lies on more than one compute die. -/
def Step.spansDies (p : Step) : Bool := p.quads.any fun q => q / 64 != (p.quads.headD 0) / 64

/-! ### The end of a program (R74) -/

/-- The writes among a core's outstanding stream requests perform in issue order (R81); its reads have nobody to read for. -/
def State.performWrites (s : State) (ctx : Nat) (c : Core) : State :=
  s.each (c.queue.filter fun r => r.kind == .wr) fun t r => t.cwrite ctx r.caddr (c.ls.read r.laddr r.len)

/-- The course has reached END on every core: a ring member has sent on its pages, and no outstanding write is held by a
checkpoint's cut (13 R376). -/
def State.allEnded (s : State) (p : Step) : Bool :=
  p.ph == .running && !p.cores.isEmpty && p.ringDone && p.fail.isNone && (s.cores p).all fun e =>
    e.2.ph == .ended && e.2.queue.all fun r => r.kind != .wr || (s.uncopied p.ctx r.caddr r.len).isEmpty

/-- The step ends once every core has finished (R74). Its outstanding writes perform then (DEDUCED, log entry 41), and the
cycle of the last END counts as executed. -/
def State.finish (s : State) (n : Nat) : State :=
  match s.stp n with
  | none => s
  | some p =>
    if s.allEnded p then
      ((s.each (s.cores p) fun t e => t.performWrites p.ctx e.2).setStp n { p with executed := p.executed + 1 }).endStep n
        (if p.sparseBad then stSparseMeta else stOk) none
    else s

/-- END (R69, R74, R98). -/
def execEndProg (core : Nat) (s : State) : Res :=
  s.coreIsn' core .endProg fun c p =>
    match s.reach p c .fin with
    | none => s.coreFault c stCourseSkew
    | some l =>
      ((s.setCore core { c with ph := .ended, nsync := c.nsync + 1, busyUntil := s.aclk + 1 }).updStp c.step
        fun q => { q with sync := l }).finish c.step

/-! ### Pointers, counters and branches (R74) -/

/-- NOP. -/
def execNop (core : Nat) (s : State) : Res := s.coreIsn core .nop fun c _ => .ok c 1

/-- P[DST] = v. -/
def Core.setP (c : Core) (r : BitVec 4) (v : W64) : Core := { c with p := c.p.set r.toNat v }
/-- C[r] = v, for a counter that exists. -/
def Core.setC (c : Core) (r : Nat) (v : W32) : Core := { c with c := c.c.set r v }

/-- SETP. -/
def execSetp (core : Nat) (f : FmtC) (s : State) : Res := s.coreIsn core (.setp f) fun c _ => .ok (c.setP f.dst f.imm64) 1

/-- ADDP. -/
def execAddp (core : Nat) (f : FmtC) (s : State) : Res :=
  s.coreIsn core (.addp f) fun c _ => .ok (c.setP f.dst (BitVec.ofNat 64 (c.addr f.src (off32 f.imm32)))) 1

/-- A counter register number above C7 is a reserved field value. -/
def cReg (f : FmtC) (k : Did) : Did := if 8 ≤ f.dst.toNat then .stop stInstr else k
/-- C[DST]. -/
def Core.cAt (c : Core) (f : FmtC) : W32 := c.c.getD f.dst.toNat 0
/-- Branch target. -/
def branchTarget (f : FmtC) : Nat := f.imm64.toNat % 2048

/-- SETC. -/
def execSetc (core : Nat) (f : FmtC) (s : State) : Res :=
  s.coreIsn core (.setc f) fun c _ => cReg f (.ok (c.setC f.dst.toNat f.imm32) 1)

/-- LDC. -/
def execLdc (core : Nat) (f : FmtC) (s : State) : Res :=
  s.coreIsn core (.ldc f) fun c _ => cReg f <|
    let a := c.addr f.src (f.imm64.toNat % 2 ^ 21 : Nat)
    if !lsOk a 4 then .stop stAddrFault
    else
      let v := leNat (c.ls.read a 4)
      if f.imm32.toNat < v then .stop stCounterBound else .ok (c.setC f.dst.toNat (BitVec.ofNat 32 v)) 4

/-- SETK. -/
def execSetk (core : Nat) (f : FmtC) (s : State) : Res :=
  s.coreIsn core (.setk f) fun c _ =>
    if 4 ≤ f.dst.toNat then .stop stInstr else .ok { c with k := c.k.set f.dst.toNat f.imm32 } 1

/-- LOOP. -/
def execLoop (core : Nat) (f : FmtC) (s : State) : Res :=
  s.coreIsn core (.loop f) fun c _ => cReg f <|
    let v := c.cAt f - 1
    let c' := c.setC f.dst.toNat v
    if v = 0 then .ok c' 2 else .goto c' 2 (branchTarget f)

/-- The comparison CMP selects; none where it is reserved. -/
def cmpOf (m : BitVec 3) (a b : W32) : Option Bool :=
  match m.toNat with
  | 0 => some (a == b) | 1 => some (a != b) | 2 => some (decide (a.toNat < b.toNat)) | 3 => some (decide (b.toNat ≤ a.toNat))
  | _ => none

/-- BRC. -/
def execBrc (core : Nat) (f : FmtC) (s : State) : Res :=
  s.coreIsn core (.brc f) fun c _ => cReg f <|
    match cmpOf f.cmp (c.cAt f) f.imm32 with
    | none => .stop stInstr
    | some true => .goto c 2 (branchTarget f)
    | some false => .ok c 2

/-- JMP. -/
def execJmp (core : Nat) (f : FmtC) (s : State) : Res := s.coreIsn core (.jmp f) fun c _ => .goto c 2 (branchTarget f)

/-- An opcode that is not listed (R74). -/
def execUnlistedOpcode (core : Nat) (op : BitVec 8) (s : State) : Res :=
  s.coreIsn core (.unlisted op) fun _ _ => .stop stInstr

/-! ### Copies between stores (R74, R70) -/

/-- LEN of a format T instruction is a multiple of 64, from 64 to 1,572,864 (R75). R101 names the status of reserved and zero
field values only; every other value that R75 excludes is ST_INSTR too (DEDUCED, log entry 31). -/
def lenOk (f : FmtT) : Bool := f.len.toNat % 64 == 0 && decide (64 ≤ f.len.toNat) && decide (f.len.toNat ≤ 1572864)

/-- DMA.LS: the source is read whole before the destination is written. -/
def execDmaLs (core : Nat) (f : FmtT) (s : State) : Res :=
  s.coreIsn core (.dmaLs f) fun c _ =>
    let n := f.len.toNat
    let a := c.addr f.ps (off32 f.soff)
    let b := c.addr f.pd (off32 f.doff)
    if !lenOk f then .stop stInstr
    else if !lsOk a n || !lsOk b n then .stop stAddrFault
    else .ok { c with ls := c.ls.write b (c.ls.read a n) } (8 + ceilDiv n 64)

/-- DMA.CS. -/
def execDmaCs (core : Nat) (f : FmtT) (s : State) : Res :=
  s.coreIsn core (.dmaCs f) fun c p =>
    let n := f.len.toNat
    let a := c.addr f.ps (off32 f.soff)
    let b := c.addr f.pd (off32 f.doff)
    let sl := 0x40000 * (core % 16)
    if !p.d.wholeCl || !lenOk f then .stop stInstr
    else if f.dir then
      if !csOk core p.ks a n || !lsOk b n then .stop stAddrFault
      else .ok { c with ls := c.ls.write b (c.cs.read (a - sl) n) } (8 + ceilDiv n 64)
    else if !lsOk a n || !csOk core p.ks b n then .stop stAddrFault
    else .ok { c with cs := c.cs.write (b - sl) (c.ls.read a n) } (8 + ceilDiv n 64)

end Sys2Proof.Machine
end

