-- ==== Sys2Proof/Machine/Certs.lean ====
section
/-! DEFINITION. Keys that identify the device, its certificates and its quotes (12 R338, R344-R348). -/

namespace Sys2Proof.Machine

/-! ### Measurements (12 R345; 14 R402) -/

/-- Measurement of a running image. -/
def State.measure (s : State) (kind : Nat) : BitVec 512 := imgMeasure (s.mg.running.getD kind [])
/-- The set digest: SHA-512 of the four measurements in KIND order (14 R402). -/
def State.setDigest (s : State) : BitVec 512 := Config.sha512 ((List.range 4).flatMap fun k => leBytes 64 (s.measure k).toNat)
/-- Behaviour level in force (object 0x1100). -/
def State.blevel (s : State) : Nat := s.obj 0x1100 1

/-! ### Keys and certificates (12 R338, R344) -/

/-- The device identity key, derived from the PUF response and a fused secret: the same at every power-on (R338). -/
def dik : Nat := Config.kdf [5] % 2 ^ 256
/-- Public keys of the device identity key, the attestation key and the manufacturing key, of which the model has one (PRESUMED, log
entry 25). -/
def dikPub : Nat := edPub dik
def State.akPub (s : State) : Nat := edPub s.sec.ak
def mfgPub : Nat := edPub (Config.kdf [7])
/-- Module serial (14 R413), 128 bits. -/
def serial : Nat := Config.identity 3 % 2 ^ 128

/-- A certificate of this module, signed by the holder of `issuer`. -/
def mkCert (kind issuer pub boot : Nat) : Cert :=
  let c : Cert := { sig := 0, serial := BitVec.ofNat 128 serial, bootEpoch := BitVec.ofNat 16 boot, kind := BitVec.ofNat 8 kind, cver := 1,
                    subject := BitVec.ofNat 256 pub }
  { c with sig := Config.signature issuer (certBody c) }
/-- The identity and attestation certificates. -/
def idCert : Cert := mkCert 1 mfgPub dikPub 0
def State.akCert (s : State) : Cert := mkCert 2 dikPub s.akPub s.dev.bootEpoch

/-- A verifier accepts a device's certificates (R344). -/
def certsOk (id ak : Cert) : Bool :=
  id.kind == 1 && ak.kind == 2 && id.cver == 1 && ak.cver == 1 && id.sig == Config.signature mfgPub (certBody id)
  && ak.sig == Config.signature id.subject.toNat (certBody ak) && id.serial == ak.serial

/-! ### Quotes (R345-R348) -/

/-- Kind whose image quotes name as being updated (R346): the one being activated, else the lowest staged. -/
def State.stagedKind (s : State) : Option Nat :=
  match s.mg.act with
  | some a => if a.kind < 4 then some a.kind else (List.range 4).find? fun k => (s.mg.stage.getD k ⟨0, [], 0⟩).state == 2
  | none => (List.range 4).find? fun k => (s.mg.stage.getD k ⟨0, [], 0⟩).state == 2

/-- A die is fenced: the profile in force is FENCED. -/
def State.quoteFlags (s : State) : Nat :=
  b2n s.stagedKind.isSome + 2 * b2n (!s.dev.resetOrder.isEmpty) + 4 * b2n s.mg.untested + 8 * b2n s.dev.fencedForce

/-- The quote over a nonce (R345). -/
def State.mkQuote (s : State) (nonce : BitVec 256) : Quote :=
  let k := s.stagedKind
  { stagedHash := match k with | some k => imgMeasure (s.mg.stage.getD k ⟨0, [], 0⟩).bytes | none => 0
    measFp := s.measure 3, measCr := s.measure 2, measSe := s.measure 1, measMc := s.measure 0, akPub := s.akPub, nonce := nonce
    counter := s.tick, bootEpoch := s.dev.bootEpoch, node := if s.fab.named then s.fab.node else 0xFFFF
    ownId := if s.fab.named then s.fab.ownId else 0xFFFF, stagedImg := k.getD 0xFF, resetDomain := s.dev.resetOrder.headD 0
    profile := s.profile, blevel := s.blevel, flags := s.quoteFlags }

/-- Bytes 0 to 447 of a quote. -/
def quoteBody (q : Quote) : List Byte :=
  leBytes 448 (1 + q.flags * 2 ^ 8 + q.blevel * 2 ^ 16 + q.profile * 2 ^ 24 + q.resetDomain * 2 ^ 32 + q.stagedImg * 2 ^ 40
    + q.ownId * 2 ^ 64 + q.node * 2 ^ 80 + q.bootEpoch * 2 ^ 96 + q.counter * 2 ^ 128 + q.nonce.toNat * 2 ^ 192 + q.akPub * 2 ^ 448
    + q.measMc.toNat * 2 ^ 704 + q.measSe.toNat * 2 ^ 1216 + q.measCr.toNat * 2 ^ 1728 + q.measFp.toNat * 2 ^ 2240
    + q.stagedHash.toNat * 2 ^ 2752)
/-- Its signature by the AK it names. -/
def quoteSig (q : Quote) : BitVec 512 := Config.signature q.akPub (quoteBody q)
/-- A quote as QUOTE holds it. -/
def quoteBytes (q : Quote) : List Byte := quoteBody q ++ leBytes 64 (quoteSig q).toNat
/-- SHA-512 of the four measurements of a quote (R350). -/
def setDigestOf (q : Quote) : BitVec 512 := Config.sha512 ([q.measMc, q.measSe, q.measCr, q.measFp].flatMap fun m => leBytes 64 m.toNat)

end Sys2Proof.Machine
end

