-- ==== Sys2Proof/Machine/Keyx.lean ====
section
/-! DEFINITION. Key agreement of flows and the join record, below their commands (12 R349-R353, R356). -/

namespace Sys2Proof.Machine

/-- The agreement's start: the next transmission when the flow has no key, else where the key in force has served its 2^31 values, so
that it serves them all while the agreement is open (DESIGN CHOICE, log entry 25). -/
def State.startXmit (s : State) (node : Nat) (f : Flow) : Nat :=
  match (s.fkeys node).tx with
  | none => (f.xmit + 1) % 2 ^ 32
  | some k => (k.start + 2 ^ 31) % 2 ^ 32

/-- Bytes 0 to 103 of a KEYX payload (R349). -/
def keyxHead (k : Keyx) : List Byte :=
  leBytes 104 (k.kver.toNat + k.role.toNat * 2 ^ 8 + k.startXmit.toNat * 2 ^ 32 + k.fresh.toNat * 2 ^ 64 + k.peerFresh.toNat * 2 ^ 320
    + k.ephPub.toNat * 2 ^ 576)
/-- The nonce of its quote: the first 32 bytes of their SHA-512. -/
def keyxNonce (k : Keyx) : BitVec 256 := (Config.sha512 (keyxHead k)).setWidth 256
/-- A KEYX payload. -/
def keyxBytes (k : Keyx) : List Byte :=
  keyxHead k ++ List.replicate 24 0 ++ quoteBody k.quote ++ leBytes 64 k.quoteSig.toNat ++ certBytes k.idCert ++ certBytes k.akCert

/-- A KEYX of this device: its quote over the nonce, and its certificates. -/
def State.keyxOf (s : State) (role start : Nat) (fresh peer : BitVec 256) (eph : Nat) : Keyx :=
  let q := fun (n : BitVec 256) => s.mkQuote n
  let k : Keyx := {
    srcNode := BitVec.ofNat 16 s.fab.node, role := BitVec.ofNat 8 role, kver := 1, startXmit := BitVec.ofNat 32 start, fresh := fresh,
    peerFresh := peer, ephPub := BitVec.ofNat 256 (Config.kdf [0, eph]), quote := q 0, quoteSig := 0, idCert := idCert, akCert := s.akCert }
  let n := q (keyxNonce k)
  { k with quote := n, quoteSig := quoteSig n }

/-- A KEYX packet waits for its turn on REQ: 896 bytes, 31 flits, one transmission of the flow (R349; 07 R206). -/
def State.sendKeyx (s : State) (node role start : Nat) (fresh peer : BitVec 256) (eph : Nat) : State :=
  match s.hop node 0, s.flow node with
  | some (hop, trunk), some f =>
    let k := s.keyxOf role start fresh peer eph
    let p0 : BulkPkt := {
      epoch := s.fab.map.epoch, key := 0, addr := 0, msgLen := 896, offset := 0, dstNode := BitVec.ofNat 16 hop,
      srcNode := BitVec.ofNat 16 s.fab.node, floor := 0, xmit := BitVec.ofNat 32 f.xmit, ts := BitVec.ofNat 32 s.tick, len := 896, typ := 1,
      sink := 1, ce := false, retx := false, finalNode := BitVec.ofNat 16 node, hver := 1,
      msgId := BitVec.ofNat 64 (s.dev.bootEpoch * 2 ^ 48), payload := keyxBytes k, tag := 0 }
    let p := { p0 with tag := Config.gcmTag 0 0 (bulkAad p0) p0.payload }
    (s.updFlow node fun f => { f with xmit := (f.xmit + 1) % 2 ^ 32 }).send 0 31 trunk (.keyx p k)
  | _, _ => s

/-- A hello toward `node`, unless one is outstanding (R353). -/
def State.hello (s : State) (node : Nat) : State :=
  match s.flow node with
  | none => s
  | some f =>
    if (s.fkeys node).hello.isSome then s
    else
      let a := s.take1
      let b := a.2.take1
      let fresh := BitVec.ofNat 256 (Config.fresh a.1)
      let eph := Config.fresh b.1
      let st := s.startXmit node f
      let h : Hello := { fresh := fresh, eph := eph, start := st, deadline := s.tick + 1000 * ticksPerMs }
      (b.2.setKeys node { s.fkeys node with hello := some h }).sendKeyx node 0 st fresh 0 eph

/-- The three keys of an agreement between `a`, which sent the hello, and `b` (R351). -/
def agree (eph : Nat) (pub fa fb : BitVec 256) (a b : Nat) : Nat × Nat × Nat :=
  let z := Config.kdf [1, eph, pub.toNat]
  let prk := Config.kdf [2, fa.toNat, fb.toNat, z]
  (Config.kdf [3, prk, a, b] % 2 ^ 256, Config.kdf [3, prk, b, a] % 2 ^ 256, Config.kdf [4, prk, a, b] % 2 ^ 256)

/-- Items 1 to 5 of R350; item 6 is the caller's. -/
def State.keyxOk (s : State) (k : Keyx) : Bool :=
  let q := k.quote
  k.kver == 1 && certsOk k.idCert k.akCert
  && k.quoteSig == quoteSig q && q.akPub == k.akCert.subject.toNat && q.nonce == keyxNonce k
  && q.blevel == 1 && !bit q.flags 2
  && (s.obj 0x7002 1 != 1 || (List.range 64).any fun r => s.obj 0x7002 2 r == (setDigestOf q).toNat)

/-- Unacknowledged packets of a flow are due again (R353). -/
def Flow.resendAll (f : Flow) (t : Nat) : Flow :=
  { f with msgs := tblMap f.msgs fun _ m => { m with pkts := tblMap m.pkts fun _ p => if p.acked then p else { p with again := true, remap := false, waitTill := t } } }

/-- The hello renews the keys of a peer that still has them: its START_XMIT comes 2^30 or more values after that of the key it sends
under. Any other comes from a peer whose entry holds no key (R353; DEDUCED, log entry 25). -/
def FlowKeys.renewed (k : FlowKeys) (start : Nat) : Bool :=
  k.rx.any fun r => let d := (start + 2 ^ 32 - r.start % 2 ^ 32) % 2 ^ 32; decide (2 ^ 30 ≤ d) && decide (d ≤ 2 ^ 31)

/-- A hello passes: keys are derived, the reply goes out (R351). The previous keys are kept where the peer renews them; where it has
lost them they are dropped, and what is not acknowledged goes again under the new ones (R353). -/
def State.helloIn (s : State) (k : Keyx) : State :=
  let node := k.srcNode.toNat
  match s.flow node with
  | none => s
  | some f =>
    let a := s.take1
    let b := a.2.take1
    let fresh := BitVec.ofNat 256 (Config.fresh a.1)
    let eph := Config.fresh b.1
    let ks := agree eph k.ephPub k.fresh fresh node s.fab.node
    let old := s.fkeys node
    let st := (f.xmit + 1) % 2 ^ 32
    let again := old.renewed k.startXmit.toNat
    let t := b.2.setKeys node { old with
      tx := some ⟨ks.2.1, st⟩, txPrev := if again then old.tx else none, rx := some ⟨ks.1, k.startXmit.toNat⟩
      rxPrev := if again then old.rx else none, kek := ks.2.2 }
    (if again then t else t.updFlow node fun g => g.resendAll s.tick).sendKeyx node 1 st fresh k.fresh eph

/-- The reply to an own hello passes. -/
def State.replyIn (s : State) (k : Keyx) (h : Hello) : State :=
  let node := k.srcNode.toNat
  let ks := agree h.eph k.ephPub h.fresh k.fresh s.fab.node node
  let old := s.fkeys node
  s.setKeys node { tx := some ⟨ks.1, h.start⟩, txPrev := old.tx, rx := some ⟨ks.2.1, k.startXmit.toNat⟩, rxPrev := old.rx, kek := ks.2.2,
                   hello := none }

/-! ### Joining a context (R356) -/

/-- Bytes 0 to 15 of a join record. -/
def joinHead (j : JoinRec) : List Byte :=
  leBytes 16 (j.jver + j.originCtx * 2 ^ 8 + j.originId * 2 ^ 16 + j.keyEpoch * 2 ^ 32 + j.destId * 2 ^ 64 + j.destCtx * 2 ^ 80)
/-- A join record's 128 bytes. -/
def joinBytes (j : JoinRec) : List Byte :=
  joinHead j ++ leBytes 16 j.nonce ++ j.wrapped ++ leBytes 64 j.tag.toNat

/-- The record of context `ctx` for a peer, wrapped under the flow's kek. -/
def State.joinRecord (s : State) (node ctx peer pc : Nat) : List Byte × State :=
  let c := (tblFind s.sec.ctx ctx).getD ⟨0, 0, 0, 0, 0, []⟩
  let kek := (s.fkeys node).kek
  let n := (s.sec.sealCtr + 1) % 2 ^ 80
  let nonce := s.fab.ownId * 2 ^ 80 + n
  let j : JoinRec := { destCtx := pc, destId := peer, keyEpoch := c.keyEpoch, originId := c.originId, originCtx := c.originCtx, jver := 1,
                       nonce := nonce, wrapped := ctr kek nonce (leBytes 32 c.parkKey), tag := 0 }
  (joinBytes { j with tag := Config.gcmTag kek nonce (joinHead j) j.wrapped }, s.modSec fun g => { g with sealCtr := n })

/-- A join record as read. -/
def decJoin (bs : List Byte) : JoinRec :=
  let v := leNat bs
  { destCtx := bits v 87 80, destId := bits v 79 64, keyEpoch := bits v 63 32, originId := bits v 31 16, originCtx := bits v 15 8,
    jver := bits v 7 0, nonce := bits v 223 128, wrapped := (bs.drop 32).take 32, tag := BitVec.ofNat 128 (bits v 639 512) }

/-- A context holds no session, lease, region, stream, binding or adapter (step 1 of R356). -/
def State.ctxEmpty (s : State) (c : Nat) : Bool :=
  !(tblAny s.ses.tbl (fun _ x => x.ctx == c && x.state != .free) || tblAny s.ses.leases (fun k _ => k / 4096 == c)
    || tblAny s.fab.regions (fun _ r => r.ctx == c) || tblAny s.txt.streams (fun _ x => x.ctx == c)
    || tblAny s.ses.binds (fun k _ => k / 256 == c) || tblAny s.ses.adapters fun k _ => k / 4096 == c)

/-- Step 4 of R356; reserved bits are ignored (00 R11), though the tag covers those of bytes 0 to 15: a record from `node` for context `b` is
installed, or refused. Peers of an identity that the record replaces leave the list, so that every device in it holds the context's
identity; one beyond 64 is refused (R357). -/
def State.joinIn (s : State) (node b : Nat) (bs : List Byte) : Option State :=
  let j := decJoin bs
  let kek := (s.fkeys node).kek
  let src := s.obj 0x7004 2 b 0
  let ok := bs.length == 128 && decide (b < 256) && j.jver == 1 && j.destCtx == b && j.destId == s.fab.ownId
    && s.obj 0x7004 2 b 2 == 1 && (s.fab.map.idEnt src).node == node && (s.fab.map.idEnt src).kind != 0
    && s.ctxOn b && s.ctxEmpty b && Config.gcmTag kek j.nonce (bs.take 16) j.wrapped == j.tag
  if !ok then none
  else
    let c := (tblFind s.sec.ctx b).getD ⟨0, 0, 0, 0, 0, []⟩
    let same := (c.originId, c.originCtx, c.keyEpoch) == (j.originId, j.originCtx, j.keyEpoch)
    let peers := (src, s.obj 0x7004 2 b 1) :: if same then c.peers.filter fun p => p.1 != src else []
    if 64 < peers.length then none
    else some ((s.modSec fun g => { g with ctx := tblIns g.ctx b { c with
      parkKey := leNat (ctr kek j.nonce j.wrapped), originId := j.originId, originCtx := j.originCtx, keyEpoch := j.keyEpoch, peers := peers } }).setObj
        0x7004 2 b 2 0)

/-- Step 5 of R356: the join of `ctx` to a peer ended with `status`. -/
def State.joinDone (s : State) (ctx peer pc status : Nat) : State :=
  let s1 := s.setObj 0x7004 3 ctx 0 status
  if status ≠ stOk then s1
  else (s1.setObj 0x7004 1 ctx 2 0).modSec fun g => { g with
    ctx := tblMod g.ctx ctx fun c => { c with peers := (peer, pc) :: c.peers.filter fun p => p.1 != peer } }

end Sys2Proof.Machine
end

