-- ==== Sys2Proof/Machine/Compute.lean ====
section
/-! DEFINITION. What engines, the vector unit, conversions and the append port do (02; 03 R67, R68, R77-R80, R93, R94;
04 R106-R110, R116; 05 R145, R146). -/

namespace Sys2Proof.Machine

/-! ### The append port (03 R93, R94; 04 R116; 05 R146) -/

/-- Sequence index and slot ordinal of row `r` (ROWMAP). -/
def rowAt (f : FmtA) (r : Nat) : Nat × Nat :=
  if f.rowmap then (f.seq0.toNat, f.slot.toNat + r) else (f.seq0.toNat + r, f.slot.toNat)
/-- Rows of an append, in order. -/
def apndRows (f : FmtA) : List Nat := List.range f.rows.toNat
/-- Channels of the section an append names. -/
def sectionCh (b : BindRec) (f : FmtA) : Nat := if f.section_ then bindCv b else bindCk b
/-- Binding of a step. -/
def State.stepBind (s : State) (p : Step) : BindRec := s.bind p.ctx p.d.binding.toNat

/-- The checks of R93, then those of the reservation. ROWS above 16 and an NCH that is no multiple of 16 are ST_INSTR
(DEDUCED, log entry 31). -/
def State.apndBad (s : State) (p : Step) (f : FmtA) : Option Nat :=
  let n := f.rows.toNat
  let last := if f.rowmap then f.seq0.toNat else f.seq0.toNat + n - 1
  firstBad
    [(decide (1 ≤ n) && decide (n ≤ 16) && decide (1 ≤ f.nch.toNat) && f.nch.toNat % 16 == 0, stInstr),
     (decide (last < p.d.seqCount.toNat) && decide (f.lg.toNat < p.d.lgCount.toNat)
        && decide (f.cbase.toNat + f.nch.toNat ≤ sectionCh (s.stepBind p) f), stInstr),
     ((apndRows f).all fun r =>
        let a := rowAt f r
        decide (a.2 < (p.seqs.getD a.1 (decSeq 0)).appendN), stAppendSlot)]

/-- Session, entry and token slot that row `r` is written to. -/
def State.apndAt (s : State) (p : Step) (f : FmtA) (r : Nat) : Option (Nat × Session × Nat × Nat) :=
  let a := rowAt f r
  let e := p.seqs.getD a.1 (decSeq 0)
  let w := e.slotAt a.2
  (s.sess e.handle).map fun x =>
    (e.handle, x, w.1 * (s.stepBind p).lgn.toNat + (p.d.firstLg.toNat + f.lg.toNat), w.2)

/-- The page that row `r` of an append writes to. -/
def State.apndPage (s : State) (p : Step) (f : FmtA) (r : Nat) : Pte :=
  match s.apndAt p f r with
  | some (_, x, n, _) => s.readPte x.ctx (x.dir.ent n)
  | none => pteNone

/-- The pages an append writes to: all landed (none), or the status that ends it, or 0 for a page still arriving. -/
def State.apndWait (s : State) (p : Step) (f : FmtA) : Option Nat :=
  let es := (apndRows f).map fun r => s.apndPage p f r
  if es.any (fun e => e.lost || !e.valid) then some stLost else if es.all (·.landed) then none else some stOk

/-- One row: FP32 values `vs` converted RNE into channels `c0` and on of its slot; CRC and GEN follow (05 R135, R137). -/
def State.apndRow (s : State) (n pos : Nat) (p : Step) (f : FmtA) (r c0 : Nat) (vs : List Num) : State :=
  match s.apndAt p f r with
  | none => s
  | some (h, x, k, t) =>
    let b := s.sbind x
    let e := x.dir.ent k
    let w := keyBits e.fmt / 8
    let at_ := (if f.section_ then valOff e.fmt (bindCk b) else 0) + (t * sectionCh b f + c0) * w
    let s1 := s.hwrite e.frame at_ (vs.flatMap fun v => leBytes w (elemEnc (pageElemFmt e.fmt) .rne v))
    let e' := { e with crc := crc32c (s1.hread e.frame 0 (pageBytes b e.fmt)) }.bump
    (s1.setSess h { x with dir := x.dir.setEnt k e' }).updStp n fun q =>
      { q with appends := q.appends ++ [⟨(rowAt f r).1, f.lg.toNat, (rowAt f r).2, f.section_, c0, vs.length, pos, q.bars⟩] }

/-- The core waits at its append (05 R146). -/
def State.holdCore (s : State) (k : Nat) (c : Core) : State := s.setCore k { c with ph := .apndHold }

/-- APND in write mode. -/
def execApndWrite (core : Nat) (f : FmtA) (s : State) : Res :=
  s.coreIsn' core (.apndWrite f) fun c p =>
    let a := c.addr f.ps (offU f.soff)
    let n := f.nch.toNat
    match s.apndBad p f with
    | some st => s.coreFault c st
    | none =>
      if !lsOk a (4 * n * f.rows.toNat) then s.coreFault c stAddrFault
      else match s.apndWait p f with
        | some st => if st = stOk then s.holdCore core c else s.coreFault c st
        | none =>
          let t := (apndRows f).foldl (fun t r =>
            t.apndRow c.step c.pos p f r f.cbase.toNat ((List.range n).map fun i => c.ls.f32 (a + 4 * (r * n + i)))) s
          t.retireIsn core c (4 + ceilDiv (f.rows.toNat * n) 16)

/-- APND in arm mode. -/
def execApndArm (core : Nat) (f : FmtA) (s : State) : Res :=
  s.coreIsn core (.apndArm f) fun c p => match s.apndBad p f with
    | some st => .stop st
    | none => .ok { c with arm := some f } 2

/-! ### One core's part of an engine operation -/

/-- Result of a core: its local store, tiles for the append port (engine, rows), a bad index nibble, the engine whose check
failed (R62), beats. -/
structure EngRes where
  ls    : Store
  tiles : List (Nat × List (List Num))
  bad   : Bool
  fails : Option Nat
  beats : Nat
  deriving DecidableEq, Repr

/-- A result of engine `e`, row `r`, column `c`, disturbed by the fault. -/
def disturbed (flt : Option EngFault) (e r c : Nat) (v : Num) : Num :=
  match flt with
  | some q => if q.engine = e ∧ q.row = r ∧ q.col = c then of32 q.value.toNat else v
  | none => v

/-- The engine whose result check fails, where one of `es` has a fault (R61, R62): a correct operation never fails it. `col e c`
gives the inputs, starts, terms and results of column `c` of engine `e`. -/
def checkFails (checks : Bool) (flt : Option EngFault) (es : List Nat) (kg : Nat)
    (col : Nat → Nat → List Num × List Num × List (List (Option Num)) × List Num) : Option Nat :=
  match flt with
  | some q =>
    let c := col q.engine q.col
    if checks && decide (q.engine ∈ es) && decide (q.row < 16) && decide (q.col < 16) && colFails kg c.1 c.2.1 c.2.2.1 c.2.2.2 then
      some q.engine
    else none
  | none => none

/-- Engines EMASK names. -/
def engines (m : BitVec 8) : List Nat := maskBits m.toNat 8
/-- Last engine EMASK names. -/
def topEngine (m : BitVec 8) : Nat := (engines m).getLastD 0
/-- K. -/
def redLen (f : FmtE) : Nat := 32 * f.kb.toNat
/-- An engine operand format (R33). -/
def opFmt (v : BitVec 4) : Bool := decide (1 ≤ v.toNat ∧ v.toNat ≤ 12)
/-- Start of an accumulator under ACCIN: `cell` its output location, `row` that of its row's word. -/
def accStart (m : Store) (accin : BitVec 2) (cell row : Nat) : Option Num :=
  match accin.toNat with
  | 0 => none | 1 => some (m.f32 cell) | _ => some (m.f32 row)
/-- EMASK, KB and ACCIN hold no reserved or zero value. -/
def engFields (f : FmtE) : Bool := f.emask != 0 && f.kb != 0 && f.accin != 3

/-- Bytes per output element (FMT_O). -/
def outBytes (f : FmtE) : Nat := match fmtElem f.fmtO.toNat with | some el => elemBits el / 8 | none => 4
/-- Output elements as bytes. -/
def outCode (f : FmtE) (vs : List Num) : List Byte :=
  match fmtElem f.fmtO.toNat with
  | some el => vs.flatMap fun v => leBytes (elemBits el / 8) (elemEnc el .rne v)
  | none => f32Bytes vs

/-- ENG.MM on one core (R77, R78). -/
def mmRun (s : State) (checks : Bool) (p : Step) (c : Core) (f : FmtE) (flt : Option EngFault) : Except Nat EngRes :=
  let k := redLen f
  let a := c.addr f.pa (offU f.aoff)
  let w := c.addr f.pw (offU f.woff)
  let o := c.addr f.po (offU f.ooff)
  let es := engines f.emask
  let top := topEngine f.emask
  let size := wTileBytes f.fmtW.toNat k f.sparse
  let tile := 256 * outBytes f
  let oNeed := max (if f.append then 0 else tile * (top + 1)) (if f.accin = 1 then tile * top + 1024 else if f.accin = 2 then tile * top + 64 else 0)
  if !engFields f then .error stInstr
  else if !opFmt f.fmtA || !opFmt f.fmtW || !(f.fmtO == 0 || isAppendFmt f.fmtO.toNat) then .error stFormatField
  else match fmtElem f.fmtA.toNat, fmtElem f.fmtW.toNat with
    | some ea, some ew => match compElem ea ew with
      | none => .error stInstr
      | some el =>
        if f.append && (match c.arm with
            | none => true
            | some r => decide (sectionCh (s.stepBind p) r < r.cbase.toNat + 16 * (top + 1))) then .error stInstr
        else if !lsOk a (arrayBytes f.fmtA.toNat (16 * k)) || !lsOk w (size * (top + 1)) || (oNeed != 0 && !lsOk o oNeed) then
          .error stAddrFault
        else
          let start := fun e i j => (accStart c.ls f.accin (o + e * tile + 4 * (16 * i + j)) (o + e * tile + 4 * i)).getD (.fin false 0 0)
          let tiles := es.map fun e =>
            (e, (List.range 16).map fun i => (List.range 16).map fun j =>
              disturbed flt e i j (mmCell f.fmtA.toNat f.fmtW.toNat k f.sparse (groupOf el) (c.ls.rd a) (c.ls.rd (w + e * size)) i j
                (start e i j)))
          let ins := (List.range (16 * k)).flatMap fun i => let v := arrayElem f.fmtA.toNat (16 * k) (c.ls.rd a) i; [v.1, v.2]
          let rows := List.range 16
          let fails := checkFails checks flt es (k / groupOf el) fun e j =>
            (ins, rows.map fun i => start e i j,
             rows.map fun i => mmTerms f.fmtA.toNat f.fmtW.toNat k f.sparse (c.ls.rd a) (c.ls.rd (w + e * size)) i j,
             (tiles.flatMap fun t => if t.1 = e then t.2 else []).map fun r => r.getD j .nan)
          let bad := f.sparse && es.any fun e => badNibble f.fmtW.toNat k (c.ls.rd (w + e * size))
          .ok { ls := if f.append then c.ls else tiles.foldl (fun m t => m.write (o + t.1 * tile) (outCode f t.2.flatten)) c.ls
                tiles := if f.append then tiles else []
                bad := bad, fails := fails
                beats := beats el k f.sparse checks }
    | _, _ => .error stFormatField

/-- Tag, computation format and page reader of an attention instruction, or the status. -/
def tagOf (p : Step) (c : Core) (f : FmtE) : Except Nat (PageTag × Elem × (Nat → Byte)) :=
  match c.tags.getD (f.fmtW.toNat % 8) none with
  | none => .error stInstr
  | some t => match compPair p.d.qfmt.toNat t.fmt with
    | none => .error stInstr
    | some el => .ok (t, el, fun i => c.ls.get (t.buf + i - t.poff))

/-- CBASE and TSTART. -/
def cBase (f : FmtE) : Nat := f.woff.toNat / 256
def tStart (f : FmtE) : Nat := f.woff.toNat % 256
/-- The ranges lie in the bytes delivered (R79). -/
def delivered (t : PageTag) (rs : List (Nat × Nat)) : Bool := rs.all fun r => within r.1 r.2 t.poff t.len
/-- The slot lies below the sweep end (04 R107). -/
def unmasked (p : Step) (t : PageTag) (slot : Nat) : Bool := decide (256 * t.page + slot < (p.seqs.getD t.seqi (decSeq 0)).e)

/-- ENG.ATS on one core (R106-R108). -/
def atsRun (checks : Bool) (p : Step) (c : Core) (f : FmtE) (flt : Option EngFault) : Except Nat EngRes :=
  let k := redLen f
  let a := c.addr f.pa (offU f.aoff)
  let o := c.addr f.po (offU f.ooff)
  let ts := tStart f
  let cb := cBase f
  let es := engines f.emask
  let oNeed := 4 * (256 * 15 + ts + 16 * (topEngine f.emask + 1))
  if !engFields f then .error stInstr
  else if !opFmt f.fmtA then .error stFormatField
  else if f.fmtA != p.d.qfmt then .error stInstr
  else match tagOf p c f with
    | .error st => .error st
    | .ok (t, el, rd) =>
      if 256 < ts + 128 || t.ck < cb + k || !delivered t (es.flatMap fun e => keyRanges t.fmt t.ck t.cv (ts + 16 * e) 16 cb k) then
        .error stInstr
      else if !lsOk a (arrayBytes f.fmtA.toNat (16 * k)) || !lsOk o oNeed then .error stAddrFault
      else
        let q := fun r i => (arrayElem f.fmtA.toNat (16 * k) (c.ls.rd a) (r * k + i)).1
        let init := fun r sl => accStart c.ls f.accin (o + 4 * (256 * r + sl)) (o + 4 * r)
        let score := fun e r i =>
          let sl := ts + 16 * e + i
          if unmasked p t sl then disturbed flt e r i (atsCell t.fmt t.ck t.cv k cb (groupOf el) (q r) rd sl (init r sl))
          else .inf true
        let rows := es.flatMap fun e => (List.range 16).map fun r =>
          (o + 4 * (256 * r + ts + 16 * e), (List.range 16).map fun i => score e r i)
        let fails := checkFails checks flt es (k / groupOf el) fun e i =>
          let sl := ts + 16 * e + i
          let rs := List.range 16
          ([], rs.map fun r => atsStart t.fmt t.ck t.cv k cb (q r) rd (init r sl), rs.map fun r => atsTerms t.fmt t.ck t.cv k cb (q r) rd sl,
           rs.map fun r => score e r i)
        .ok { ls := rows.foldl (fun m w => m.write w.1 (f32Bytes w.2)) c.ls, tiles := [], bad := false, fails := fails
              beats := beats el k false checks }

/-- ENG.ATV on one core (R55, R106, R107, R110). -/
def atvRun (checks : Bool) (p : Step) (c : Core) (f : FmtE) (flt : Option EngFault) : Except Nat EngRes :=
  let k := redLen f
  let a := c.addr f.pa (offU f.aoff)
  let o := c.addr f.po (offU f.ooff)
  let ts := tStart f
  let cb := cBase f
  let es := engines f.emask
  let top := topEngine f.emask
  if !engFields f then .error stInstr
  else if f.fmtA != 0 then .error stFormatField
  else match tagOf p c f with
    | .error st => .error st
    | .ok (t, el, rd) =>
      let width := if t.cv = 0 then t.ck else t.cv
      let rng := fun e => if t.cv = 0 then keyRanges t.fmt t.ck t.cv ts k (cb + 16 * e) 16 else valRanges t.fmt t.ck t.cv ts k (cb + 16 * e) 16
      if 256 < ts + k || width < cb + 16 * (top + 1) || !delivered t (es.flatMap rng) then .error stInstr
      else if !lsOk a (4 * (256 * 15 + ts + k)) || !lsOk o (4 * (128 * 15 + 16 * (top + 1))) then .error stAddrFault
      else
        let prob := fun r i =>
          if unmasked p t (ts + i) then some (elemDec el (elemEnc el .rne (c.ls.f32 (a + 4 * (256 * r + ts + i))))) else none
        let init := fun e r i => accStart c.ls f.accin (o + 4 * (128 * r + (16 * e + i))) (o + 4 * r)
        let sum := fun e r i =>
          disturbed flt e r i (atvCell t.fmt t.ck t.cv k ts (groupOf el) (prob r) rd (cb + (16 * e + i)) (init e r i))
        let rows := es.flatMap fun e => (List.range 16).map fun r =>
          (o + 4 * (128 * r + 16 * e), (List.range 16).map fun i => sum e r i)
        let fails := checkFails checks flt es (k / groupOf el) fun e i =>
          let rs := List.range 16
          ([], rs.map fun r => atvStart t.fmt t.ck t.cv k (prob r) rd (cb + (16 * e + i)) (init e r i),
           rs.map fun r => atvTerms t.fmt t.ck t.cv k ts (prob r) rd (cb + (16 * e + i)), rs.map fun r => sum e r i)
        .ok { ls := rows.foldl (fun m w => m.write w.1 (f32Bytes w.2)) c.ls, tiles := [], bad := false, fails := fails
              beats := beats el k false checks }

/-! ### The course runs an engine operation (R67, R68, R63) -/

/-- Result checks run (02 R61; 15 R431). -/
def State.checksOn (s : State) : Bool := s.profile != 1

/-- The engine instruction a core is at. APPEND is ENG.MM's (R75): the others ignore its bit (00 R11). -/
def Core.fmtE (c : Core) : Option FmtE :=
  match c.cur with
  | some (.engMm f) => some f
  | some (.engAts f) | some (.engAtv f) => some { f with append := false }
  | _ => none

/-- The first core whose part fails, with its status. -/
def engFail (l : List (Nat × Core × FmtE × Except Nat EngRes)) : Option (Core × Nat) :=
  l.findSome? fun e => match e.2.2.2 with | .error st => some (e.2.1, st) | .ok _ => none

/-- A failed result check (02 R63): the record, the step's end, the count toward fencing. -/
def State.checkFail (s : State) (k : Nat) (c : Core) (p : Step) (e : Nat) : State :=
  ((s.record { sev := 2, code := 0x0008, source := 0x04, unit := 8 * k + e, status := stResultCheck, ctx := p.ctx, addr := c.ip }).coreFault
    c stResultCheck).dieFault (k / 256)

/-- One core's part takes effect: its store, its appends, its cost of 18 + b. -/
def State.engCommit (s : State) (n : Nat) (p : Step) (k : Nat) (c : Core) (f : FmtE) (r : EngRes) : State :=
  let s1 := match c.arm with
    | some g => if f.append then
        r.tiles.foldl (fun (t : State) (e : Nat × List (List Num)) => (apndRows g).foldl (fun (t : State) i => t.apndRow n c.pos p g i (g.cbase.toNat + 16 * e.1) (e.2.getD i [])) t) s
      else s
    | none => s
  s1.setCore k { c with ls := r.ls, arm := if f.append then none else c.arm, ip := c.ip + 1, ph := .run, busyUntil := s.aclk + 18 + r.beats }

/-- The first core whose result check failed, and its engine. -/
def checkFailed (l : List (Nat × Core × FmtE × Except Nat EngRes)) : Option (Nat × Core × Nat) :=
  l.findSome? fun e => match e.2.2.2 with | .ok r => r.fails.map fun g => (e.1, e.2.1, g) | .error _ => none

/-- The course runs the engine instruction (op, sig) (R67, R68); `flt` is a fault of its cells. -/
def State.engRow (s : State) (n op : Nat) (sig : EngSig) (flt : Option EngFault)
    (run : Step → Core → FmtE → Option EngFault → Except Nat EngRes) : Res :=
  match s.running n with
  | none => .next s
  | some p =>
    let l := s.cores p
    match s.engSkew p with
    | some c => .next (s.coreFault c stCourseSkew)
    | none =>
      if l.isEmpty || l.any (fun e => e.2.engAt s.aclk != some (.eng op sig)) || l.any (fun e => e.2.drift) then .next s
      else
        let rs := l.filterMap fun e => e.2.fmtE.map fun f => (e.1, e.2, f, run p e.2 f (flt.filter fun q => q.pos == e.2.pos))
        match engFail rs with
        | some (c, st) => .next (s.coreFault c st)
        | none =>
          let waits := rs.filterMap fun e => match e.2.1.arm with
            | some g => if e.2.2.1.append then (s.apndWait p g).map fun st => (e.1, e.2.1, st) else none
            | none => none
          match waits.find? fun w => w.2.2 != stOk with
          | some w => .next (s.coreFault w.2.1 w.2.2)
          | none =>
            if !waits.isEmpty then .next (waits.foldl (fun t w => t.holdCore w.1 w.2.1) s)
            else match checkFailed rs with
              | some (k, c, g) => .next (s.checkFail k c p g)
              | none =>
                let s1 := rs.foldl (fun t e => match e.2.2.2 with
                  | .ok r => t.engCommit n p e.1 e.2.1 e.2.2.1 r
                  | .error _ => t) s
                let s2 := s1.syncClear n
                let s3 := if rs.any fun e => match e.2.2.2 with | .ok r => r.bad | .error _ => false then
                    s2.updStp n fun q => { q with sparseBad := true } else s2
                match l.find? fun e => decide (e.2.istore.length ≤ e.2.ip + 1) with
                | some e => .next (s3.coreFault e.2 stInstr)
                | none => .next s3

/-- ENG.MM. -/
def execEngMm (step : Nat) (sig : EngSig) (fault : Option EngFault) (s : State) : Res :=
  s.engRow step 0x10 sig fault fun p c f flt => mmRun s s.checksOn p c f flt

/-- ENG.ATS. -/
def execEngAts (step : Nat) (sig : EngSig) (fault : Option EngFault) (s : State) : Res :=
  s.engRow step 0x11 (tagged sig) fault fun p c f flt => atsRun s.checksOn p c f flt

/-- ENG.ATV. -/
def execEngAtv (step : Nat) (sig : EngSig) (fault : Option EngFault) (s : State) : Res :=
  s.engRow step 0x12 (tagged sig) fault fun p c f flt => atvRun s.checksOn p c f flt

/-- COURSE_REALIGN (R68, R69): every core of a drifted course has reached its engine instruction. -/
def execCourseRealign (step : Nat) (s : State) : Res :=
  match s.running step with
  | none => .next s
  | some p =>
    let l := s.cores p
    match s.engSkew p with
    | some c => .next (s.coreFault c stCourseSkew)
    | none =>
      if l.any (fun e => (e.2.engAt s.aclk).isNone) || !l.any (fun e => e.2.drift) then .next s
      else
        let t := s.aclk + (if p.spansDies then 44 else 4)
        .next (s.modRun fun g => { g with
          cores := tblMap g.cores fun _ c => if c.step = step then { c with drift := false, busyUntil := t } else c })

/-! ### The vector unit and conversions (R74, R77; 02 R38-R42, R51) -/

/-- N, 0 meaning 65,536. -/
def elems (n : BitVec 16) : Nat := if n = 0 then 65536 else n.toNat
/-- Elements of B a function reads. -/
def vecB (fn n : Nat) : Nat := if fn ≤ 5 then n else if fn = 12 ∨ fn = 13 then 1 else 0
/-- Elements a function writes. -/
def vecD (fn n : Nat) : Nat := if fn = 10 ∨ fn = 11 then 1 else n

/-- VEC. -/
def execVec (core : Nat) (f : FmtV) (s : State) : Res :=
  s.coreIsn core (.vec f) fun c _ =>
    let n := elems f.n
    let fn := f.func.toNat
    let a := c.addr f.pa (offU f.aoff)
    let b := c.addr f.pb (offU f.boff)
    let d := c.addr f.pd (offU f.doff)
    let nb := vecB fn n
    let rd := fun (x m : Nat) => (List.range m).map fun i => c.ls.f32 (x + 4 * i)
    if 13 < fn then .stop stInstr
    else if !lsOk a (4 * n) || (nb != 0 && !lsOk b (4 * nb)) || !lsOk d (4 * vecD fn n) then .stop stAddrFault
    else match vecFunc fn (rd a n) (rd b nb) (if fn = 3 then rd d n else []) with
      | none => .stop stInstr
      | some vs => .ok { c with ls := c.ls.write d (f32Bytes vs) } (vecCost fn n)

/-- Element values of a source array, its scales applied. -/
def srcVals (fmt n : Nat) (rd : Nat → Byte) : List Num :=
  (List.range n).map fun i =>
    if fmt = 0 then of32 (leNat [rd (4 * i), rd (4 * i + 1), rd (4 * i + 2), rd (4 * i + 3)])
    else let e := arrayElem fmt n rd i; numMul e.1 e.2
/-- Bytes of an array of a CVT format. -/
def cvtBytes (fmt n : Nat) : Nat := if fmt = 0 then 4 * n else arrayBytes fmt n
/-- Rounding of element `i`. -/
def cvtMode (p : Step) (c : Core) (rnd : BitVec 2) (i : Nat) : Rnd :=
  match rnd.toNat with
  | 0 => .rne | 1 => .rtz | _ => srMode p.d.seed.toNat c.srOrd c.pos i

/-- CVT. -/
def execCvt (core : Nat) (f : FmtX) (s : State) : Res :=
  s.coreIsn core (.cvt f) fun c p =>
    let n := elems f.n
    let src := f.fromF.toNat
    let tgt := f.toF.toNat
    let a := c.addr f.pa (offU f.aoff)
    let d := c.addr f.pd (offU f.doff)
    if 12 < src || 12 < tgt || f.rnd == 3 || (f.rnd == 2 && !isMx tgt) then .stop stFormatField
    else if (decide (6 ≤ src) || decide (6 ≤ tgt)) && n % 32 != 0 then .stop stInstr
    else if !lsOk a (cvtBytes src n) || !lsOk d (cvtBytes tgt n) then .stop stAddrFault
    else
      let vs := srcVals src n (c.ls.rd a)
      let bs := if tgt = 0 then vs.zipIdx.flatMap fun (v, i) => leBytes 4 (elemEnc .fp32 (cvtMode p c f.rnd i) v)
        else encodeArray tgt (cvtMode p c f.rnd) vs
      .ok { c with ls := c.ls.write d bs, srOrd := if f.rnd == 2 then c.srOrd + n else c.srOrd } (4 + ceilDiv n 64)

end Sys2Proof.Machine
end

