-- ==== Sys2Proof/Machine/Streams.lean ====
section
/-! DEFINITION. Stream requests (03 R81-R84, R100; 04 R118-R121; 16 R444, R446), the stall limit, and barriers and
preemption points (03 R91, R92; 10 R298). -/

namespace Sys2Proof.Machine

/-! ### Issue (R81, R82) -/

/-- Cycles of latency toward memory on die `d` (R82). -/
def streamLat (core : Nat) (ks : Bool) (d : Nat) : Nat := (if ks then 200 else 240) + (if core / 256 = d then 0 else 80)
/-- Die of the frame behind a context address. -/
def State.ctxDie (ctx addr : Nat) : Nat := ctxFrame (ckey ctx addr / 4096) / framesPerDie
/-- Requests issued before whose own bound has not passed at cycle `t` (R82). -/
def Core.aheadAt (c : Core) (t : Nat) : List (Nat × Nat) := c.ahead.filter fun r => decide (t ≤ r.1)
/-- The bound of R82 for a request of `n` bytes issued now. -/
def Core.bound (c : Core) (core : Nat) (p : Step) (t die n : Nat) (spread : Bool) : Nat :=
  let ahead := n + ((c.aheadAt t).map (·.2)).foldl (· + ·) 0
  t + streamLat core p.ks die + ceilDiv (5 * ahead * p.cores.length) (4 * p.d.hbmShare.toNat * (if spread then 16 else 1))

/-- The request enters the queue, or the core waits for the oldest entry to complete. -/
def State.issue (s : State) (k : Nat) (c : Core) (r : StreamReq) (cost : Nat) : State :=
  if 8 ≤ c.queue.length then s.setCore k { c with ph := .strFull, drift := true }
  else s.retireIsn k { c with
    queue := c.queue ++ [r], q := c.q.set r.sq (c.q.getD r.sq 0 + 1), ahead := c.aheadAt s.aclk ++ [(r.bound, r.len)] } cost

/-- A request for context memory. -/
def ctxReq (kind : StreamKind) (f : FmtT) (p : Step) (la xa bound ip : Nat) : StreamReq :=
  { kind := kind, sq := f.sq.toNat, laddr := la, caddr := xa, len := f.len.toNat, tag := 0, seqi := 0, lg := 0, page := 0, poff := 0,
    bound := bound, absent := false, seen := p.appends.length, bars := p.bars, ip := ip }

/-- STR.RD, STR.WR and STR.SPREAD once their own checks passed. -/
def State.strCtx (s : State) (k : Nat) (c : Core) (p : Step) (kind : StreamKind) (f : FmtT) : State :=
  let n := f.len.toNat
  let a := c.addr f.ps (off32 f.soff)
  let b := c.addr f.pd (off32 f.doff)
  let la := if kind = .wr then a else b
  let xa := if kind = .wr then b else a
  if !lenOk f then s.coreFault c stInstr
  else if !lsOk la n || !cxOk xa n then s.coreFault c stAddrFault
  else s.issue k c (ctxReq kind f p la xa (c.bound k p s.aclk (State.ctxDie p.ctx xa) n (kind == .spread)) c.ip) (if kind = .spread then 6 else 2)

/-- STR.RD. -/
def execStrRd (core : Nat) (f : FmtT) (s : State) : Res := s.coreIsn' core (.strRd f) fun c p => s.strCtx core c p .rd f
/-- STR.WR. -/
def execStrWr (core : Nat) (f : FmtT) (s : State) : Res := s.coreIsn' core (.strWr f) fun c p => s.strCtx core c p .wr f

/-- Spreads of a core that wait in its queue. -/
def Core.spreads (c : Core) : List StreamReq := c.queue.filter fun r => r.kind == .spread
/-- Cores of the cluster of core `k`, with their numbers. -/
def State.clusterCores (s : State) (k : Nat) : List (Nat × Core) :=
  (span (k / 16 * 16) 16).filterMap fun j => (s.core j).map fun c => (j, c)

/-- STR.SPREAD (R70, R83): a source or length unlike another core's ends the step with ST_COURSE_SKEW, and so does a
local-store offset unlike another's, since the bytes go to one offset in every core (DEDUCED, log entry 34). -/
def execStrSpread (core : Nat) (f : FmtT) (s : State) : Res :=
  s.coreIsn' core (.strSpread f) fun c p =>
    let i := c.spreads.length
    let xa := c.addr f.ps (off32 f.soff)
    let differs := (s.clusterCores core).any fun e => match e.2.spreads[i]? with
      | some r => e.1 != core && e.2.step == c.step
          && (r.caddr != xa || r.len != f.len.toNat || r.laddr != c.addr f.pd (off32 f.doff))
      | none => false
    if !p.d.wholeCl then s.coreFault c stInstr
    else if differs && decide (c.queue.length < 8) then s.coreFault c stCourseSkew
    else s.strCtx core c p .spread f

/-! ### STR.PAGE (R84; 04 R119) -/

/-- Round of a ring step that brings page `g` of its sequence. -/
def SeqEnt.pageRound (e : SeqEnt) (g : Nat) : Nat :=
  let ch := g / max 1 e.chunkPages
  let m := if ch < e.ringN then ch else 2 * e.ringN - 1 - ch
  (e.ringPos + e.ringN - m) % max 1 e.ringN

/-- A visiting page that has landed (04 R123). -/
def Step.visit (p : Step) (round page : Nat) : Option VisitPage :=
  p.ring.bind fun r => (tblGet [] r.visits round).find? fun v => v.page == page

/-- The page a request names: its format once known, whether its bytes are there, the die they lie on. -/
inductive PageAt where
  /-- an entry of the session, at this index -/
  | own (h n : Nat) (e : Pte)
  /-- a visiting page, landed or not -/
  | visiting (round : Nat) (v : Option VisitPage)
  deriving DecidableEq, Repr

/-- What sequence `i`, relative layer group `lg`, page `g` is. -/
def State.pageNamed (s : State) (p : Step) (i lg g : Nat) : PageAt :=
  let e := p.seqs.getD i (decSeq 0)
  let r := if e.ringN = 0 then 0 else e.pageRound g
  if r ≠ 0 then .visiting r (p.visit r g)
  else
    let n := g * (s.stepBind p).lgn.toNat + (p.d.firstLg.toNat + lg)
    match s.sess e.handle with
    | some x => .own e.handle n (s.readPte x.ctx (x.dir.ent n))
    | none => .own e.handle n pteNone

/-- Key of the stream segment a page belongs to; none outside a segment (04 R119). The visiting pages of a round are one
segment, whatever their layer group. -/
def segKey (p : Step) (i lg : Nat) : PageAt → Option Nat
  | .own _ _ _ => if (p.seqs.getD i (decSeq 0)).stream then some (segOwn i lg) else none
  | .visiting r _ => some (segRound i r)

/-- Format of a page, when it is known. -/
def PageAt.fmt : PageAt → Option Nat
  | .own _ _ e => some e.fmt
  | .visiting _ v => v.map (·.fmt)
/-- Bytes are in a frame of this device. -/
def PageAt.here : PageAt → Bool
  | .own _ _ e => e.landed
  | .visiting _ v => v.isSome

/-- The window of R119 refuses a request for page `g` in segment `k`. -/
def Core.windowBad (c : Core) (p : Step) (s : State) (k g : Nat) : Bool :=
  let out := c.queue.filter fun r => r.kind == .page && segKey p r.seqi r.lg (s.pageNamed p r.seqi r.lg r.page) == some k
  let w := out.foldl (fun m r => min m r.page) g
  (match tblFind c.seg k with | some m => decide (g < m) | none => false) || decide (w + 8 ≤ g)

/-- The page was not resident in Tier 1 at admission (R84, R100). -/
def Step.wasAbsent (p : Step) (i : Nat) : PageAt → Bool
  | .own _ n _ => decide ((i, n) ∈ p.absent)
  | .visiting _ _ => true

/-- A page request. -/
def pageReqOf (f : FmtP) (p : Step) (la bound : Nat) (absent : Bool) (ip : Nat) : StreamReq :=
  { kind := .page, sq := f.sq.toNat, laddr := la, caddr := 0, len := 64 * f.len64.toNat, tag := f.tag.toNat, seqi := f.seq.toNat,
    lg := f.lg.toNat, page := f.page.toNat, poff := f.poff.toNat, absent := absent, seen := p.appends.length, bars := p.bars, ip := ip,
    bound := bound }

/-- The payload's end, where the page's format is known: an own page's, or that of a visiting page that has landed. -/
def State.payloadOk (s : State) (p : Step) (n : Nat) : PageAt → Bool
  | .own _ _ e => e.valid && decide (n ≤ pageBytes (s.stepBind p) e.fmt)
  | .visiting _ v => v.all fun w => decide (n ≤ pageBytes (s.stepBind p) w.fmt)
/-- The page is lost. -/
def PageAt.lost : PageAt → Bool
  | .own _ _ e => e.lost
  | .visiting _ _ => false
/-- The page's bytes are there, or a stream segment brings them. -/
def PageAt.comes (p : Step) (i : Nat) : PageAt → Bool
  | .own _ _ e => e.landed || (p.seqs.getD i (decSeq 0)).stream
  | .visiting _ _ => true

/-- STR.PAGE. A POFF that is no multiple of 64 and a LEN64 above 32,768 are ST_INSTR (DEDUCED, log entry 31). A lost page is
reported before its payload is looked at, and the window of R119 only once the queue has room (DEDUCED, log entry 60). -/
def execStrPage (core : Nat) (f : FmtP) (s : State) : Res :=
  s.coreIsn' core (.strPage f) fun c p =>
    let i := f.seq.toNat
    let lg := f.lg.toNat
    let g := f.page.toNat
    let n := 64 * f.len64.toNat
    let la := c.addr f.pd (offU f.doff)
    let e := p.seqs.getD i (decSeq 0)
    let pg := s.pageNamed p i lg g
    let key := segKey p i lg pg
    let room := decide (c.queue.length < 8)
    if !decide (i < p.d.seqCount.toNat) || !decide (lg < p.d.lgCount.toNat) || !decide (g < e.sweepPages)
        || !decide (1 ≤ f.len64.toNat ∧ f.len64.toNat ≤ 32768) || f.poff.toNat % 64 != 0 then s.coreFault c stInstr
    else if pg.lost then s.coreFault c stLost
    else if !s.payloadOk p (f.poff.toNat + n) pg then s.coreFault c stInstr
    else if !lsOk la n then s.coreFault c stAddrFault
    else if !pg.comes p i then s.coreFault c stHbmUe
    else if key.any fun k => room && c.windowBad p s k g then s.coreFault c stWindow
    else
      let bound := c.bound core p s.aclk (((s.sess e.handle).map (·.homeDie)).getD 0) n false
      s.issue core { c with seg := if room then key.toList.foldl (fun t k => tblIns t k g) c.seg else c.seg }
        (pageReqOf f p la bound (p.wasAbsent i pg) c.ip) 2

/-! ### Completion (R81, R83, R84) -/

/-- The oldest request leaves the queue; a core that found the queue full goes on. -/
def Core.popReq (c : Core) (t : Nat) : Core :=
  match c.queue with
  | [] => c
  | r :: l => { c with queue := l, q := c.q.set r.sq (c.q.getD r.sq 0 - 1)
                       ph := if c.ph == .strFull then .run else c.ph, busyUntil := if c.ph == .strFull then t else c.busyUntil }

/-- The step of a core ends because of a request that the instruction at `ip` issued. -/
def State.reqFault (s : State) (c : Core) (ip status : Nat) : State := s.stepFail c.step c.pos ip status

/-- A read of the request meets line `l`, which fails: the step ends (16 R444), then the page is handled (R446). -/
def State.reqUe (s : State) (c : Core) (p : Step) (r : StreamReq) (l : Nat) (handle : Option Nat) : State :=
  ((s.ueRead l p.ctx handle).reqFault c r.ip stHbmUe).lineBad l

/-- Request `r` of the core at position `pos` sees append number `i` (R94): the core's own, made before the request was issued,
or one before the last barrier or point. -/
def StreamReq.sees (r : StreamReq) (pos i : Nat) (a : AppendLog) : Bool := (a.pos == pos && decide (i < r.seen)) || decide (a.bars < r.bars)

/-- Byte `off` of the page is that of a channel of a token slot that the step reserved, and the step has not appended it where
request `r` sees it: a free value (04 R118). -/
def Step.freeAt (p : Step) (b : BindRec) (pos : Nat) (r : StreamReq) (fmt off : Nat) : Bool :=
  let e := p.seqs.getD r.seqi (decSeq 0)
  let vo := valOff fmt (bindCk b)
  let val := decide (vo ≤ off)
  let width := max 1 (if val then bindCv b else bindCk b)
  let cell := (if val then off - vo else off) / max 1 (keyBits fmt / 8)
  let t := cell / width
  let ch := cell % width
  isAppendFmt fmt && (List.range e.appendN).any fun k =>
    e.slotAt k == (r.page, t) &&
      (let l := p.appends.zipIdx.filter fun a =>
        a.1.seqi == r.seqi && a.1.lg == r.lg && a.1.slot == k && a.1.val == val && decide (a.1.ch0 ≤ ch) && decide (ch < a.1.ch0 + a.1.nch)
       l.isEmpty || l.any fun a => !r.sees pos a.2 a.1)

/-- The page request `r` completes with the bytes `bs` of a page of format `fmt`: local store, then the tag. -/
def State.pageDone (s : State) (k : Nat) (c : Core) (p : Step) (r : StreamReq) (fmt : Nat) (bs : List Byte) : State :=
  let b := s.stepBind p
  let u := s.take1
  let free := fun i => p.freeAt b c.pos r fmt (r.poff + i)
  let bs' := bs.zipIdx.map fun (v, i) => if free i then Config.freeByte u.1 i else v
  let t := if (List.range bs.length).any free then u.2 else s
  let tag : PageTag := { buf := r.laddr, fmt := fmt, ck := bindCk b, cv := bindCv b, poff := r.poff, len := r.len, seqi := r.seqi, page := r.page }
  t.setCore k { (c.popReq s.aclk) with ls := c.ls.write r.laddr bs', tags := c.tags.set r.tag (some tag) }

/-- The request `r` of step `n` has brought its bytes to local store. Where the step's first instruction issued it, the
dispatch time is measured (10 R304), once for each step, and DISPATCH_MAX keeps the longest, in ns (10 R310; log entry 51). -/
def State.dispatched (s : State) (n : Nat) (p : Step) (r : StreamReq) : State :=
  match p.door with
  | some t =>
    if r.ip = 0 then
      (s.updStp n fun q => { q with door := none }).setObj 0x5007 3 0 0 (max (s.obj 0x5007 3) ((s.dev.nclk - t) * 2 / 5) % 2 ^ 32)
    else s
  | none => s

/-- The page request at the head of the queue completes, where its page is there. Of a page marked lost in this cycle, a failed line that the
step reads ends it (16 R445). -/
def State.pageReq (s : State) (k : Nat) (c : Core) (p : Step) (r : StreamReq) (ue : Option Nat) : State :=
  let b := s.stepBind p
  match s.pageNamed p r.seqi r.lg r.page with
  | .own h n e =>
    let line := fun (o : Nat) => 64 * e.frame + (r.poff + o) / 64
    let bad := (ue.map line).orElse fun _ => s.hbad e.frame r.poff r.len
    if e.lost then
      match (if s.err.lostAt = s.dev.nclk ∧ (h, n) ∈ s.err.lostNow then bad else none) with
      | some l => s.reqUe c p r l (some h)
      | none => s.reqFault c r.ip stLost
    else if !e.landed then
      if (p.seqs.getD r.seqi (decSeq 0)).stream then s else s.reqFault c r.ip stHbmUe
    else match bad with
      | some l => s.reqUe c p r l (some h)
      | none => (s.pageDone k c p r e.fmt (s.hread e.frame r.poff r.len)).dispatched c.step p r
  | .visiting _ none => s
  | .visiting _ (some v) =>
    if pageBytes b v.fmt < r.poff + r.len then s.reqFault c r.ip stInstr
    else match (ue.map fun o => 64 * v.frame + (r.poff + o) / 64).orElse fun _ => s.hbad v.frame r.poff r.len with
      | some l => s.reqUe c p r l none
      | none => (s.pageDone k c p r v.fmt (s.hread v.frame r.poff r.len)).dispatched c.step p r

/-- Read of context memory at the head of the queue: the line that fails, if any. -/
def State.ctxUe (s : State) (p : Step) (r : StreamReq) (ue : Option Nat) : Option Nat :=
  (ue.map fun o => ctxLine (ckey p.ctx (r.caddr + o))).orElse fun _ => s.cbad p.ctx r.caddr r.len

/-- STREAM_REQUEST_COMPLETE: the oldest request of a core performs (R81). `ue` is the offset of a line that the read
finds uncorrectable (16 R475). In SEALED the channel controllers serve the slot's context (12 R361). -/
def execStreamRequestComplete (core : Nat) (ue : Option Nat) (s : State) : Res :=
  match s.core core with
    | none => .next s
    | some c => match s.running c.step, c.queue.head? with
      | some p, some r =>
        let ue := ue.filter fun o => decide (o < r.len)
        if !s.slotOk p.ctx then .next s
        else match r.kind with
        | .page => .next ((s.pageReq core c p r ue).finish c.step)
        | .rd => match s.ctxUe p r ue with
          | some l => .next (s.reqUe c p r l none)
          | none =>
            .next (((s.setCore core { (c.popReq s.aclk) with ls := c.ls.write r.laddr (s.cread p.ctx r.caddr r.len) }).dispatched
              c.step p r).finish c.step)
        | .wr =>
          let fs := s.uncopied p.ctx r.caddr r.len
          if !fs.isEmpty then .next (s.cbwHold fs (some core))
          else .next (((s.cwrite p.ctx r.caddr (c.ls.read r.laddr r.len)).setCore core (c.popReq s.aclk)).finish c.step)
        | .spread =>
          let l := s.clusterCores core
          if l.length ≠ 16 || l.any (fun e => e.2.step != c.step || (e.2.queue.head?.map (·.kind)) != some .spread) then .next s
          else match s.ctxUe p r ue with
            | some ln => .next (s.reqUe c p r ln none)
            | none =>
              let bs := s.cread p.ctx r.caddr r.len
              .next (((l.foldl (fun t e => t.setCore e.1 { (e.2.popReq s.aclk) with
                ls := e.2.ls.write ((e.2.queue.head?.map (·.laddr)).getD 0) bs }) s).dispatched c.step p r).finish c.step)
      | _, _ => .next s

/-! ### STREAM_STALL (04 R120, R124, R146) -/

/-- Segments whose pages a held append waits for: those of the rows whose page is still arriving (05 R146). -/
def State.apndSegs (s : State) (p : Step) (c : Core) : List Nat :=
  let f := match c.cur with
    | some (.apndWrite f) => some f
    | _ => c.arm
  f.toList.flatMap fun f => (apndRows f).filterMap fun r =>
    if (s.apndPage p f r).landed then none else some (segOwn (rowAt f r).1 f.lg.toNat)

/-- Segments on which a core waits, with the core and the instruction: a request for a page that is not there, or an append
held. -/
def State.waitsOn (s : State) (p : Step) : List (Nat × Core × Nat) :=
  (s.cores p).flatMap fun e =>
    (e.2.queue.filterMap fun r =>
      let pg := s.pageNamed p r.seqi r.lg r.page
      if r.kind == .page && !pg.here then (segKey p r.seqi r.lg pg).map fun k => (k, e.2, r.ip) else none)
    ++ (if e.2.ph == .apndHold then (s.apndSegs p e.2).map fun k => (k, e.2, e.2.ip) else [])

/-- A ring member has no credit for the block it sends next. -/
def Step.awaitsCredit (p : Step) : Bool :=
  match p.ring, p.seqs.head? with
  | some r, some e => r.credits == 0 && decide (r.sentRound + 1 < e.ringN)
  | _, _ => false

/-- A page of the block that a ring member sends next is ready, and nothing of an earlier block is left to send: it waits for a credit
alone (04 R124). -/
def State.creditDue (s : State) (n : Nat) (p : Step) : Bool :=
  p.awaitsCredit && match p.ring, p.seqs.head? with
    | some r, some e => (List.range r.sentRound).all (Step.ringSent e r) && (match s.ringNext n p e r r.sentRound with | .none => false | _ => true)
    | _, _ => false

/-- The waits of a running step are timed from the first cycle in which they stand (04 R120, R124). -/
def State.timeWaits (s : State) (n : Nat) (p : Step) : Step :=
  if p.ph != .running then { p with stall := [] }
  else
    let ks := (s.waitsOn p).map (·.1) ++ (if s.creditDue n p then [creditKey] else [])
    { p with stall := ks.foldl (fun t k => tblIns t k (tblGet s.tick p.stall k)) [] }

/-- The wait under key `k` has lasted STALL ms. -/
def State.stalled (s : State) (p : Step) (k : Nat) : Bool :=
  (tblFind p.stall k).any fun t => p.stallMs k != 0 && s.past (t + p.stallMs k * ticksPerMs)

/-- STREAM_STALL: no page of the segment has landed for STALL ms while a request waits, or no credit has come. -/
def execStreamStall (step : Nat) (s : State) : Res :=
  match s.stp step with
  | none => .next (s.lateExpiry step 3)
  | some _ => match s.running step with
    | none => .next s
    | some p => match (s.waitsOn p).find? fun w => s.stalled p w.1 with
      | some (_, c, ip) => .next (s.reqFault c ip stStreamStall)
      | none => if p.awaitsCredit && s.stalled p creditKey then .next (s.endStep step stStreamStall none) else .next s

/-! ### Barriers and preemption points (R91, R92) -/

/-- The core waits at a common point. -/
def State.arrive (s : State) (k : Nat) (c : Core) (p : Step) (ev : SyncEv) (ph : CorePh) : State :=
  match s.reach p c ev with
  | none => s.coreFault c stCourseSkew
  | some l => (s.setCore k { c with ph := ph, drift := true, nsync := c.nsync + 1 }).updStp c.step fun q => { q with sync := l }

/-- BARRIER. -/
def execBarrier (core : Nat) (s : State) : Res := s.coreIsn' core .barrier fun c p => s.arrive core c p .barrier .atBarrier

/-- The live ranges of a PPOINT, in 256-byte units. -/
def liveRanges (f : FmtPp) : List (Nat × Nat) :=
  [(f.base0.toNat, f.len0.toNat), (f.base1.toNat, f.len1.toNat), (f.base2.toNat, f.len2.toNat), (f.base3.toNat, f.len3.toNat)]
/-- The ranges total at most 64 KiB and lie in local store (R92). -/
def rangesOk (rs : List (Nat × Nat)) : Bool :=
  decide ((rs.map (·.2)).foldl (· + ·) 0 ≤ 256) && rs.all fun r => r.2 == 0 || decide (256 * (r.1 + r.2) ≤ lsEnd)

/-- PPOINT. -/
def execPpoint (core : Nat) (f : FmtPp) (s : State) : Res :=
  s.coreIsn' core (.ppoint f) fun c p =>
    if !rangesOk (liveRanges f) then s.coreFault c stInstr else s.arrive core c p .ppoint (.atPpoint f)

/-- Every core leaves the point in the same cycle. -/
def State.leave (s : State) (n : Nat) (p : Step) : State :=
  let t := s.aclk + (if p.spansDies then 46 else 6)
  ((s.syncClear n).updStp n fun q => { q with bars := q.bars + 1 }).modRun fun g => { g with
    cores := tblMap g.cores fun _ c => if c.step = n then { c with ph := .run, ip := c.ip + 1, busyUntil := t } else c }

/-- A core whose point is the last instruction of the program. -/
def State.offEnd (s : State) (p : Step) : Option Core := (s.cores p).findSome? fun e => if e.2.istore.length ≤ e.2.ip + 1 then some e.2 else none

/-- BARRIER_RELEASE. -/
def execBarrierRelease (step : Nat) (s : State) : Res :=
  match s.running step with
  | none => .next s
  | some p =>
    let l := s.cores p
    if l.isEmpty || !p.msgs.isEmpty || l.any (fun e => e.2.ph != .atBarrier) then .next s
    else match s.offEnd p with
      | some c => .next (s.coreFault c stInstr)
      | none => .next (s.leave step p)

/-- A local-store line lies in a declared range. -/
def inRanges (rs : List (Nat × Nat)) (l : Nat) : Bool := rs.any fun r => decide (r.1 ≤ l) && decide (l < r.1 + r.2)
/-- Ranges of the PPOINT a core waits at. -/
def Core.ranges (c : Core) : List (Nat × Nat) := match c.ph with | .atPpoint f => liveRanges f | _ => []
/-- Written bits outside the ranges, and those of the cluster-store slice, are cleared (R92). -/
def Core.clearLines (c : Core) : Core :=
  { c with ls := { c.ls with wr := tblKeep c.ls.wr fun l _ => inRanges c.ranges l }, cs := { c.cs with wr := [] } }
/-- The destination of an outstanding GET lies outside the ranges. -/
def Core.getOutside (c : Core) : Bool :=
  c.rem.any fun r => r.kind == .get && (storeLines r.dst r.len).any fun l => !inRanges c.ranges l

/-- PPOINT_RELEASE (R92; 10 R297-R300): a lent course that a waiting KEYSTONE step has collected is saved here, and one under an
arm stops here, held. -/
def execPpointRelease (step : Nat) (s : State) : Res :=
  match s.running step with
  | none => .next s
  | some p =>
    let l := s.cores p
    if l.isEmpty || !p.msgs.isEmpty || l.any (fun e => (match e.2.ph with | .atPpoint _ => false | _ => true) || !e.2.queue.isEmpty) then
      .next s
    else
      let bad := (s.offEnd p).orElse fun _ => (l.find? fun e => e.2.getOutside).map (·.2)
      let s1 := s.modRun fun g => { g with cores := tblMap g.cores fun _ c => if c.step = step then c.clearLines else c }
      match bad with
      | some c => .next (s1.coreFault c stInstr)
      | none =>
        let s2 := (s1.leave step p).updStp step fun q => { q with gap := 0 }
        if p.lent && s2.noticed p.ctx step then .next (s2.preempt step)
        else if p.lent && s2.armed p.ctx then .next (s2.updStp step fun q => { q with ph := .held })
        else .next s2

end Sys2Proof.Machine
end

