-- ==== Sys2Proof/Machine/Messages.lean ====
section
/-! DEFINITION. Messages between cores of a course, remote operations at their issue, WAIT and POST (03 R85-R90, R95). -/

namespace Sys2Proof.Machine

/-! ### In-course messages (R85-R87) -/

/-- A message enters the path from its source to its target. -/
def State.sendMsg (s : State) (n : Nat) (m : Msg) : State := s.updStp n fun p => { p with msgs := p.msgs ++ [m] }

/-- Bytes of a format M transfer. -/
def lenM (f : FmtM) : Nat := 64 * f.len64.toNat

/-- The transfer's checks inside a course, and then its message. -/
def State.courseMsg (s : State) (k : Nat) (c : Core) (p : Step) (f : FmtM) (ok : Bool) (body : Nat → List Byte → MsgBody) : State :=
  let n := lenM f
  let a := c.addr f.ps (off32 f.soff)
  let b := c.addr f.pt (off32 f.toff)
  if f.len64 == 0 || !ok || !decide (f.tpos.toNat < p.cores.length) then s.coreFault c stInstr
  else if !lsOk a n || !lsOk b n then s.coreFault c stAddrFault
  else (s.sendMsg c.step ⟨c.pos, f.tpos.toNat, body b (c.ls.read a n)⟩).retireIsn k c (2 + f.len64.toNat)

/-! ### Remote operations at issue (R89; 07 R209, R211, R218) -/

/-- No operation holds TXN `t`, and no late response to one that timed out is due under it (07 R210). -/
def State.txnFree (s : State) (t : Nat) : Bool := (tblFind s.fab.txns t).isNone && (tblFind s.fab.spent t).isNone

/-- The TXN a remote operation of core `k` takes: the least of the core's sixteen that is free, else, where operations of an
ended or pre-empted step still hold those, one of the state engine's (DEDUCED, log entry 61). -/
def State.coreTxn (s : State) (k : Nat) : Option Nat :=
  (findUp s.txnFree (16 * k) 16).orElse fun _ => findUp s.txnFree 16384 49152

/-- A transaction of `items` for core `k`. -/
def newTxn (k t : Nat) (p : Step) (op : Nat) (key : W32) (items : List LineItem) (order : Nat) : Txn :=
  { owner := .core k t, ctx := p.ctx, op := op, key := key, comb := if op = 1 then bit key.toNat 31 else decide (0x10 ≤ op ∧ op ≤ 0x13),
    todo := items, sent := [], again := [], shared := [], status := stOk, deadline := none, order := order, rank := p.d.jclass.toNat, epoch := none }

/-- A remote operation is issued: one lien, one transaction (R89). It waits for a number only when every number is held. -/
def State.remote (s : State) (k : Nat) (c : Core) (p : Step) (f : FmtM) (kind : RemKind) (op dst : Nat) (items : List LineItem)
    (cost : Nat) : State :=
  if 16 ≤ c.liens then s.coreFault c stLienLimit
  else match s.coreTxn k with
    | none => s
    | some t =>
      let r : RemOp := { id := t, kind := kind, aop := f.aop.toNat, ip := c.ip, dst := dst, len := lenM f, left := items.length, settled := none }
      let s1 := s.modFab fun g => { g with
        txns := tblIns g.txns t (newTxn k t p op (c.k.getD f.ksel.toNat 0) items g.nextOrder), nextOrder := g.nextOrder + 1 }
      s1.retireIsn k { c with liens := c.liens + 1, rem := c.rem ++ [r] } cost

/-- Hall address P[PT] + TOFF. -/
def Core.hall (c : Core) (f : FmtM) : Nat := c.addr f.pt (off32 f.toff)
/-- Line `i` of a transfer. -/
def lineItem (a i operand : Nat) (pay : List Byte) : LineItem :=
  { line := i, addr := BitVec.ofNat 64 (a + 64 * i), operand := BitVec.ofNat 64 operand, payload := pay }

/-- PUT. -/
def execPut (core : Nat) (f : FmtM) (s : State) : Res :=
  s.coreIsn' core (.put f) fun c p =>
    if f.remote then
      let a := c.addr f.ps (off32 f.soff)
      if f.len64 == 0 then s.coreFault c stInstr
      else if !lsOk a (lenM f) then s.coreFault c stAddrFault
      else
        s.remote core c p f .put 0x02 0 ((List.range f.len64.toNat).map fun i => lineItem (c.hall f) i (2 ^ 64 - 1) (c.ls.read (a + 64 * i) 64))
          (2 + f.len64.toNat)
    else s.courseMsg core c p f true .put

/-- ADDPUT, always within the course. -/
def execAddput (core : Nat) (f : FmtM) (s : State) : Res :=
  s.coreIsn' core (.addput f) fun c p =>
    s.courseMsg core c p f (decide (f.width.toNat < 2)) fun b bs => .add b (f.width == 1) bs

/-- SIGNAL. -/
def execSignal (core : Nat) (f : FmtM) (s : State) : Res :=
  s.coreIsn' core (.signal f) fun c p =>
    if f.remote then s.remote core c p f .signal 0x10 0 [lineItem (c.hall f) 0 f.inc.toNat []] 2
    else if !decide (f.tpos.toNat < p.cores.length) then s.coreFault c stInstr
    else (s.sendMsg c.step ⟨c.pos, f.tpos.toNat, .signal f.sig.toNat f.inc.toNat⟩).retireIsn core c 2

/-- GET. -/
def execGet (core : Nat) (f : FmtM) (s : State) : Res :=
  s.coreIsn' core (.get f) fun c p =>
    let a := c.addr f.ps (off32 f.soff)
    if f.len64 == 0 || decide (64 < f.len64.toNat) then s.coreFault c stInstr
    else if !lsOk a (lenM f) then s.coreFault c stAddrFault
    else s.remote core c p f .get 0x01 a ((List.range f.len64.toNat).map fun i => lineItem (c.hall f) i 0 []) (2 + f.len64.toNat)

/-- ATOM: the operand lies at P[PS] + SOFF, where the old word is written. -/
def execAtom (core : Nat) (f : FmtM) (s : State) : Res :=
  s.coreIsn' core (.atom f) fun c p =>
    let a := c.addr f.ps (off32 f.soff)
    let cas := f.aop == 4
    if 4 < f.aop.toNat then s.coreFault c stInstr
    else if !lsOk a 16 then s.coreFault c stAddrFault
    else
      let item := if cas then lineItem (c.hall f) 0 0 (c.ls.read a 16 ++ List.replicate 48 0)
                  else lineItem (c.hall f) 0 (leNat (c.ls.read a 8)) []
      s.remote core c p f .atom (0x10 + f.aop.toNat) a [item] 2

/-! ### Delivery (R85-R87) -/

/-- The oldest message from `src` to `dst`, and the others. -/
def takeMsg (src dst : Nat) : List Msg → Option (Msg × List Msg)
  | [] => none
  | m :: l => if m.src = src ∧ m.dst = dst then some (m, l) else (takeMsg src dst l).map fun r => (r.1, m :: r.2)

/-- Two's-complement sums of the elements of two byte strings. -/
def addElems (w : Nat) (a b : List Byte) : List Byte :=
  (List.range (a.length / w)).flatMap fun i =>
    leBytes w ((leNat ((a.drop (i * w)).take w) + leNat ((b.drop (i * w)).take w)) % 2 ^ (8 * w))

/-- The message's effect at its target core. -/
def Core.receive (c : Core) : MsgBody → Core
  | .put a bs => { c with ls := c.ls.write a bs }
  | .add a wide bs => { c with ls := c.ls.write a (addElems (if wide then 8 else 4) (c.ls.read a bs.length) bs) }
  | .signal n inc => { c with sg := c.sg.set n (c.sg.getD n 0 + BitVec.ofNat 32 inc) }

/-- Is the body a SIGNAL? -/
def MsgBody.isSignal : MsgBody → Bool
  | .signal _ _ => true
  | _ => false

/-- The oldest message from `src` to `dst` reaches its target, when it is of the kind asked for. -/
def State.deliver (s : State) (n src dst : Nat) (sig : Bool) : State :=
  match s.running n with
  | none => s
  | some p => match takeMsg src dst p.msgs with
    | none => s
    | some (m, l) =>
      if m.body.isSignal != sig then s
      else (s.modRun fun g => { g with
        cores := match p.cores[dst]? with | some k => tblMod g.cores k fun c => c.receive m.body | none => g.cores }).updStp n
          fun q => { q with msgs := l }

/-- MESSAGE_DELIVER. -/
def execMessageDeliver (step src dst : Nat) (s : State) : Res := .next (s.deliver step src dst false)
/-- SIGNAL_APPLY. -/
def execSignalApply (step src dst : Nat) (s : State) : Res := .next (s.deliver step src dst true)

/-! ### WAIT (R88) -/

/-- The condition holds; the core after it. -/
def Core.met (c : Core) (f : FmtW) : Option Core :=
  let i := f.idx.toNat
  match f.sel.toNat with
  | 0 =>
    let v := c.sg.getD i 0
    if f.value.toNat ≤ v.toNat then some { c with sg := c.sg.set i (v - f.value) } else none
  | 1 => if (c.q.getD i 0).toNat ≤ f.value.toNat then some c else none
  | _ => if c.liens ≤ f.value.toNat then some c else none

/-- WAIT. -/
def execWait (core : Nat) (f : FmtW) (s : State) : Res :=
  s.coreIsn' core (.wait f) fun c _ =>
    if f.sel == 3 || f.bound == 0 then s.coreFault c stInstr
    else match c.met f with
      | some c' => s.retireIsn core c' 2
      | none => s.setCore core { c with ph := .waiting f (s.aclk + f.bound.toNat), drift := true }

/-- A core that waits, with its condition and the cycle its bound runs out. -/
def State.waitingCore (s : State) (k : Nat) : Option (Core × FmtW × Nat) :=
  match s.core k with
  | none => none
  | some c => if (s.running c.step).isNone then none else match c.ph with | .waiting f t => some (c, f, t) | _ => none

/-- WAIT_MET. -/
def execWaitMet (core : Nat) (s : State) : Res :=
  match s.waitingCore core with
    | none => .next s
    | some (c, f, _) => match c.met f with
      | some c' => .next (s.retireIsn core c' 2)
      | none => .next s

/-- The step that ended with a bound of core `k` still to fall. -/
def State.lateWait (s : State) (k : Nat) : Option Nat :=
  (tblFirst s.run.expiries fun e _ => e % 2048 == 16 + k).map fun e => e.1 / 2048

/-- WAIT_BOUND_EXPIRY: an arrival in the same cycle wins (11 R332). -/
def execWaitBoundExpiry (core : Nat) (s : State) : Res :=
  match s.waitingCore core with
    | none => .next (((s.lateWait core).map fun n => s.lateExpiry n (16 + core)).getD s)
    | some (c, f, t) => if (c.met f).isNone && s.pastA t then .next (s.coreFault c stWaitBound) else .next s

/-! ### POST (R95) -/

/-- POST: a seventeenth unsent post is discarded and counted. -/
def execPost (core : Nat) (f : FmtPost) (s : State) : Res :=
  s.coreIsn' core (.post f) fun c p =>
    let t := if 16 ≤ p.posts.length then s.updStp c.step fun q => { q with discarded := q.discarded + 1 }
             else s.updStp c.step fun q => { q with posts := q.posts ++ [⟨c.pos, f.event.toNat, f.payload⟩] }
    t.retireIsn core c 4

end Sys2Proof.Machine
end

