-- ==== Sys2Proof/Machine/Sched.lean ====
section
/-! DEFINITION. Admission and dispatch of steps, periodic jobs, token refill, KEYSTONE arms and the time limits of
steps (03 R72, R73, R96, R97, R100; 04 R104, R120; 05 R145, R152, R157, R162; 06 R193; 10). -/

namespace Sys2Proof.Machine

/-! ### Admission -/

/-- Check 4 of R97: ranges and alignments of R96 and R102. A context address range lies in the 48-bit space. -/
def descOk (d : StepDesc) : Bool :=
  let fits := fun (a n : Nat) => decide (a + n ≤ 2 ^ 48)
  decide (d.kind.toNat ≤ 4) && decide (1 ≤ d.progLen.toNat) && decide (d.progLen.toNat ≤ 2048)
  && d.progAddr.toNat % 64 == 0 && d.argAddr.toNat % 64 == 0 && d.argLen.toNat % 64 == 0 && decide (d.argLen.toNat ≤ 65472)
  && decide (1 ≤ d.hbmShare.toNat) && decide (d.hbmShare.toNat ≤ 9600) && decide (d.seqCount.toNat ≤ 512)
  && decide (d.appendMax.toNat ≤ 4194304) && (d.kind != 0 || d.qfmt == 0)
  && ((d.seqCount == 0) == (d.kind == 0)) && (d.periodic == (d.period != 0)) && (d.append == (d.appendMax != 0))
  && (decide (d.kind.toNat ∉ [2, 4]) || d.seqCount == 1)
  && fits d.progAddr.toNat (16 * d.progLen.toNat) && fits d.argAddr.toNat d.argLen.toNat
  && fits d.seqAddr.toNat (32 * d.seqCount.toNat)

/-- The running job that a step of (context, number) belongs to (R288). -/
def State.jobOf (s : State) (ctx num : Nat) : Option (Nat × Job) :=
  tblFirst s.run.jobs fun _ j => j.ctx == ctx && j.num == num && !j.chained

/-- Checks 1 to 5 of R104. -/
def seqForm (s : State) (d : StepDesc) (e : SeqEnt) (earlier : List SeqEnt) : Bool :=
  let ring := d.kind.toNat == 4
  let lim := if d.kind.toNat ≤ 2 then 16 else 4194304
  decide (e.appendN ≤ lim) && decide (e.appendN ≤ d.appendMax.toNat)
  && (if ring then decide (2 ≤ e.ringN) && decide (e.ringN ≤ 64) else e.ringN == 0)
  && (!ring || (decide (e.ringPos < e.ringN) && decide (1 ≤ e.chunkPages) && decide (2 * e.ringN * e.chunkPages ≤ 16384)
        && decide (e.ringTokens ≤ 512 * e.ringN * e.chunkPages) && e.succ != s.fab.ownId && e.pred != s.fab.ownId))
  && (!(e.stream || ring) || e.stall != 0) && !(earlier.any fun o => o.handle == e.handle)

/-- Entries of the pages a sweep covers that the session has: the page's entry for every layer group. -/
def State.sweptEnts (s : State) (x : Session) (d : StepDesc) (e : SeqEnt) : List (Nat × Pte) :=
  let lgn := max 1 (s.sbind x).lgn.toNat
  (x.dir.ents.filter fun a =>
    decide (a.1 / lgn < e.sweepPages) && decide (d.firstLg.toNat ≤ a.1 % lgn)
      && decide (a.1 % lgn < d.firstLg.toNat + d.lgCount.toNat)).map fun a => (a.1, s.readPte x.ctx a.2)
def State.swept (s : State) (d : StepDesc) (e : SeqEnt) : List Pte :=
  match s.sess e.handle with
  | none => []
  | some x => (s.sweptEnts x d e).map (·.2)

/-- Check 7 of R97 for entry `i` (R104, R152, R193): the entry completed, or the status. -/
def State.seqCheck (s : State) (d : StepDesc) (earlier : List SeqEnt) (v : Nat) : Except Nat SeqEnt :=
  let e0 := decSeq v
  if !seqForm s d e0 earlier then .error stSeqField
  else match (s.owned d.ctx.toNat e0.handle).2 with
    | .error st => .error st
    | .ok x =>
      let e := { e0 with t := x.tokens, e := if e0.ringN = 0 then x.tokens + e0.appendN else e0.ringTokens }
      let ps := s.swept d e
      match firstBad
        [(x.binding == d.binding.toNat, stBinding), (x.state != .lost, stLost),
         (!x.incoming && (x.state == .idle || x.state == .reviving || (x.state == .active && !x.parkPend)), stSessionState),
         (!ps.any (·.lost), stLost), (e.expect == 0 || e.expect == x.tokens, stSeqStale),
         (decide (x.tokens + e.appendN ≤ 4194304), stSeqField),
         (e.stream || ps.all (fun p => p.lost || p.landed), stNotResident)] with
      | some st => .error st
      | none => .ok e

/-- Check 7 over the whole table, in ascending index. -/
def State.seqChecks (s : State) (d : StepDesc) (i : Nat) (acc : List SeqEnt) : Nat → Except Nat (List SeqEnt)
  | 0 => .ok acc
  | n + 1 =>
    match s.seqCheck d acc (s.cnum d.ctx.toNat (d.seqAddr.toNat + 32 * i) 32) with
    | .error st => .error st
    | .ok e => s.seqChecks d (i + 1) (acc ++ [e]) n

/-- Formats of the pages a sequence sweeps and appends to (02 R57): those of its entries, and RES_FMT where its
reservation opens pages. -/
def State.seqFmts (s : State) (d : StepDesc) (e : SeqEnt) : List Nat :=
  (s.swept d e).map (·.fmt) ++ (if e.appendN = 0 then [] else
    match s.sess e.handle with
    | none => []
    | some x =>
      let b := s.sbind x
      (List.range d.lgCount.toNat).flatMap fun g => e.resPages.map fun j =>
        let c := x.dir.ent (e.pageAt j * b.lgn.toNat + (d.firstLg.toNat + g))
        if c.valid then c.fmt else b.resFmt.toNat)

/-- The existing pages of first append slots take appends (R117). -/
def State.firstSlotOk (s : State) (d : StepDesc) (e : SeqEnt) : Bool :=
  e.appendN == 0 || match s.sess e.handle with
    | none => true
    | some x =>
      (List.range d.lgCount.toNat).all fun g =>
        let c := x.dir.ent ((e.slotAt 0).1 * (s.sbind x).lgn.toNat + (d.firstLg.toNat + g))
        !c.valid || isAppendFmt c.fmt

/-- Check 8 of R97. QFMT is checked here alone: a reserved code fails with no page named (02 R64). -/
def State.pairCheck (s : State) (d : StepDesc) (seqs : List SeqEnt) : Option Nat :=
  let cv := bindCv (s.bind d.ctx.toNat d.binding.toNat)
  firstBad
    [((d.kind == 0 || d.qfmt != 0) && seqs.all fun e => (s.seqFmts d e).all fun f => (compPair d.qfmt.toNat f).isSome, stFormatPair),
     (!(cv == 0 && seqs.any fun e => (s.swept d e).any fun p => p.fmt == 15), stLatentPk3),
     (seqs.all (s.firstSlotOk d), stAppendFormat)]

/-- A page is opened by the reservation (R145). -/
def State.openPage (s : State) (h n : Nat) (x : Session) (b : BindRec) : Option State :=
  match s.dirNeed x.ctx x.homeDie n x.dir with
  | none => none
  | some (d, t) =>
    let f := b.resFmt.toNat
    (t.unitAlloc x.ctx x.homeDie (.pages (footprint b f))).map fun (fr, u) =>
      u.setSess h { x with dir := d.setEnt n { pteNone with
        valid := true, dirty := true, fmt := f, tier := 1, frame := fr, gen := (d.ent n).gen + 1,
        pinned := decide (n / max 1 b.lgn.toNat ∈ x.pins), crc := crc32c (List.replicate (pageBytes b f) 0) } }

/-- The pages of a reservation: those without an entry are opened; every page is noted for R147. -/
def State.reservePages (n : Nat) (h : Nat) (ns : List Nat) (s : State) : Option State :=
  ns.foldl (fun (o : Option State) k =>
    o.bind fun t => match t.sess h with
      | none => none
      | some x =>
        let c := x.dir.ent k
        if c.valid then some (t.updStp n fun p => { p with undo := p.undo ++ [⟨h, k, false, c.crc, c.gen⟩] })
        else (t.openPage h k x (t.sbind x)).map fun u => u.updStp n fun p => { p with undo := p.undo ++ [⟨h, k, true, 0, 0⟩] }) (some s)

/-- Check 9 of R97 for one sequence (R145). -/
def State.reserve1 (s : State) (n : Nat) (d : StepDesc) (e : SeqEnt) : Except Nat State :=
  if e.appendN = 0 || d.lgCount == 0 then .ok s
  else match s.sess e.handle with
    | none => .error stNoSession
    | some x =>
      let b := s.sbind x
      let gs := span d.firstLg.toNat d.lgCount.toNat
      if gs.any (fun g => x.committed b.lgn.toNat g != e.t
          || x.res.any fun r => decide (r.firstLg ≤ g) && decide (g < r.firstLg + r.lgCount)) then .error stAppendOverlap
      else if 4 ≤ x.res.length then .error stBusy
      else
        let s1 := s.setSess e.handle { x with res := x.res ++ [⟨n, e.appendN, d.lgCount.toNat, d.firstLg.toNat⟩] }
        let ns := gs.flatMap fun g => e.resPages.map fun j => e.pageAt j * b.lgn.toNat + g
        match State.reservePages n e.handle ns s1 with
        | none => .error stNoFrame
        | some t => .ok t

/-- Two receive buffers are taken for a ring step (04 R124). -/
def State.ringBuffers (s : State) (n : Nat) (d : StepDesc) (e : SeqEnt) : Except Nat State :=
  let die := (((s.sess e.handle).map (·.homeDie)).getD 0)
  match s.unitsAlloc d.ctx.toNat die (.ring (maxFootprint (s.bind d.ctx.toNat d.binding.toNat))) (2 * e.blockPages) with
  | none => .error stNoFrame
  | some (fs, t) => .ok (t.updStp n fun p => { p with ring := some ⟨[], 0, 0, 0, fs⟩ })

/-- Check 9 of R97: every reservation succeeds or none is kept. -/
def State.reserveAll (s : State) (n : Nat) (d : StepDesc) (seqs : List SeqEnt) : Except Nat State :=
  seqs.foldl (fun (r : Except Nat State) e => r.bind fun t =>
    (t.reserve1 n d e).bind fun u => if e.ringN = 0 then .ok u else u.ringBuffers n d e) (.ok s)

/-- The step could be lent reserve quads at some time (R296). -/
def State.lendable (s : State) (d : StepDesc) (seqs : List SeqEnt) : Bool :=
  let gap := s.obj 0x5002 4 d.ctx.toNat
  gap != 0 && d.jclass != 0 && !d.periodic && d.kind.toNat != 4 && !seqs.any (·.stream) && decide (d.ppGap.toNat ≤ gap)

/-- GB/s per die of a context in the SEALED wheel (12 R361). -/
def State.wheelShare (s : State) (c : Nat) : Nat :=
  let len := s.obj 0x7006 1
  7872 * ((List.range len).filter fun k => s.obj 0x7006 2 k == c).length / max 1 len

/-- Check 5 of R291 (12 R361 in SEALED). -/
def State.shareOk (s : State) (d : StepDesc) (seqs : List SeqEnt) : Bool :=
  let c := d.ctx.toNat
  let qs := if d.jclass = 0 then s.reserveQuads c else s.eligible c ++ (if s.lendable d seqs then s.reserveQuads c else [])
  let dies := qs.map (· / 64) ++ s.homeDies seqs
  let sh := d.hbmShare.toNat
  if s.profile = 2 then decide (sh ≤ s.wheelShare c)
  else (List.range 4).all fun k => !decide (k ∈ dies) || decide (sh ≤ (if d.jclass = 0 then s.obj 0x5005 2 k else s.obj 0x5005 1 k))

/-- Quads of the context's eligible set that are free and on dies that take new quads. -/
def State.freeEligible (s : State) (c : Nat) : List Nat :=
  let h := s.heldQuads
  (s.eligible c).filter fun q => !decide (q ∈ h) && !s.dieClosed (q / 64) && !s.dieThrottled (q / 64)

/-- The die R290 prefers. -/
def State.prefDie (s : State) (seqs : List SeqEnt) : Option Nat :=
  seqs.head?.map fun e => ((s.sess e.handle).map (·.homeDie)).getD 0

/-- The HBM share is free on every die of a list (R292, R293); the wheel of SEALED takes the place of shares. -/
def State.shareFree (s : State) (dies : List Nat) (sh : Nat) : Bool :=
  s.profile == 2 || (List.range 4).all fun k => !decide (k ∈ dies) || decide (s.hbmCharged k + sh ≤ s.obj 0x5005 1 k)

/-- Dies a step is charged on with the quads `qs`. -/
def State.chargedDies (s : State) (seqs : List SeqEnt) (qs : List Nat) : List Nat :=
  (List.range 4).filter fun k => decide (k ∈ qs.map (· / 64)) || decide (k ∈ s.homeDies seqs)

/-- Check 10 of R97 (R291; 15 R434). -/
def State.schedCheck (s : State) (sq : Nat) (d : StepDesc) (seqs : List SeqEnt) (job : Option (Nat × Job)) : Option Nat :=
  let c := d.ctx.toNat
  let q := descQuads d
  let wcet := d.wcet.toNat
  let ks := d.jclass == 0
  let have_ := if ks then (s.reserveQuads c).length else (s.eligible c).length
  let whole := (maskBits (if ks then s.reserve c else s.grant c) 256).filter fun k => ks || !bit (s.reserve c) k
  firstBad
    [(ks == (sq == 64), stJobClass),
     (match job with
      | none => true
      | some (_, j) => j.cls == d.jclass.toNat && j.sq == sq && j.periodic == d.periodic
          && (!j.periodic || (j.period == d.period.toNat && j.quads == q && j.share == d.hbmShare.toNat && j.wholeCl == d.wholeCl)),
      stJobConflict),
     (decide (1 ≤ wcet) && decide (d.ppGap.toNat ≤ wcet) && (!d.periodic || d.jclass == 1 || d.jclass == 2)
        && (!d.periodic || (decide (wcet + 1024 ≤ 2 * d.period.toNat)
              && (d.deadline == 0 || decide (wcet + 1024 ≤ 2 * d.deadline.toNat)))), stTiming),
     (decide (q ≤ have_), if q ≤ whole.length then stFenced else stQuadGrant),
     (!s.capped || ks || decide (q + s.allReserve + s.periodicQuads ((job.map (·.1)).getD s.run.nextJob) ≤ s.quadLimit), stPowerCap),
     (s.shareOk d seqs, stHbmShare),
     (!ks || decide (tblGet 0 s.run.ksUsed c < s.obj 0x5006 1 c), stKeystoneQuota),
     (!d.periodic || job.isSome || (match allot (s.freeEligible c) (s.prefDie seqs) q d.wholeCl with
        | some qs => s.shareFree (s.chargedDies seqs qs) d.hbmShare.toNat
        | none => false), stBusy)]

/-- Check 6 of R97 (R157, R162): the adapter's version pinned now for the job, if any. -/
def State.adapterCheck (s : State) (d : StepDesc) (job : Option (Nat × Job)) : Except Nat (Option Nat) :=
  let c := d.ctx.toNat
  let a := d.adapter.toNat
  if !d.adapterEn then .ok none
  else match tblFind s.ses.adapters (adKey c a) with
    | none => .error stAdapter
    | some x =>
      if !s.adapterIn c a || x.binding != d.binding.toNat then .error stAdapter
      else if (match job with | some (_, j) => j.pins.any fun v => v.1 == a | none => false) then .ok none
      else match x.cur with
        | some v => .ok (some v.version)
        | none => .error stAdapter

/-- Checks 1 to 6 of R97, as far as they need no session. `ctxOk` is check 2. -/
def State.fieldChecks (s : State) (d : StepDesc) (ctxOk : Bool) : Option Nat :=
  let b := s.bind d.ctx.toNat d.binding.toNat
  firstBad
    [(d.dver == 1, stVersion), (ctxOk, stDescField), (!d.wholeCl || descQuads d % 4 == 0, stCoreset), (descOk d, stDescField),
     (d.kind == 0 || (tblFind s.ses.binds (d.ctx.toNat * 256 + d.binding.toNat)).isSome, stBinding),
     (d.kind == 0 || decide (d.firstLg.toNat + d.lgCount.toNat ≤ b.lgn.toNat), stLgRange)]

/-- The whole step is admitted (R152, R193): pins, states and holds of its sessions. -/
def State.pinSessions (s : State) (seqs : List SeqEnt) : State :=
  seqs.foldl (fun t e =>
    let u := t.unhold e.handle
    u.updSess e.handle fun x =>
      let y := { x with stepPins := x.stepPins + 1, lastChange := u.tick
                        chunks := if e.ringN = 0 then x.chunks else some (e.chunkPages, e.ringPos, e.ringN) }
      if x.state = .idle then y.goto u.tick .active else y) s

/-- Sequence and entry index of the pages of a sweep that are not resident now (03 R84, R100). -/
def State.absentPages (s : State) (d : StepDesc) (seqs : List SeqEnt) : List (Nat × Nat) :=
  seqs.zipIdx.flatMap fun (e, i) => match s.sess e.handle with
    | none => []
    | some x => (s.sweptEnts x d e).filterMap fun a => if a.2.landed then none else some (i, a.1)

/-- The doorbell write of the entry last taken from the KEYSTONE ring (R304). -/
def State.doorOf (s : State) (sq : Nat) : Option Nat :=
  if sq = 64 then tblFind s.site.ksDoors ((s.site.ks.sqHead + 511) % 512) else none

/-- Admission of a descriptor taken from ring `sq` (R97): the state with the step, or the status and whether check 9
gave it. -/
def State.admission (s : State) (sq : Nat) (d : StepDesc) (ctxOk : Bool) : Except (Nat × Bool) State :=
  let c := d.ctx.toNat
  let job := s.jobOf c d.job.toNat
  let n := s.run.nextStep
  match s.fieldChecks d ctxOk with
  | some st => .error (st, false)
  | none =>
    match s.adapterCheck d job with
    | .error st => .error (st, false)
    | .ok pin =>
      match s.seqChecks d 0 [] d.seqCount.toNat with
      | .error st => .error (st, false)
      | .ok seqs =>
        match s.pairCheck d seqs with
        | some st => .error (st, false)
        | none =>
          let j := (job.map (·.1)).getD s.run.nextJob
          let jr : Job := (job.map (·.2)).getD
            { ctx := c, num := d.job.toNat, cls := d.jclass.toNat, sq := sq, cq := d.cq.toNat, period := d.period.toNat,
              quads := descQuads d, share := d.hbmShare.toNat, wholeCl := d.wholeCl, periodic := d.periodic, chained := false,
              pins := [], t0 := s.tick, rel := 1, missed := 0, resQuads := [], resDies := [], nsteps := 0 }
          let p : Step :=
            { d := d, sq := sq, jobId := j, seqs := seqs, ph := .waiting,
              release := if d.periodic then jr.t0 + jr.nsteps * jr.period else s.tick, order := s.run.nextOrder, quads := [],
              lent := false, dies := [], cores := [], started := 0, executed := 0, gap := 0, posts := [], discarded := 0, msgs := [],
              sync := [], sparseBad := false, appends := [], undo := [], saved := [], ring := none,
              stall := [], cost := quadCost (descQuads d) d.wcet.toNat, absent := s.absentPages d seqs, door := s.doorOf sq,
              head := s.sqHeadOf sq }
          match (s.setStp n p).reserveAll n d seqs with
          | .error st => .error (st, true)
          | .ok t =>
            match s.schedCheck sq d seqs job with
            | some st => .error (st, false)
            | none =>
              let jr1 := { jr with nsteps := jr.nsteps + 1, missed := 0, chained := d.chainEnd,
                                   pins := match pin with | some v => (d.adapter.toNat, v, s.dev.nclk) :: jr.pins | none => jr.pins }
              let t1 := t.modRun fun g => { g with
                nextStep := n + 1, nextOrder := g.nextOrder + 1, nextJob := if job.isSome then g.nextJob else g.nextJob + 1
                jobs := tblIns g.jobs j jr1
                ksUsed := if d.jclass = 0 then tblIns g.ksUsed c (tblGet 0 g.ksUsed c + 1) else g.ksUsed }
              let t2 := match pin with | some v => t1.adPin c d.adapter.toNat 1 v | none => t1
              .ok (t2.pinSessions seqs)

/-- The sessions a step names are swept before its checks (06 R191). -/
def State.sweepNamed (s : State) (d : StepDesc) : State :=
  (List.range (min d.seqCount.toNat 512)).foldl (fun t i =>
    t.sweepSess (bits (t.cnum d.ctx.toNat (d.seqAddr.toNat + 32 * i) 3) 23 0)) s

/-- STEP_DESCRIPTOR (R97, R286; 11 R324, R325): taken, checked, admitted or rejected with its record. -/
def execStepDescriptor (sq : Nat) (d : StepDesc) (s : State) : Res :=
  let e := Entry.step d
  if !s.mayTake sq e then .next s
  else
    let q := s.target sq e
    let ctx := s.qctx q
    let t := s.takeEntry sq q
    let reject := fun (u : State) (st : Nat) => Host.Outcome.next (u.stepEntry sq q ctx d st 0 0 none (u.sqHeadOf sq))
    if d.dver != 1 then reject t stVersion
    else if !s.cqOk sq e then reject t stQueue
    else
      let u := t.sweepNamed d
      match u.admission sq d (u.ctxOk sq d.ctx.toNat) with
      | .error (st, nine) => reject (if nine then u.count 0x3108 1 else u) st
      | .ok v => .next (v.ringStart s.run.nextStep)

/-! ### Dispatch -/

/-- A store with its written lines cleared and `bs` at offset 0 (R73). -/
def storeInit (bs : List Byte) : Store := ⟨memWrite [] 0 bs, (List.range (ceilDiv bs.length 256)).map fun i => (i, ())⟩

/-- The core at position `pos` of a course at its start (R71-R73). -/
def coreInit (n pos : Nat) (d : StepDesc) (prog : List (BitVec 128)) (args : List Byte) (t : Nat) : Core :=
  { step := n, pos := pos, p := [d.base0, d.base1, d.base2, d.base3] ++ List.replicate 11 0 ++ [BitVec.ofNat 64 pos],
    c := List.replicate 8 0, k := List.replicate 4 0, sg := List.replicate 8 0, q := List.replicate 8 0,
    tags := List.replicate 8 none, liens := 0, ip := 0, drift := false, srOrd := 0, ph := .run, busyUntil := t, istore := prog, ahead := [],
    ls := storeInit args, cs := ⟨[], []⟩, queue := [], arm := none, rem := [], nsync := 0, seg := [] }

/-- Cycles until the first 64 instructions are present (R72). -/
def copyCycles (d : StepDesc) : Nat := ceilDiv (min 64 d.progLen.toNat) 16

/-- The program a step runs (R72). -/
def State.program (s : State) (d : StepDesc) : List (BitVec 128) :=
  (List.range d.progLen.toNat).map fun i => BitVec.ofNat 128 (s.cnum d.ctx.toNat (d.progAddr.toNat + 16 * i) 16)

/-- The step is dispatched onto quads `qs`, its program copy beginning at cycle `t0` of ACLK (R72, R73, R290). A failed line of its program
or arguments ends it, at its first instruction (16 R444). -/
def State.launchAt (s : State) (n : Nat) (p : Step) (qs : List Nat) (lent : Bool) (t0 : Nat) : State :=
  let qs := sortNat qs
  let cs := qs.flatMap fun q => span (4 * q) 4
  let prog := s.program p.d
  let args := s.cread p.ctx p.d.argAddr.toNat p.d.argLen.toNat
  let t := t0 + copyCycles p.d
  let dies := s.chargedDies p.seqs qs
  let s1 := s.modRun fun g => { g with
    cores := cs.zipIdx.foldl (fun m (k, pos) => tblIns m k (coreInit n pos p.d prog args t)) g.cores
    chosen := if g.chosen = some n then none else g.chosen
    jobs := if p.d.periodic then tblMod g.jobs p.jobId fun j =>
        if j.resQuads.isEmpty then { j with resQuads := qs, resDies := dies } else j
      else g.jobs }
  let s2 := s1.setStp n { p with ph := .running, quads := qs, lent := lent, dies := dies, cores := cs, started := t, sent := s.aclk }
  match (s.cbad p.ctx p.d.progAddr.toNat (16 * p.d.progLen.toNat)).orElse fun _ => s.cbad p.ctx p.d.argAddr.toNat p.d.argLen.toNat with
  | some l => (s2.ueRead l p.ctx none).stepFail n 0 0 stHbmUe
  | none => s2

/-- Dispatch with the copy beginning now. -/
def State.launch (s : State) (n : Nat) (p : Step) (qs : List Nat) (lent : Bool) : State := s.launchAt n p qs lent s.aclk

/-- The scheduler dispatches steps of this class and context now (13 R373, R381; 14 R401; 15 R424). -/
def State.mayDispatch (s : State) (p : Step) : Bool :=
  let ck := ((tblFind s.cks.tbl p.ctx).map (·.state)).getD 0
  s.oper && !s.quiescing && ck != 4 && (ck != 1 || p.ks) && p.waits && s.jobReady p && decide (p.release ≤ s.tick)

/-- The step may be lent reserve quads now (R296). -/
def State.mayLend (s : State) (p : Step) : Bool :=
  s.lendable p.d p.seqs && (s.ksWaiting p.ctx).isEmpty && !s.armed p.ctx

/-- The quads in use after a dispatch that adds `n` to them do not exceed QUAD_LIMIT (15 R433). -/
def State.underCap (s : State) (n : Nat) : Bool := !s.capped || decide (s.quadsInUse + n ≤ s.quadLimit)

/-- Quads outside `avoid` for a step that is not KEYSTONE and whether they are lent (R290, R292, R296; 15 R433). -/
def State.place1 (s : State) (p : Step) (avoid : List Nat) : Option (List Nat × Bool) :=
  let q := descQuads p.d
  let w := p.d.wholeCl
  let pref := s.prefDie p.seqs
  let ok := fun (qs : List Nat) (lent : Bool) =>
    s.shareFree (s.chargedDies p.seqs qs) p.d.hbmShare.toNat && s.underCap (if lent then 0 else q)
  match allot ((s.freeEligible p.ctx).filter fun k => !decide (k ∈ avoid)) pref q w with
  | some qs => if ok qs false then some (qs, false) else none
  | none =>
    if s.mayLend p && (allot (s.freeEligible p.ctx) pref q w).isNone then
      match allot ((s.freeReserve p.ctx).filter fun k => !s.dieClosed (k / 64) && !s.dieThrottled (k / 64)) pref q w with
      | some qs => if ok qs true then some (qs, true) else none
      | none => none
    else none

/-- Waiting steps that fair queueing may choose, one for each context: the oldest of the highest class (R287, R307). -/
def State.candidates (s : State) : List (Nat × Step) :=
  let ready := s.run.steps.filter fun e => !e.2.ks && !e.2.d.periodic && s.mayDispatch e.2 && s.mayStart e.2.ctx 0 false && s.slotOk e.2.ctx
  ready.filter fun e => !ready.any fun f => f.2.ctx == e.2.ctx
    && (decide (f.2.d.jclass.toNat < e.2.d.jclass.toNat) || (f.2.d.jclass == e.2.d.jclass && decide (f.2.order < e.2.order)))

/-- Is `a` before `b` in the order of finish tags at the step queue (R307)? -/
def State.before (s : State) (a b : Nat × Step) : Bool :=
  decide (s.fin a.2.ctx 0 < s.fin b.2.ctx 0) || (s.fin a.2.ctx 0 == s.fin b.2.ctx 0 && decide (a.2.ctx < b.2.ctx))

/-- The step chosen at the step queue: the choice stands until it is dispatched or ends (R307). In SEALED, where a slot serves its context
alone, it is made anew (12 R361; DESIGN CHOICE, log entry 66). -/
def State.chosenStep (s : State) : Option (Nat × Step) :=
  match (if s.profile = 2 then none else s.run.chosen).bind fun n => (s.stp n).map fun p => (n, p) with
  | some e => some e
  | none => (s.candidates.find? fun e => !s.candidates.any fun f => s.before f e)

/-- The first candidate after a blocked choice that can be allotted outside the choice's eligible set. -/
def State.passing (s : State) (blocked : Step) : Option (Nat × List Nat × Bool) :=
  let out := s.eligible blocked.ctx
  let ok := fun (e : Nat × Step) => (s.place1 e.2 out).map fun r => (e.1, r)
  let l := s.candidates.filter fun e => e.2.ctx != blocked.ctx
  (l.find? fun e => (ok e).isSome && !l.any fun f => s.before f e && (ok f).isSome).bind ok

/-- Dispatch of an ordinary step (R307): with its tokens and tags. -/
def State.dispatchFq (s : State) (n : Nat) (p : Step) (qs : List Nat) (lent : Bool) : State :=
  (s.fqStart 0 p.ctx 0 p.cost).launch n p qs lent

/-- Dispatch of a KEYSTONE step (R299, R300, R309): charged, never waiting for tokens, once every course it has collected has
stopped at its point. Courses that are still held are saved now, and its program copy follows the last switch. -/
def State.dispatchKs (s : State) (n : Nat) (p : Step) : State :=
  match (s.ksPlan p.ctx).find? fun k => k.step == n with
  | none => s
  | some k => match k.takes with
    | none => s
    | some qs =>
      if k.from_.any fun e => e.2.ph != .held then s
      else
        let s1 := s.each (k.from_.map (·.1)) State.preempt
        let done := s1.run.steps.filterMap fun e =>
          if e.2.ph == .preempted && e.2.quads.any fun q => decide (q ∈ qs) then some e.2.switched else none
        let s2 := ((s1.fqStart 0 p.ctx 0 p.cost).launchAt n p qs false (done.foldl max s1.aclk)).count 0x5007 1
        (s2.modRun fun g => { g with
          arms := tblMod g.arms p.ctx fun a => { a with used := true }
          steps := tblMap g.steps fun _ e =>
            if e.ph == .preempted && e.quads.any (fun q => decide (q ∈ qs)) then { e with taker := some n } else e }).resume p.ctx false

/-- The step at the step queue whose eligible quads no other step may take (R307). -/
def State.blocked (s : State) (n : Nat) : List Nat :=
  match s.run.chosen.bind fun m => (s.stp m).map fun p => (m, p) with
  | some (m, p) => if m != n && s.profile != 2 then s.eligible p.ctx else []
  | none => []

/-- A later periodic step may start on its reservation: its dies take new steps (15 R429; 14 R409), the cap holds (15 R433), and its share is
free on dies that the reservation does not charge (R292, R293). -/
def State.shareMore (s : State) (p : Step) (own : List Nat) : Bool :=
  own.all (fun q => !s.dieThrottled (q / 64) && !s.dieClosed (q / 64)) && s.underCap 0 &&
  s.shareFree ((s.chargedDies p.seqs own).filter fun d => !s.reserved p d) p.d.hbmShare.toNat

/-- STEP_DISPATCH (R290, R292, R294, R299, R307). -/
def execStepDispatch (step : Nat) (s : State) : Res :=
  match s.stp step with
  | none => .next s
  | some p =>
    if !s.mayDispatch p || !s.slotOk p.ctx then .next s
    else if p.ks then .next (s.dispatchKs step p)
    else if p.d.periodic then
      let own := ((tblFind s.run.jobs p.jobId).map (·.resQuads)).getD []
      if !own.isEmpty then
        if s.shareMore p own then .next ((s.charge p.ctx 0 p.cost).launch step p own false) else .next s
      else match s.place1 p (s.blocked step) with
        | some (qs, false) => .next ((s.charge p.ctx 0 p.cost).launch step p qs false)
        | _ => .next s
    else match s.chosenStep with
      | none => .next s
      | some (m, b) =>
        if m = step then
          match s.place1 p [] with
          | some (qs, lent) => .next (s.dispatchFq step p qs lent)
          | none => .next (s.modRun fun g => { g with chosen := some step })
        else if s.mayDispatch b && (s.place1 b []).isSome then .next s
        else match s.passing b with
          | some (k, qs, lent) =>
            if k = step then .next ((s.modRun fun g => { g with chosen := some m }).dispatchFq step p qs lent) else .next s
          | none => .next s

/-! ### Periodic jobs, refill and arms -/

/-- PERIODIC_RELEASE (R294): the job's next release falls; the second with no step waiting ends the reservation. -/
def execPeriodicRelease (ctx job : Nat) (s : State) : Res :=
  match s.jobOf ctx job with
  | none => .next s
  | some (j, b) =>
    if !s.live || !b.periodic || s.tick < b.t0 + b.rel * b.period then .next s
    else
      let missed := if (s.jobWaiting j).isEmpty then b.missed + 1 else 0
      let s1 := s.modRun fun g => { g with jobs := tblIns g.jobs j { b with rel := b.rel + 1, missed := missed } }
      if missed < 2 then .next s1
      else .next ((s1.endJob j).otherEvent b.cq ctx 0x0012 stPeriodLapse b.num 0)

/-- TOKEN_REFILL (R307, R308): at a multiple of 62,500 ticks. -/
def execTokenRefill (s : State) : Res :=
  let k := s.tick / 62500
  if !s.live || k ≤ s.run.refill then .next s
  else
    let keys := (List.range 256).flatMap fun c => (List.range 5).map fun r => (c, r)
    let tbl := fun (sub : Nat) => keys.foldl (fun m (c, r) => tblPut 0 m (c * 8 + r) (s.obj 0x5004 sub c r)) ([] : Table Nat)
    let rate := tbl 1
    let burst := tbl 2
    let tok := s.ctxs.foldl (fun m c => (List.range 5).foldl (fun m r =>
      let a := c * 8 + r
      tblPut 0 m a (min ((tblGet 0 burst a : Nat) : Int) (tblGet 0 m a + ((tblGet 0 rate a : Nat) : Int)))) m) s.run.tokens
    .next (s.modRun fun g => { g with
      rate := rate, burst := burst, tokens := tok, refill := k, ksUsed := []
      weight := (List.range 256).foldl (fun m c => tblPut 1 m c (s.obj 0x5003 1 c)) [] })

/-- An arm ends without a KEYSTONE step dispatched: ARM_LAPSES. -/
def State.armEnd (s : State) (c : Nat) : State :=
  match tblFind s.run.arms c with
  | none => s
  | some a =>
    let s1 := s.modRun fun g => { g with arms := tblDel g.arms c }
    (if a.used then s1 else s1.count 0x5007 5).resume c false

/-- KEYSTONE_ARM (R298). -/
def execKeystoneArm (sq : Nat) (h : CmdHdr) (hold : BitVec 20) (s : State) : Res :=
  s.ringCmd sq h (.keystoneArm hold) [] fun t =>
    let c := h.ctx.toNat
    if hold.toNat = 0 || 1000000 < hold.toNat then .done stTiming 0 t
    else .done stOk 0 (t.modRun fun g => { g with arms := tblIns g.arms c ⟨t.tick + hold.toNat * ticksPerUs, false⟩ })

/-- KEYSTONE_DISARM (R298). -/
def execKeystoneDisarm (sq : Nat) (h : CmdHdr) (s : State) : Res :=
  s.ringCmd sq h .keystoneDisarm [] fun t =>
    .done stOk 0 (t.armEnd h.ctx.toNat)

/-- KEYSTONE_ARM_EXPIRY (R298). -/
def execKeystoneArmExpiry (ctx : Nat) (s : State) : Res :=
  match tblFind s.run.arms ctx with
  | some a => if s.live && s.past a.till then .next (s.armEnd ctx) else .next s
  | none => .next s

/-! ### Time limits of a step

An expiry on a step that has ended is counted in LATE_SETTLE (11 R332). -/

/-- A count of whole cycles of ACLK reached its limit in an earlier cycle of NCLK (11 R332). -/
def State.pastCount (s : State) (limit n : Nat) : Bool := decide (limit < n) || (decide (limit ≤ n) && s.dev.nclk % 2 == 1)

/-- Does a dispatched step run, held and pre-empted steps included? -/
def Step.live (p : Step) : Bool := !p.waits

/-- WCET_OVERRUN (R100). -/
def execWcetOverrun (step : Nat) (s : State) : Res :=
  match s.stp step with
  | some p =>
    if s.live && p.ph == .running && s.pastCount p.d.wcet.toNat p.executed then .next (s.endStep step stWcetOverrun none) else .next s
  | none => .next (s.lateExpiry step 1)

/-- STEP_DEADLINE (R295): waiting steps included. -/
def execStepDeadline (step : Nat) (s : State) : Res :=
  match s.stp step with
  | some p =>
    if s.live && p.d.deadline != 0 && s.past (p.release + p.d.deadline.toNat) then .next (s.endStep step stDeadline none) else .next s
  | none => .next (s.lateExpiry step 0)

/-- PP_GAP_EXPIRY (R297). -/
def execPpGapExpiry (step : Nat) (s : State) : Res :=
  match s.stp step with
  | some p =>
    if s.live && p.lent && p.ph == .running && s.pastCount p.d.ppGap.toNat p.gap then .next (s.endStep step stPpGap none) else .next s
  | none => .next (s.lateExpiry step 2)

end Sys2Proof.Machine
end

