-- ==== Sys2Proof/Machine/Line.lean ====
section
/-! DEFINITION. The line fabric (07): ports, regions, line operations at the source and at the target, and the gateway
function's part in them (08 R255, R256). -/

namespace Sys2Proof.Machine

/-! ### Ports (R200-R204, 15 R426) -/

/-- Records of code 0x000E. -/
def State.portRec (s : State) (port sev : Nat) (shared : Bool) : State :=
  s.record { sev := sev, code := 0x000E, source := 0x09, unit := port, shared := shared }

/-- The port retrains on the lanes it has. -/
def State.portRetrain (s : State) (p lanes : Nat) : State :=
  (s.portRec p 0 true).setPort p { s.port p with state := 1, lanes := lanes, retries := 0 }

/-- The port goes down: its packets are lost (R202). -/
def State.portDown (s : State) (p : Nat) : State := (s.portRec p 1 true).setPort p { portReset with state := 0 }

/-- The frames of a replay buffer that ACK does not cover. -/
def ackReplay (ack : Nat) (l : List LinkFrame) : List LinkFrame :=
  l.filter fun f => !decide ((ack + 4096 - f.seq.toNat) % 4096 < 2048)

/-- A kept frame as it is sent again: it acknowledges what has come since (R202; DESIGN CHOICE, log entry 19). -/
def Port.again (x : Port) (f : LinkFrame) : LinkFrame := sealFrame { f with ack := x.ackNow, retry := x.retryOut }

/-- A port that retrained gets its initial credits back once its replay buffer has drained and so has the peer's (R204). R204 does not say
how the device knows that: it takes it that the peer's is empty when it owes the peer neither an acknowledgment nor a resend (DESIGN
CHOICE, log entry 19). -/
def Port.refresh (x : Port) : Port :=
  if x.fresh && x.replay.isEmpty && !x.retryOut && x.ackSent == x.rxSeq then
    { x with fresh := false, credits := vcBuffers, owed := [0, 0, 0, 0] }
  else x

/-- What an accepted frame does to its port: the frames it acknowledges leave the replay buffer, the credits it returns are added, its
flits go to the receive buffers (R202-R204). -/
def Port.accept (x : Port) (f : LinkFrame) (t : Nat) : Port :=
  let rest := ackReplay f.ack.toNat x.replay
  let c := f.cvc.toNat
  Port.refresh ({ x with
    rxSeq := (x.rxSeq + 1) % 4096, replay := rest, credits := x.credits.set c (x.credits.getD c 0 + f.credits.toNat),
    retries := if rest.head? == x.replay.head? then x.retries else 0 }.fill f.flits.toNat t)

/-- An accepted frame: what it acknowledges and returns, and a resend where it asks for one; at the sixteenth of one frame the port
retrains. -/
def State.frameIn (s : State) (p : Nat) (f : LinkFrame) : State :=
  let y := (s.port p).accept f s.tick
  let s1 := s.setPort p y
  if !f.retry || y.replay.isEmpty then s1.drainQ
  else
    let s2 := ((s1.emitFrames p (y.replay.map y.again)).count 0x4003 1 p).portRec p 0 false
    let n := y.retries + 1
    if 16 ≤ n then s2.portRetrain p y.lanes else (s2.setPort p { y with retries := n, ackDue := false, ackSent := y.rxSeq }).drainQ

/-- Ports that retrained and owe nothing more get their initial credits back, and what waited for them leaves (R204). -/
def State.refreshPorts (s : State) : State :=
  if s.fab.ports.any (·.fresh) then (s.modFab fun g => { g with ports := g.ports.map fun x => if x.up then x.refresh else x }).drainQ
  else s

/-- Codewords corrected, and not, that the reception of a frame counts (R230): at most the two it can span (log entry 65). -/
def State.fecCount (s : State) (p : Nat) (bad : Bool) : State :=
  let a := s.take1
  let t := a.2.count 0x4003 2 p (Config.reading a.1 % 3)
  if bad then let b := t.take1; b.2.count 0x4003 3 p (Config.reading b.1 % 3) else t

/-- LINK_FRAME_RECEIVE (R202): a frame with a bad CRC, and every frame until the expected SEQ comes, is discarded. -/
def execLinkFrameReceive (port : Nat) (fr : LinkFrame) (s : State) : Res :=
  if 18 ≤ port then .next s
  else
    let x := s.port port
    if !s.live || !x.up then .next s
    else if fr.data.length ≠ 8 || fr.crc ≠ crc32c (frameBytes fr) then
      .next ((s.fecCount port true).setPort port { x with retryOut := true })
    else if fr.seq.toNat ≠ x.rxSeq then .next (s.fecCount port false)
    else .next ((s.fecCount port false).frameIn port fr)

/-- PORT_TRAINING_DONE (R200, R202, R204): `width` lanes came up, 4, 2, or none. -/
def execPortTrainingDone (port width : Nat) (s : State) : Res :=
  if 18 ≤ port then .next s
  else
    let x := s.port port
    if !s.live || x.state ≠ 1 then .next s
    else if width = 4 ∨ width = 2 then
      let y := { x with state := if width = 4 then 2 else 3, lanes := if width = 4 then 15 else if x.lanes = 12 then 12 else 3,
                        fresh := true, retries := 0, resetAt := none }
      .next ((((if width = 2 then s.portRec port 0 true else s).setPort port y.refresh).domEnd (0x20 + port)).drainQ)
    else .next ((s.portDown port).domEnd (0x20 + port))

/-- PORT_LANE_LOSS (R200): `lanes` still carry a signal. -/
def execPortLaneLoss (port : Nat) (lanes : BitVec 4) (s : State) : Res :=
  if 18 ≤ port then .next s
  else
    let x := s.port port
    let l := lanes.toNat
    let has := fun (m : Nat) => Nat.land l m == m
    if !s.live || !x.up || has x.lanes then .next s
    else if has 3 then .next (s.portRetrain port 3)
    else if has 12 then .next (s.portRetrain port 12)
    else .next (s.portDown port)

/-! ### Bring-up and staging of maps (R199, R222, R226) -/

/-- An Octica port is up: messages of the fabric manager come in by one (00 R6; log entry 5). -/
def State.fabricUp (s : State) : Bool := s.fab.ports.any Port.up

/-- PORT_BRINGUP: both numbers stay fixed until the next device reset. -/
def execPortBringup (node id : BitVec 16) (s : State) : Res :=
  if !s.live || !s.fabricUp || s.fab.named then .next s
  else .next (s.modFab fun g => { g with node := node.toNat, ownId := id.toNat, named := true })

/-- MAP_BEGIN. -/
def execMapBegin (epoch : W32) (idBytes extBytes gwBytes : Nat) (s : State) : Res :=
  if !s.live || !s.fabricUp || !s.fab.named then .next s
  else .next (s.modFab fun g => { g with staging := some ⟨epoch, idBytes, extBytes, gwBytes, []⟩ })

/-- MAP_DATA: a chunk of at most 4 KiB. -/
def execMapData (offset : Nat) (data : List Byte) (s : State) : Res :=
  if !s.live || !s.fabricUp || decide (4096 < data.length) then .next s
  else .next (s.modFab fun g => { g with staging := g.staging.map fun m => { m with bytes := memWrite m.bytes offset data } })

/-- A request that passed the checks of a slot `covers` picks out has not written memory and sent its response: a GET being served, a
write held by a cut, or a response that waits for credits (R216, R226). Slots are the device's own. -/
def State.requestsDue (s : State) (covers : Nat → Bool) : Bool :=
  tblAny s.bulk.serves (fun _ g => covers g.slot) || s.fab.inQ.any (fun q => q.go.any fun g => covers g.2.2)
  || s.bulk.held.any (fun h => covers h.slot) || s.fab.sendQ.any (·.vc == 1)

/-- MAP_ACK_SEND (R226): the oldest MAP_ACK leaves once every request that passed before has been answered; after a FATAL error too
(16 R453). -/
def execMapAckSend (s : State) : Res :=
  match s.fab.mapAck with
  | [] => .next s
  | (e, st) :: rest =>
    if !s.dev.locked || s.requestsDue (fun _ => true) then .next s
    else .next ((s.modFab fun g => { g with mapAck := rest }).send 3 1 false (.mapAck e st))

/-! ### Regions (R214-R216) -/

/-- Slots a region covers. -/
def regSlots (r : RegionRec) : Nat := ceilDiv (r.len.toNat * 4096) (2 ^ 32)
/-- Slot `sl` belongs to a region kept under `first`. -/
def regionCovers (first : Nat) (r : RegionRec) (sl : Nat) : Bool := decide (first ≤ sl) && decide (sl < first + regSlots r)
/-- The region whose entries include local slot `sl`. -/
def State.regionAt (s : State) (sl : Nat) : Option (Nat × Region) := tblFirst s.fab.regions fun f r => regionCovers f r.rcd sl

/-- Check 1 of R215. -/
def State.regionFieldsOk (s : State) (ctx first : Nat) (r : RegionRec) : Bool :=
  let base := s.obj 0x4101 2 ctx 0
  r.first.toNat == first && decide (1 ≤ r.len.toNat) && r.tbase.toNat % 4096 == 0 && bit r.key.toNat 31 == r.sro
  && !(r.sro && (r.write || r.atom)) && decide (r.tbase.toNat + r.len.toNat * 4096 ≤ 2 ^ 48)
  && within first (regSlots r) base (s.obj 0x4101 2 ctx 1) && decide (first + regSlots r ≤ 65536)
  && decide (tblCount s.fab.regions (fun _ g => g.ctx == ctx) < s.obj 0x4101 1 ctx)

/-- REGION_SET (R215). -/
def execRegionSet (sq : Nat) (h : CmdHdr) (first : BitVec 16) (rcd : RegionRec) (s : State) : Res :=
  s.ringCmd sq h (.regionSet first rcd) [] fun t =>
    let ctx := h.ctx.toNat
    let f := first.toNat
    if !t.regionFieldsOk ctx f rcd then .done stRegionField 0 t
    else if tblAny t.fab.regions (fun g r => overlaps f (regSlots rcd) g (regSlots r.rcd)) || tblFind t.fab.lastKeys f == some rcd.key then
      .done stRegionBusy 0 t
    else
      .done stOk 0 (t.modFab fun g => { g with
        regions := tblIns g.regions f ⟨rcd, ctx, false, true⟩
        lastKeys := (span f (regSlots rcd)).foldl (fun l k => tblIns l k rcd.key) g.lastKeys })

/-- REGION_CLEAR (R216): completed by REGION_CLEAR_DONE. -/
def execRegionClear (sq : Nat) (h : CmdHdr) (first : BitVec 16) (s : State) : Res :=
  s.ringCmd sq h (.regionClear first) [] fun t =>
    let f := first.toNat
    match tblFind t.fab.regions f with
    | none => .done stRegionField 0 t
    | some r =>
      if r.ctx ≠ h.ctx.toNat then .done stRegionField 0 t
      else if r.closing then .done stRegionBusy 0 t
      else .later (t.modFab fun g => { g with
        regions := tblIns g.regions f { r with closing := true }
        closes := tblIns g.closes f ⟨sq, h.tag, t.target sq (.cmd h (.regionClear first)), h.ctx.toNat, t.sqHeadOf sq⟩ })

/-- REGION_CLEAR_DONE: every request that passed the region check has been answered. -/
def execRegionClearDone (first : Nat) (s : State) : Res :=
  match tblFind s.fab.regions first, tblFind s.fab.closes first with
  | some r, some c =>
    if !s.live || s.requestsDue (regionCovers first r.rcd) then .next s
    else .next ((s.modFab fun g => { g with regions := tblDel g.regions first, closes := tblDel g.closes first }).cmdDone
      c.sq c.cq c.ctx c.head c.tag 0xB1 stOk 0)
  | _, _ => .next s

/-! ### The checks at a target (R217, R224; 12 R355) -/

/-- An ST_KEY answer for a slot that region `first` covers: counted, and the pair quarantined beyond the limit. -/
def State.keyReject (s : State) (src first : Nat) (r : Region) : State :=
  let k := src * 65536 + first
  let per := s.tick / 62500
  let old := tblGet (per, 0) s.bulk.keyFails k
  let n := (if old.1 = per then old.2 else 0) + 1
  let s1 := (s.count 0x4102 1 r.ctx).modBulk fun g => { g with keyFails := tblIns g.keyFails k (per, n) }
  if s.obj 0x7005 1 < n && (tblFind s.bulk.quar k).isNone then
    ((s1.modBulk fun g => { g with quar := tblIns g.quar k (s.tick + s.obj 0x7005 2 * ticksPerMs) }).count 0x7005 3).record
      { sev := 0, code := Config.openCode 0 % 65536, source := 0x09, unit := 0xFFFF, ctx := r.ctx, addr := src }
  else s1

/-- QUARANTINE_END. -/
def execQuarantineEnd (node first : Nat) (s : State) : Res :=
  let k := node * 65536 + first
  match tblFind s.bulk.quar k with
  | none => .next s
  | some t => if s.live && decide (t ≤ s.tick) then .next (s.modBulk fun g => { g with quar := tblDel g.quar k }) else .next s

/-- What a request wants of a region. -/
inductive Perm where
  | read | write | atom
  deriving DecidableEq, Repr

def regPermits (r : RegionRec) : Perm → Bool
  | .read => r.read | .write => r.write | .atom => r.atom

/-- Items 4 and 5 of R217 for `n` bytes at offset `off` of local slot `sl`: context and context address, or the
failure. -/
def State.regionCheck (s : State) (src sl off n : Nat) (key : W32) (p : Perm) : State × Except Nat (Nat × Nat) :=
  match s.regionAt sl with
  | none => (s, .error stKey)
  | some (first, r) =>
    let o := (sl - first) * 2 ^ 32 + off
    let quar := (tblFind s.bulk.quar (src * 65536 + first)).isSome
    if quar || !r.valid || r.closing || r.rcd.len.toNat * 4096 < o + n || r.rcd.key ≠ key then (s.keyReject src first r, .error stKey)
    else if !regPermits r.rcd p then (s, .error stRegionPerm)
    else (s, .ok (r.ctx, r.rcd.tbase.toNat + o))

/-- The epoch and ownership checks of R224 for hall address `a`: the local slot, or the failing status. -/
def State.epochCheck (s : State) (e : W32) (a : Nat) (writes : Bool) : Except Nat Nat :=
  match s.ownerOf a with
  | some (n, sl, held) =>
    if n = s.fab.node then
      if held && writes then .error stEpochWait
      else if epNewer s.fab.prevMap.epoch e then .error stMoved else .ok sl
    else if epNewer e s.fab.map.epoch then .error stEpochWait else .error stMoved
  | none => if epNewer e s.fab.map.epoch then .error stEpochWait else .error stMoved

/-- HINT_NODE: the owner under the current map, else the node that the identity's entry names. -/
def State.hintNode (s : State) (a : Nat) : Nat := ((s.ownerOf a).map (·.1)).getD (s.fab.map.idEnt (hallId a)).node

/-! ### Line operations (R207, R208, R219) -/

/-- Result of an atomic on `x` with operand `y`; `z` is the swap of a CAS. -/
def lineMerge (op x y : Nat) (z : Nat := 0) : Nat :=
  match op with
  | 0x10 => (x + y) % 2 ^ 64 | 0x11 => Nat.lor x y | 0x12 => min x y | 0x13 => max x y
  | _ => if x = y then z else x

/-- Alignment of an operation; none when it is unknown. -/
def lineAlign (op : Nat) : Option Nat := if op = 1 ∨ op = 2 then some 64 else if 0x10 ≤ op ∧ op ≤ 0x14 then some 8 else none
/-- The operation carries a 64-byte payload in its request. -/
def linePay (op : Nat) : Bool := op == 2 || op == 0x14

/-- Item 2 of R217. -/
def lineFormOk (q : LineReq) : Bool :=
  let op := q.op.toNat
  (match lineAlign op with | some n => q.addr.toNat % n == 0 | none => false) && !(op == 2 && q.operand == 0)
  && (!q.cmb || (decide (0x10 ≤ op) && decide (op ≤ 0x13))) && q.payload.length == (if linePay op then 64 else 0)

/-- The answer to a request (R212). -/
def State.lineRsp (s : State) (q : LineReq) (status value : Nat) (payload : List Byte) : LineRsp :=
  { epoch := s.fab.map.epoch, hintNode := if status = stMoved then BitVec.ofNat 16 (s.hintNode q.addr.toNat) else 0,
    countM1 := if q.cmb then q.line else 0, line := if q.cmb then 0 else q.line, value := BitVec.ofNat 64 value, dstNode := q.srcNode,
    srcNode := BitVec.ofNat 16 s.fab.node, txn := q.txn, op := q.op, status := BitVec.ofNat 16 status, payload := payload }

/-- A response leaves. -/
def State.sendRsp (s : State) (r : LineRsp) : State := s.send 1 (if r.payload.isEmpty then 1 else 3) false (.lineRsp r)
/-- A request is answered. -/
def State.answer (s : State) (q : LineReq) (status value : Nat) (payload : List Byte) : State :=
  (if status = stMoved then s.count 0x4008 1 else s).sendRsp (s.lineRsp q status value payload)

/-- The bytes of a WRITE64 whose mask bit is set; a whole line replaces poison (16 R444). -/
def State.maskWrite (s : State) (ctx a mask : Nat) (bs : List Byte) : State :=
  if mask = 2 ^ 64 - 1 then s.cwrite ctx a bs
  else (List.range 64).foldl (fun t i => if bit mask i then t.cwrite ctx (a + i) [bs.getD i 0] else t) s

/-- The operation on context memory (R208, R220), answered; a read of a poisoned line is answered ST_HBM_UE. -/
def State.performLine (s : State) (q : LineReq) (ctx a : Nat) : State :=
  let op := q.op.toNat
  if op = 2 then (s.maskWrite ctx a q.operand.toNat q.payload).answer q stOk 0 []
  else
    let n := if op = 1 then 64 else 8
    match s.cbad ctx a n with
    | some l => (s.ueRead l ctx none).answer q stHbmUe 0 []
    | none =>
      if op = 1 then s.answer q stOk 0 (s.cread ctx a 64)
      else
        let x := s.cnum ctx a 8
        let y := if op = 0x14 then lineMerge op x (leNat (q.payload.take 8)) (leNat ((q.payload.drop 8).take 8))
                 else lineMerge op x q.operand.toNat
        let t := s.cwrite ctx a (leBytes 8 y)
        (if q.cmb then t.count 0x4008 3 else t).answer q stOk x []

/-! ### Gateway records (08 R255) -/

/-- The request a header spells. -/
def numReq (v : Nat) (pay : List Byte) : LineReq :=
  { cmb := decide (0x10 ≤ bits v 79 74) && bits v 71 64 != 0, epoch := fld 32 v 224, key := fld 32 v 192, addr := fld 64 v 128,
    dstNode := fld 16 v 112, srcNode := fld 16 v 96, txn := fld 16 v 80, op := fld 6 v 74, comb := bit v 73, replay := bit v 72,
    line := fld 8 v 64, operand := fld 64 v 0, payload := pay }
/-- The response a header spells. -/
def numRsp (v : Nat) (pay : List Byte) : LineRsp :=
  { epoch := fld 32 v 224, hintNode := fld 16 v 208, countM1 := fld 8 v 200, line := fld 8 v 192, value := fld 64 v 128,
    dstNode := fld 16 v 112, srcNode := fld 16 v 96, txn := fld 16 v 80, op := fld 6 v 74, status := fld 16 v 48, payload := pay }

/-- A record: a request of the sending bay, or a response to a node of bay `b`. -/
inductive GwRec where
  | req (q : LineReq)
  | rsp (r : LineRsp)
  deriving DecidableEq, Repr

/-- The records of a message, read in bay `b`: the DST_NODE of a response lies in it. -/
def gwRecs (b : Nat) : Nat → List Byte → List GwRec
  | 0, _ => []
  | n + 1, bs =>
    if bs.length < 32 then []
    else
      let v := leNat (bs.take 32)
      let rest := bs.drop 32
      let op := bits v 79 74
      if bits v 127 124 = b then
        let k := if op = 1 && bits v 63 48 = stOk then 64 else 0
        .rsp (numRsp v (rest.take k)) :: gwRecs b n (rest.drop k)
      else
        let k := if linePay op then 64 else 0
        .req (numReq v (rest.take k)) :: gwRecs b n (rest.drop k)

/-- A record message is closed and issued (R255). -/
def State.gwClose (s : State) (k : Nat) : State :=
  match tblFind s.fab.batches k with
  | none => s
  | some b =>
    let u := if k % 2 = 0 then Purpose.gwRecords (k / 2) b.tags else .gwAnswers (k / 2)
    (s.modFab fun g => { g with batches := tblDel g.batches k }).bulkIssue (k / 2) (bulkMsg 1 256 3 3 0 0 b.data.length b.data u)

/-- A record joins the message under key `k`, which closes at 4,096 bytes. -/
def State.gwPush (s : State) (k : Nat) (img : List Byte) (tag : Option Nat) : State :=
  let full := match tblFind s.fab.batches k with | some b => decide (4096 < b.data.length + img.length) | none => false
  let s1 := if full then s.gwClose k else s
  let b := tblGet ⟨[], s1.tick, []⟩ s1.fab.batches k
  let b1 : Batch := { b with data := b.data ++ img, tags := b.tags ++ tag.toList }
  let s2 := s1.modFab fun g => { g with batches := tblIns g.batches k b1 }
  if b1.data.length = 4096 then s2.gwClose k else s2

/-- GW_BATCH_CLOSE (R255): GW_BATCH ns after the first record. -/
def execGwBatchClose (far : Nat) (s : State) : Res :=
  if !s.live then .next s
  else
    let due := fun (k : Nat) => match tblFind s.fab.batches k with
      | some b => decide (s.obj 0x4205 3 * 5 ≤ (s.tick - b.first) * 8)
      | none => false
    let s1 := if due (2 * far) then s.gwClose (2 * far) else s
    .next (if due (2 * far + 1) then s1.gwClose (2 * far + 1) else s1)

/-- Earlier posted writes of the source are not all answered (R256). -/
def State.gwBehind (s : State) (src tag : Nat) : Bool :=
  tblAny s.fab.intake fun t e => decide (t < tag) && e.posted && e.req.srcNode.toNat == src

/-- A gateway takes a line request as NEAR (R255): writes are posted, reads and atomics wait for earlier writes. -/
def State.gwIntake (s : State) (q : LineReq) (far : Nat) : State :=
  if 16384 ≤ s.fab.intake.length then s.answer q stBusy 0 []
  else
    let tag := s.fab.nextTag
    let posted := q.op == 2
    let held := !posted && s.gwBehind q.srcNode.toNat tag
    let s1 := s.modFab fun g => { g with intake := tblIns g.intake tag ⟨q, far, posted, held⟩, nextTag := tag + 1 }
    let s2 := if posted then s1.answer q stOk 0 [] else s1
    if held then s2 else s2.gwPush (2 * far) (reqImage q) (some tag)

/-- Held requests whose earlier posted writes are all answered go on (R256). -/
def State.gwRelease (s : State) : State :=
  (s.fab.intake.filter fun e => e.2.held).foldl (fun t e =>
    if t.gwBehind e.2.req.srcNode.toNat e.1 then t
    else (t.modFab fun g => { g with intake := tblIns g.intake e.1 { e.2 with held := false } }).gwPush (2 * e.2.far) (reqImage e.2.req)
      (some e.1)) s

/-- A posted write failed at the far bay (R256; 16 R443). -/
def State.gwFailed (s : State) (src : Nat) : State :=
  (s.count 0x4205 5).record { sev := 1, code := 0x0010, source := 0x09, unit := 0xFFFF, addr := src, shared := false }

/-- The far bay answered a request taken in (R255, R256). -/
def State.gwAnswer (s : State) (r : LineRsp) : State :=
  match tblFirst s.fab.intake fun _ e => !e.held && e.req.srcNode == r.dstNode && e.req.txn == r.txn && e.req.op == r.op
      && (r.op != 1 || e.req.line == r.line) with
  | none => s
  | some (tag, e) =>
    let s1 := s.modFab fun g => { g with intake := tblDel g.intake tag }
    let s2 :=
      if e.posted then (if r.status = 0 then s1 else s1.gwFailed e.req.srcNode.toNat)
      else s1.sendRsp { r with srcNode := BitVec.ofNat 16 s.fab.node, countM1 := if e.req.cmb then e.req.line else 0 }
    s2.gwRelease

/-! ### Transactions at the source (R209, R210, R218, R219) -/

def State.txn (s : State) (t : Nat) : Option Txn := tblFind s.fab.txns t
def State.setTxn (s : State) (t : Nat) (x : Txn) : State := s.modFab fun g => { g with txns := tblIns g.txns t x }

/-- The core that holds remote operation `op` of core `k`: live, or saved as core `j` of step `n`. -/
inductive Holder where
  | live (c : Core) (r : RemOp)
  | saved (n j : Nat) (v : SavedCore) (r : RemOp)
  | gone
  deriving DecidableEq, Repr

def State.holder (s : State) (k op : Nat) : Holder :=
  let has := fun (l : List RemOp) => l.find? fun r => r.id == op && r.settled.isNone
  match (s.core k).bind fun c => (has c.rem).map fun r => (c, r) with
  | some (c, r) => .live c r
  | none =>
    match s.run.steps.findSome? fun e => (e.2.cores.zip e.2.saved).zipIdx.findSome? fun a =>
        if a.1.1 = k then (has a.1.2.liens).map fun r => (e.1, a.2, a.1.2, r) else none with
    | some (n, j, v, r) => .saved n j v r
    | none => .gone

/-- A saved core changes. -/
def State.setSaved (s : State) (n j : Nat) (v : SavedCore) : State := s.updStp n fun p => { p with saved := p.saved.set j v }

/-- Step `n` restores, since an earlier cycle of NCLK: its port holds responses for liens until the restore ends (R303). -/
def State.portHolds (s : State) (n : Nat) : Bool :=
  (s.stp n).any fun p => match p.ph with | .restoring _ start => decide (start < s.dev.nclk) | _ => false

/-- Data of a READ64 reaches its place (R209, R301). -/
def State.landLine (s : State) (x : Txn) (i : LineItem) (pay : List Byte) : State :=
  match x.owner with
  | .core k op => match s.holder k op with
    | .live c r => s.setCore k { c with ls := c.ls.write (r.dst + 64 * i.line) pay }
    | .saved n j v r =>
      s.setSaved n j (if s.portHolds n then { v with held := v.held ++ [⟨op, some (i.line, pay), none⟩] } else v.put (r.dst + 64 * i.line) pay)
    | .gone => s
  | .far .. => s

/-- A remote operation is answered (R90, R301, R332). Every status but ST_OK ends the step with that status, one in the reserved
range of R13 too (DEDUCED, log entry 62). -/
def State.opDone (s : State) (k op status value : Nat) : State :=
  match s.holder k op with
  | .live c r =>
    if status ≠ stOk then s.stepFail c.step c.pos r.ip status
    else s.setCore k { c with
      liens := c.liens - 1, rem := c.rem.filter (·.id != op), ls := if r.kind = .atom then c.ls.write r.dst (leBytes 8 value) else c.ls }
  | .saved n j v r =>
    if s.portHolds n then s.setSaved n j { v with held := v.held ++ [⟨op, none, some (status, value)⟩] }
    else
      (s.setSaved n j { v with liens := v.liens.map fun q => if q.id = op then { r with settled := some (status, value) } else q }).count
        0x5007 4
  | .gone => s.modSite fun g => { g with late := (g.late + 1) % 2 ^ 64 }

/-! ### The end of a restore (10 R302, R303) -/

/-- The first lien of a saved core that ends its step: the cycle of the restore in which it is taken, its instruction index
and its status. -/
def SavedCore.badLien (v : SavedCore) : Option (Nat × Nat × Nat) :=
  v.liens.zipIdx.findSome? fun a => match a.1.settled with
    | some (st, _) => if st = stOk then none else some (v.cycles - 8 * v.core.liens + 8 * (a.2 + 1), a.1.ip, st)
    | none => none

/-- A lien is taken: settled with ST_OK it is applied, else it stays in the count. -/
def Core.takeLien (c : Core) (r : RemOp) : Core :=
  match r.settled with
  | none => { c with rem := c.rem ++ [r] }
  | some (_, v) => { c with liens := c.liens - 1, ls := if r.kind = .atom then c.ls.write r.dst (leBytes 8 v) else c.ls }

/-- The core that a save area brings back, with its program copied again; it goes on at cycle `t`. -/
def SavedCore.restore (v : SavedCore) (prog : List (BitVec 128)) (t : Nat) : Core :=
  v.liens.foldl Core.takeLien { v.core with ls := v.store, istore := prog, busyUntil := t }

/-- A response held during the restore reaches core `k`. -/
def State.applyHeld (s : State) (k : Nat) (h : HeldRsp) : State :=
  match h.done, h.data with
  | some (st, v), _ => s.opDone k h.op st v
  | none, some (i, bs) => match (s.core k).bind fun c => (c.rem.find? fun r => r.id == h.op).map fun r => (c, r) with
    | some (c, r) => s.setCore k { c with ls := c.ls.write (r.dst + 64 * i) bs }
    | none => s
  | none, none => s

/-- The failure that ends a restore, if any: the earliest taken, the lowest position among those. -/
def Step.restoreBad (p : Step) : Option (Nat × Nat × Nat × Nat) :=
  p.saved.foldl (fun b v => match v.badLien, b with
    | some (t, ip, st), some (u, _) => if t < u then some (t, v.core.pos, ip, st) else b
    | some (t, ip, st), none => some (t, v.core.pos, ip, st)
    | none, _ => b) none

/-- COURSE_RESTORE_DONE (R302, R303): the liens are taken, the program is copied again, and the course goes on, and counts cycles again,
once its first 64 instructions are there (03 R72); responses held meanwhile are applied. -/
def execCourseRestoreDone (step : Nat) (s : State) : Res :=
  match s.stp step with
  | none => .next s
  | some p => match p.ph with
    | .restoring till _ =>
      if !s.live || s.aclk < till then .next s
      else match p.restoreBad with
        | some (_, pos, ip, st) => .next (s.endStep step st (some (pos, ip)))
        | none =>
          let prog := s.program p.d
          let at_ := s.aclk + copyCycles p.d
          let l := p.cores.zip p.saved
          let s1 := s.modRun fun g => { g with
            cores := l.foldl (fun m e => tblIns m e.1 (e.2.restore prog at_)) g.cores
            steps := tblIns g.steps step { p with ph := .running, saved := [], started := at_ } }
          .next (s1.each (l.flatMap fun e => e.2.held.map fun h => (e.1, h)) fun t e => t.applyHeld e.1 e.2)
    | _ => .next s

/-- A transaction ends; the expiry of one that an answer settles is still to fall (11 R332). -/
def State.txnEnd (s : State) (t : Nat) (x : Txn) (status value : Nat) (pay : List Byte) : State :=
  let s1 := s.modFab fun g => { g with
    txns := tblDel g.txns t, expiries := (x.deadline.filter fun d => !s.past d).toList ++ g.expiries }
  match x.owner with
  | .core k op => s1.opDone k op status value
  | .far near src txn line =>
    let r : LineRsp := {
      epoch := s.fab.map.epoch, hintNode := 0, countM1 := 0, line := BitVec.ofNat 8 line, value := BitVec.ofNat 64 value,
      dstNode := BitVec.ofNat 16 src, srcNode := BitVec.ofNat 16 s.fab.node, txn := BitVec.ofNat 16 txn, op := BitVec.ofNat 6 x.op,
      status := BitVec.ofNat 16 status, payload := if status = stOk then pay else [] }
    s1.gwPush (2 * near + 1) (rspImage r) none

/-- Request `i` of transaction `t` has its final answer (R209). -/
def State.partDone (s : State) (t : Nat) (i : LineItem) (status value : Nat) (pay : List Byte) : State :=
  match s.txn t with
  | none => s
  | some x =>
    let s1 := if status = stOk && x.op = 1 then s.landLine x i pay else s
    let y := { x with shared := x.shared.erase i, status := if x.status = stOk then status else x.status }
    if y.todo.isEmpty && y.sent.isEmpty && y.again.isEmpty && y.shared.isEmpty then s1.txnEnd t y y.status value pay
    else s1.setTxn t y

/-- Old values of the constituents of an atomic (R219). -/
def prefixes (op : Nat) : Nat → List (Nat × LineItem) → List (Nat × LineItem × Nat)
  | _, [] => []
  | v, (t, i) :: l => (t, i, v) :: prefixes op (lineMerge op v i.operand.toNat) l

/-- A constituent has its final answer, unless its transaction ended before. -/
def State.shareDone (s : State) (t : Nat) (i : LineItem) (status value : Nat) (pay : List Byte) : State :=
  if (s.txn t).any fun x => decide (i ∈ x.shared) then s.partDone t i status value pay else s

/-- The final answer to a request sent, given to each of its constituents. -/
def State.sentDone (s : State) (t op : Nat) (l : LineSent) (status value : Nat) (pay : List Byte) : State :=
  if l.parts.isEmpty then s.partDone t l.item status value pay
  else if op = 1 then l.parts.foldl (fun u e => u.shareDone e.1 e.2 status 0 pay) s
  else (prefixes op value l.parts).foldl (fun u e => u.shareDone e.1 e.2.1 status (if status = stOk then e.2.2 else 0) []) s

/-- A remote SIGNAL waits for the core's earlier remote writes (03 R89). -/
def State.signalHeld (s : State) (x : Txn) : Bool :=
  match x.owner with
  | .core k op =>
    let sig := match s.holder k op with | .live _ r | .saved _ _ _ r => r.kind == .signal | .gone => false
    sig && tblAny s.fab.txns fun _ y => y.op == 2 && decide (y.order < x.order) && (match y.owner with | .core j _ => j == k | _ => false)
  | _ => false

/-- The next request of a transaction: one refused with ST_MOVED, or one not yet sent. -/
def Txn.head (x : Txn) : Option (LineSent × Bool) :=
  match x.again.find? fun l => l.wait == .none with
  | some l => some (l, true)
  | none => x.todo.head?.map fun i => (⟨i, [], .none, none⟩, false)

/-- The transaction has a request that may go now. -/
def State.lineReady (s : State) (x : Txn) : Bool := x.head.isSome && !s.signalHeld x

/-- Requests that combine with request `i` of transaction `t`, in queue order, that one included (R218, R219). -/
def State.combine (s : State) (t : Nat) (x : Txn) (i : LineItem) : List (Nat × LineItem) :=
  if !x.comb || decide (256 ≤ x.ctx) then [(t, i)]
  else
    let c := s.fab.txns.filterMap fun e =>
      let y := e.2
      if e.1 = t then some (y.order, t, i)
      else if y.ctx == x.ctx && y.op == x.op && y.key == x.key && y.comb && !s.signalHeld y then
        (y.todo.find? fun j => j.addr == i.addr).map fun j => (y.order, e.1, j)
      else none
    let ins := fun (l : List (Nat × Nat × LineItem)) (a : Nat × Nat × LineItem) =>
      l.takeWhile (fun b => decide (b.1 ≤ a.1)) ++ a :: l.dropWhile (fun b => decide (b.1 ≤ a.1))
    let l := ((c.foldl ins []).map (·.2)).take 256
    if l.any (·.1 == t) then l else [(t, i)]

/-- Where a request goes: its status if it fails, or the stamp and the next hop (R209, R225). -/
def State.lineRoute (s : State) (x : Txn) (l : LineSent) : Except Nat (W32 × Nat) :=
  let a := l.item.addr.toNat
  if (lineAlign x.op).any (fun n => a % n != 0) then .error stLineFormat
  else
    let own := if !s.idOk a then none else (s.ownerOf a).map fun o => (x.epoch.getD s.fab.map.epoch, o.1)
    let dst := match l.hint with
      | some (e, n) => if epNewer e s.fab.map.epoch then some (e, n) else own
      | none => own
    match dst with
    | none => .error stNoRoute
    | some (e, n) =>
      if n / 4096 = s.bay then .ok (e, n)
      else match s.gwPair (n / 4096) (pairNum a) with
        | some (near, _) => .ok (e, near)
        | none => .error stNoRoute

/-- Operand of a request sent for `parts` (R219). -/
def combined (op : Nat) : List (Nat × LineItem) → Nat
  | [] => 0
  | (_, i) :: l => l.foldl (fun v e => lineMerge op v e.2.operand.toNat) i.operand.toNat

/-- The request packet (R211, R213). -/
def State.lineReq (s : State) (t : Nat) (x : Txn) (l : LineSent) (e : W32) (hop : Nat) (replay : Bool) : LineReq :=
  let many := !l.parts.isEmpty && x.op != 1
  let cmb := many || (decide (256 ≤ x.ctx) && decide (0x10 ≤ x.op) && l.item.line != 0)
  { cmb := cmb, epoch := e, key := x.key, addr := l.item.addr,
    dstNode := BitVec.ofNat 16 hop, srcNode := BitVec.ofNat 16 s.fab.node, txn := BitVec.ofNat 16 t, op := BitVec.ofNat 6 x.op,
    comb := x.comb, replay := replay && !cmb,
    line := if many then BitVec.ofNat 8 (l.parts.length - 1)
            else if x.op = 1 ∨ 256 ≤ x.ctx then BitVec.ofNat 8 l.item.line else 0,
    operand := if many then BitVec.ofNat 64 (combined x.op l.parts) else l.item.operand,
    payload := if linePay x.op then l.item.payload else [] }

/-- What transaction `t` has waiting, with the port it would take. -/
def State.txnItem (s : State) (t : Nat) (x : Txn) : Option (Nat × PortItem) :=
  if !s.lineReady x then none
  else match x.head with
    | none => none
    | some (l, again) => match s.lineRoute x l with
      | .error _ => none
      | .ok (e, hop) =>
        let parts := if again then l.parts else s.combine t x l.item
        let q := s.lineReq t x (if parts.length = 1 then l else { l with parts := parts }) e hop again
        let vc := if q.cmb then 2 else 0
        let n := if q.payload.isEmpty then 1 else 3
        (s.nextPort s.fab.rotor vc n false none).map fun p => (p, ⟨vc, n, if 256 ≤ x.ctx then 256 else x.ctx, x.rank, x.order⟩)

/-- The key exchange that goes next, with the port it would take (12 R349). -/
def State.keyxNext (s : State) : Option (WaitPkt × Nat) :=
  (s.fab.sendQ.find? (·.vc == 0)).bind fun w => (s.nextPort s.fab.rotor 0 w.flits w.trunk none).map fun p => (w, p)
/-- Items of channel `vc` that wait at port `p`; a key exchange is charged to no context. -/
def State.portItems (s : State) (p vc : Nat) : List PortItem :=
  let keyx : List PortItem := (s.keyxNext.toList.filter fun e => e.2 == p).map fun e => ⟨0, e.1.flits, 256, 0, 0⟩
  (s.fab.txns.filterMap (fun e => (s.txnItem e.1 e.2).bind fun i => if i.1 = p then some i.2 else none) ++ s.bulkItems p
    ++ keyx).filter fun i => i.vc == vc

/-- The class of a packet of `n` flits on channel `vc` may leave port `p` (R206): its deficits after the packet. -/
def State.classTurn (s : State) (p vc n : Nat) : Option State :=
  let other := (s.itemPick p (s.portItems p (if vc = 0 then 2 else 0))).map (·.flits)
  match (s.port p).drr (if vc = 0 then other else some n) (if vc = 0 then some n else other) with
  | some (onReq, x) => if onReq == (vc == 0) then some (s.setPort p (x.drrSent n)) else none
  | none => none

/-- The key exchange that goes next leaves when it is the turn of REQ at its port (R206). -/
def State.keyxOut (s : State) : State :=
  match s.keyxNext with
  | none => s
  | some (w, p) => match s.classTurn p 0 w.flits with
    | none => s
    | some t => (t.sendPkt p 0 w.flits w.pkt).modFab fun g => { g with rotor := p, sendQ := g.sendQ.erase w }

/-- It is the turn of item `i` at port `p` (R206; 10 R307). -/
def State.portTurn (s : State) (p : Nat) (i : PortItem) : Option State :=
  if (s.itemPick p (s.portItems p i.vc)).any (·.order == i.order) then s.classTurn p i.vc i.flits else none

/-- A constituent's request travels in another transaction's. -/
def State.lend (s : State) (t : Nat) (parts : List (Nat × LineItem)) : State :=
  parts.foldl (fun u e =>
    if e.1 = t then u
    else u.modFab fun g => { g with txns := tblMod g.txns e.1 fun y =>
      { y with todo := y.todo.erase e.2, shared := y.shared ++ [e.2],
               deadline := some (y.deadline.getD (s.tick + s.obj 0x4005 1 * ticksPerUs)) } }) s

/-- Request `l` of transaction `t` leaves, where a port can take it; one that fails its checks has its final answer. The
transaction no longer lists it, and the requests that travel in it for the first time leave their own. -/
def State.lineTx (s : State) (t : Nat) (x : Txn) (l : LineSent) (replay turn counts : Bool) : Option State :=
  let lent := fun (u : State) => if replay then u else u.lend t l.parts
  match s.lineRoute x l with
  | .error st => some (((lent s).setTxn t { x with status := if x.status = stOk then st else x.status }).sentDone t x.op l st 0 [])
  | .ok (e, hop) =>
    let q := s.lineReq t x l e hop replay
    let vc := if q.cmb then 2 else 0
    let n := if q.payload.isEmpty then 1 else 3
    match s.nextPort s.fab.rotor vc n false none with
    | none => none
    | some p =>
      match if turn then s.portTurn p ⟨vc, n, x.ctx, x.rank, x.order⟩ else s.classTurn p vc n with
      | none => none
      | some s0 =>
        let s1 := (((lent s0).sendPkt p vc n (.lineReq q)).modFab fun g => { g with rotor := p }).setTxn t
          { x with sent := x.sent ++ [{ l with wait := .none }],
                   deadline := some (x.deadline.getD (s.tick + s.obj 0x4005 1 * ticksPerUs)) }
        let s2 := if x.ctx < 256 then s1.fqStart (32 + p) x.ctx 3 (64 * max 1 l.parts.length) else s1
        let s3 := if counts then s2.count 0x4008 2 else s2
        some (if q.cmb && decide (x.ctx < 256) then s3.count 0x4008 4 else s3)

/-- LINE_REQUEST_SEND (R205, R209, R218, R219). -/
def execLineRequestSend (txn : Nat) (s : State) : Res :=
  match s.txn txn with
  | none => .next s
  | some x =>
    if !s.live || !s.lineReady x then .next s
    else match x.head with
      | none => .next s
      | some (l, true) =>
        .next ((s.lineTx txn { x with again := x.again.erase l } l true true true).getD s)
      | some (l, false) =>
        let parts := s.combine txn x l.item
        let l' := if parts.length = 1 then l else { l with parts := parts }
        let y := { x with todo := x.todo.erase l.item, shared := if l'.parts.isEmpty then x.shared else x.shared ++ [l.item] }
        .next ((s.lineTx txn y l' false true false).getD s)

/-! ### Requests at the target (R217) -/

/-- Flits of a request and the channel it comes on. -/
def reqFlits (q : LineReq) : Nat := if q.payload.isEmpty then 1 else 3
def reqVc (q : LineReq) : Nat := if q.cmb then 2 else 0
/-- Bytes an operation acts on. -/
def reqSize (q : LineReq) : Nat := if q.op.toNat < 0x10 then 64 else 8

/-- A request taken from its buffer: the checks of R217 in order, and the operation, unless a checkpoint's cut holds its write
(13 R376). -/
def State.lineIn (s : State) (port : Nat) (q : LineReq) : State :=
  if q.dstNode.toNat ≠ s.fab.node then
    (s.count 0x4004 1).record { sev := 0, code := 0x0011, source := 0x09, unit := port, addr := q.srcNode.toNat }
  else if s.resting then s.answer q stBusy 0 []
  else if !lineFormOk q then s.answer q stLineFormat 0 []
  else
    let a := q.addr.toNat
    let o := s.ownerOf a
    if s.gateway && o.any (fun o => o.1 / 4096 != s.bay) then
      match s.gwPair ((o.map (·.1)).getD 0 / 4096) (pairNum a) with
      | some (_, far) => s.gwIntake q far
      | none => s.answer q stNoRoute 0 []
    else
      match s.epochCheck q.epoch a (q.op != 1) with
      | .error st => s.answer q st 0 []
      | .ok sl =>
        let perm := if q.op = 1 then Perm.read else if q.op = 2 then .write else .atom
        match s.regionCheck q.srcNode.toNat sl (hallOff a) (reqSize q) q.key perm with
        | (t, .error st) => t.answer q st 0 []
        | (t, .ok (ctx, ca)) =>
          let hold := if q.op = 1 then [] else t.uncopied ctx ca (reqSize q)
          if hold.isEmpty then t.performLine q ctx ca
          else (t.cbwHold hold).modFab fun g => { g with inQ := g.inQ ++ [⟨port, q, some (ctx, ca, sl)⟩] }

/-- Flits of the responses that wait for credits, and those the response queues hold: 8,192 bytes at each port (R229). -/
def State.rspWaiting (s : State) : Nat := ((s.fab.sendQ.filter (·.vc == 1)).map (·.flits)).foldl (· + ·) 0
def rspRoom : Nat := 18 * 256
/-- Flits reserved for the responses to requests that have been taken and not yet answered: those a cut holds, and those of a gateway's
intake (R205; 08 R255). -/
def State.rspOwed (s : State) : Nat :=
  (s.fab.inQ.filter (·.go.isSome)).length + 3 * s.bulk.held.length
  + ((s.fab.intake.filter fun e => !e.2.posted).map fun e => if e.2.req.op = 1 then 3 else 1).foldl (· + ·) 0
/-- A slot of `n` flits for the response to a request can be reserved (R205). -/
def State.rspFits (s : State) (n : Nat) : Bool := decide (s.rspWaiting + s.rspOwed + n ≤ rspRoom)
def State.rspSlot (s : State) (q : LineReq) : Bool := s.rspFits (if q.op = 1 then 3 else 1)
/-- A request stays in its buffer behind an earlier one. -/
def State.inBehind (s : State) (port : Nat) (q : LineReq) : Bool :=
  s.fab.inQ.any fun e => e.go.isNone && e.port == port && (reqVc e.req) == (reqVc q)

/-- LINE_REQUEST_RECEIVE (R205, R217): taken from its buffer once a slot for its response is reserved. -/
def execLineRequestReceive (port : Nat) (q : LineReq) (s : State) : Res :=
  if !s.answering || !(s.port port).up then .next s
  else if s.inBehind port q || !s.rspSlot q then .next (s.modFab fun g => { g with inQ := g.inQ ++ [⟨port, q, none⟩] })
  else .next ((s.takeFlits port (reqVc q) (reqFlits q)).lineIn port q)

/-- Requests that waited are taken, and held writes performed, in order, where they now can be. -/
def State.inDrain (s : State) : State :=
  if s.fab.inQ.isEmpty || !s.answering then s
  else (s.fab.inQ).foldl (fun t e => match e.go with
    | some (ctx, ca, _) =>
      if (t.uncopied ctx ca (reqSize e.req)).isEmpty then t.performLine e.req ctx ca else t.modFab fun g => { g with inQ := g.inQ ++ [e] }
    | none =>
      if t.inBehind e.port e.req || !t.rspSlot e.req then t.modFab fun g => { g with inQ := g.inQ ++ [e] }
      else (t.takeFlits e.port (reqVc e.req) (reqFlits e.req)).lineIn e.port e.req) (s.modFab fun g => { g with inQ := [] })

/-! ### Responses, replays and timeouts (R210, R225; 08 R256) -/

/-- Request `l` of transaction `t` is refused and waits (R225, R256); after ST_MOVED it goes again at once where a port
can take it. -/
def State.lineAgain (s : State) (t : Nat) (x : Txn) (l : LineSent) : State :=
  let keep := s.setTxn t { x with again := x.again ++ [l] }
  if l.wait = .none then (s.lineTx t x l true false true).getD keep else keep

/-- LINE_RESPONSE_RECEIVE: answers that match no request outstanding are counted and discarded; one due under a number that timed out
frees it (R210). The WRITE64s of one remote PUT share their TXN and have LINE 0 (R213), so that R209 does not tell whose answer one is:
it goes to the first that is outstanding (DESIGN CHOICE, log entry 19). -/
def execLineResponseReceive (port : Nat) (r : LineRsp) (s0 : State) : Res :=
  if !s0.live || !(s0.port port).up then .next s0
  else
    let s := s0.takeFlits port 1 (if r.payload.isEmpty then 1 else 3)
    let t := r.txn.toNat
    let late := (s.count 0x4008 5).modFab fun g => { g with spent := match tblFind g.spent t with
      | some n => if n ≤ 1 then tblDel g.spent t else tblIns g.spent t (n - 1)
      | none => g.spent }
    match s.txn t with
    | none => .next late
    | some x =>
      if r.dstNode.toNat ≠ s.fab.node || r.op.toNat ≠ x.op then .next late
      else match x.sent.find? fun l => x.op != 1 || l.item.line == r.line.toNat with
        | none => .next late
        | some l =>
          let y := { x with sent := x.sent.erase l, epoch := none }
          let st := r.status.toNat
          if st = stMoved then .next (s.lineAgain t y { l with wait := .none, hint := some (r.epoch, r.hintNode.toNat) })
          else if st = stEpochWait then
            .next (s.lineAgain t y { l with wait := .epoch (s.tick + s.obj 0x4007 1 * ticksPerUs), hint := none })
          else if st = stBusy then
            .next (s.lineAgain t y { l with wait := .gateway (s.tick + s.obj 0x4205 4 * ticksPerUs) })
          else .next ((s.setTxn t y).sentDone t x.op l st r.value.toNat r.payload)

/-- LINE_TIMEOUT (R210). -/
def execLineTimeout (txn : Nat) (s : State) : Res :=
  match s.txn txn with
  | none => .next s
  | some x =>
    if s.live && x.deadline.any s.past then
      .next (((if x.sent.isEmpty then s else s.modFab fun g => { g with spent := tblIns g.spent txn x.sent.length })).txnEnd txn x stTimeout 0 [])
    else .next s

/-- A refused request whose wait `due` says is over goes again. -/
def State.replayDue (s : State) (txn : Nat) (due : LineWait → Bool) (counts : Bool) : State :=
  match s.txn txn with
  | none => s
  | some x => match x.again.find? fun l => due l.wait with
    | none => s
    | some l =>
      if !s.live then s
      else (s.lineTx txn { x with again := x.again.erase l } l true false counts).getD s

/-- EPOCH_WAIT_REPLAY (R225). -/
def execEpochWaitReplay (txn : Nat) (s : State) : Res :=
  .next (s.replayDue txn (fun w => match w with | .epoch t => s.past t | _ => false) true)

/-- GATEWAY_BUSY_REPLAY (08 R256). -/
def execGatewayBusyReplay (txn : Nat) (s : State) : Res :=
  .next (s.replayDue txn (fun w => match w with | .gateway t => s.past t | _ => false) false)

/-- A record message of `from_`: the requests become transactions of this gateway, the answers go to their sources. None
when there are not enough transaction numbers (08 R255, R257). R257 asks for a response slot per record too and gives no number of them:
there is always one (DESIGN CHOICE, log entry 48). -/
def State.gwRecords (s : State) (from_ : Nat) (bs : List Byte) : Option State :=
  let rs := gwRecs s.bay 128 bs
  let need := (rs.filter fun r => match r with | .req _ => true | .rsp _ => false).length
  if 49152 < tblCount s.fab.txns (fun t _ => decide (16384 ≤ t)) + tblCount s.fab.spent (fun t _ => decide (16384 ≤ t)) + need then none
  else some (rs.foldl (fun t r => match r with
    | .rsp a => t.gwAnswer a
    | .req q => match findUp t.txnFree 16384 49152 with
      | none => t
      | some k => (t.setTxn k {
          owner := .far from_ q.srcNode.toNat q.txn.toNat q.line.toNat, ctx := 256, op := q.op.toNat, key := q.key, comb := q.comb,
          todo := [⟨q.line.toNat, q.addr, q.operand, q.payload⟩], sent := [], again := [], shared := [], status := stOk,
          deadline := none, order := t.fab.nextOrder, rank := 3, epoch := some q.epoch }).modFab fun g =>
            { g with nextOrder := g.nextOrder + 1 }) s)

end Sys2Proof.Machine
end

