-- ==== Sys2Proof/Machine/Migrate.lean ====
section
/-! DEFINITION. Migration below its commands (06 R187, R188): messages between state engines, the source and the peer.
The manual names the messages and not their layout: the 64-byte header and the field order here are the model's
(DESIGN CHOICE, log entry 23). -/

namespace Sys2Proof.Machine

/-! ### Messages -/

/-- Header of a migration message. -/
def migHeader (kind handle n status : Nat) : List Byte := leBytes 64 (kind + handle * 2 ^ 16 + n * 2 ^ 64 + status * 2 ^ 128)

/-- Bytes of a binding record (05 R131). -/
def bindNum (b : BindRec) : Nat :=
  b.bver.toNat + b.lgn.toNat * 2 ^ 16 + b.resFmt.toNat * 2 ^ 24 + b.parkMask.toNat * 2 ^ 32 + b.kvh.toNat * 2 ^ 40 + b.dK.toNat * 2 ^ 52
  + b.dV.toNat * 2 ^ 68
/-- H fields of a lease entry (R165). -/
def leaseNum (l : LeaseRec) : Nat :=
  l.tier.toNat + b2n l.partnerEn * 2 ^ 64 + b2n l.demoteEn * 2 ^ 65 + l.demoteTtl.toNat * 2 ^ 72 + l.demoteTo.toNat * 2 ^ 104
  + l.partner.toNat * 2 ^ 116 + l.len.toNat * 2 ^ 128 + l.key.toNat * 2 ^ 160 + l.base.toNat * 2 ^ 192

def offerPageBytes (p : OfferPage) : List Byte :=
  leBytes 32 (p.index + p.frame * 2 ^ 32 + p.tier * 2 ^ 72 + p.fmt * 2 ^ 80 + p.fill * 2 ^ 88 + b2n p.dual * 2 ^ 104 + b2n p.pinned * 2 ^ 105
    + p.crc.toNat * 2 ^ 128 + p.gen.toNat * 2 ^ 160)

def offerBytes (o : Offer) : List Byte :=
  leBytes 64 (o.srcDev.toNat + o.srcHandle.toNat * 2 ^ 16 + o.dstHandle.toNat * 2 ^ 40 + o.ctx.toNat * 2 ^ 64 + b2n o.parked * 2 ^ 72
    + o.homeDie.toNat * 2 ^ 80 + o.binding.toNat * 2 ^ 88 + o.total * 2 ^ 96 + o.ttlMs.toNat * 2 ^ 128 + o.expiry.toNat * 2 ^ 160
    + o.parkFmt.toNat * 2 ^ 168 + b2n o.dual * 2 ^ 176 + o.dirTier * 2 ^ 184 + o.dirDepth * 2 ^ 192 + o.dirRoot * 2 ^ 200
    + o.ttlLeft % 2 ^ 64 * 2 ^ 256)
  ++ leBytes 64 (bindNum o.rcd)
  ++ leBytes 8 o.tokens ++ leBytes 16 (o.pins.length + o.leaves.length * 2 ^ 16 + o.pages.length * 2 ^ 48 + o.leases.length * 2 ^ 80)
  ++ (o.pins.flatMap fun p => leBytes 2 p) ++ (o.leaves.flatMap fun l => leBytes 4 l) ++ o.pages.flatMap offerPageBytes
  ++ o.leases.flatMap fun l => leBytes 2 l.index ++ leBytes 32 (leaseNum l.rcd)

/-- Bytes of a message, but for what a PAGE or DIR carries. -/
def migBytes : MigMsg → List Byte
  | .offer o => migHeader 1 o.dstHandle.toNat 0 0 ++ offerBytes o
  | .accept h => migHeader 2 h 0 0
  | .refuse h st => migHeader 3 h 0 st
  | .page h n => migHeader 4 h n 0
  | .dir h => migHeader 5 h 0 0
  | .ready h => migHeader 6 h 0 0
  | .release h => migHeader 7 h 0 0
  | .abort h => migHeader 8 h 0 0

/-- The context number that a joined peer has for `ctx` (12 R356). -/
def State.peerCtx (s : State) (ctx dev : Nat) : Option Nat :=
  (tblFind s.sec.ctx ctx).bind fun c => (c.peers.find? fun p => p.1 == dev).map (·.2)

/-- A message to the state engine of device `dev`, for session `h` of context `ctx` here. -/
def State.migSend (s : State) (ctx dev h : Nat) (m : MigMsg) (more : List Byte) : Except Nat State :=
  match s.peerCtx ctx dev with
  | none => .error stKey
  | some pc =>
    let e := s.fab.map.idEnt dev
    if e.kind = 0 ∨ e.lost then .error stNoRoute
    else
      let data := migBytes m ++ more
      .ok (s.bulkIssue e.node (bulkMsg 1 ctx 1 1 (BitVec.ofNat 32 pc) 0 data.length data (.migrate h m)))

/-- Ticks of the 2 s of R188. -/
def migWait : Nat := 1250000000

/-! ### The source -/

/-- Pages that travel: those in Tier 1. -/
def Session.migPages (x : Session) : List Nat := (x.dir.ents.filter fun e => e.2.valid && e.2.tier == 1).map (·.1)

/-- Leases that a session's copies use. -/
def State.usedLeases (s : State) (x : Session) : List Nat :=
  let own := (x.dir.ents.filter fun e => e.2.valid && decide (2 ≤ e.2.tier)).map fun e => frameLease e.2.frame
  let ext := if 2 ≤ x.dir.tier then [frameLease x.dir.root] else []
  let all := (own ++ ext).foldl (fun a l => insAsc l a) []
  all.foldl (fun a l => match s.paired x.ctx l with | some p => if x.dual then insAsc p (insAsc l a) else insAsc l a | none => insAsc l a) []

/-- The OFFER of a session (R187 step 3). -/
def State.offerOf (s : State) (h pc : Nat) (x : Session) : Offer :=
  { srcDev := BitVec.ofNat 16 s.fab.ownId, srcHandle := BitVec.ofNat 24 h, dstHandle := BitVec.ofNat 24 x.peerHandle, ctx := BitVec.ofNat 8 pc,
    parked := x.migState == .parked, homeDie := BitVec.ofNat 2 x.homeDie, binding := BitVec.ofNat 8 x.binding, rcd := s.sbind x,
    total := x.move.total, ttlLeft := x.ttlLeft, ttlMs := BitVec.ofNat 32 x.ttlMs, expiry := BitVec.ofNat 2 x.expiry,
    tokens := x.tokens, parkFmt := BitVec.ofNat 4 x.parkFmt, dual := x.dual, dirTier := x.dir.tier, dirRoot := x.dir.root, dirDepth := x.dir.depth,
    leaves := x.dir.leaves.map (·.1), pins := x.pins,
    pages := (x.dir.ents.filter fun e => e.2.valid).map fun e =>
      let p := s.readPte x.ctx e.2
      ⟨e.1, p.tier, p.frame, p.fmt, p.fill, p.crc, p.gen, p.dual, p.pinned⟩,
    leases := (s.usedLeases x).filterMap fun l => (s.lease x.ctx l).map fun y => ⟨l, y.rcd⟩ }

/-- The source returns to its earlier state (R188); a session lost meanwhile stays LOST. Its descriptor is in the cache again where it
is awake (05 R129). -/
def State.migBack (s : State) (h status : Nat) : State :=
  match s.sess h with
  | none => s
  | some x =>
    let t := s.moveEnd h
    let st : SState := if x.state = .lost then .lost else x.migState
    let y := { (t.sess h).getD x with mig := .none, peerDev := 0, peerHandle := 0, migStatus := 0
                                      ttlDeadline := if st = SState.parked then s.tick + x.ttlLeft else 0 }
    let z := if x.state = .lost then y else y.goto s.tick st
    let u := t.setSess h z
    (if st.awake then u.descTouch h else u).sesEvent h x z 1 status 4

/-- A message that decides ownership is sent, or cannot be: the source stays MIGRATING. -/
def State.migDecide (s : State) (h : Nat) (x : Session) (m : MigMsg) : State :=
  match s.migSend x.ctx x.peerDev h m [] with
  | .ok t => t
  | .error st => s.sesEvent h x x 1 st 4

/-- The source sends ABORT (R188); the event will carry `status`. -/
def State.migAbort (s : State) (h status : Nat) : State :=
  match s.sess h with
  | none => s
  | some x =>
    let t := (s.orphan (Purpose.ofSession h)).modSes fun g => { g with movers := tblKeep g.movers fun _ j => j.handle != h }
    let y := { x with mig := .aborting, migStatus := status }
    (t.setSess h y).migDecide h y (.abort x.peerHandle)

/-- Every page has been sent: the directory follows when it is in Tier 1, and READY is awaited. -/
def State.migNext (s : State) (h : Nat) : State :=
  match s.sess h with
  | none => s
  | some x =>
    if x.mig != .sending || !x.migPages.all (fun n => (tblFind x.sent n).isSome) then s
    else
      let y := { x with mig := .sentLast, migDeadline := s.tick + migWait }
      if x.dir.tier = 1 then
        match (s.setSess h y).migSend x.ctx x.peerDev h (.dir x.peerHandle) (dirBytes x.dir) with
        | .ok t => t
        | .error st => s.migAbort h st
      else s.setSess h y

/-- A mover sends page `n` as it is. -/
def State.migPage (s : State) (mv h n : Nat) (ue : Option Nat) : State :=
  match s.sess h with
  | none => s
  | some x => match s.moverRead mv h n ue x with
    | .error t => t.migAbort h stHbmUe
    | .ok pay =>
      let y := { x with sent := tblIns x.sent n (0, crc32c pay) }
      match (s.setSess h y).migSend x.ctx x.peerDev h (.page x.peerHandle n) pay with
      | .ok t => t.migNext h
      | .error st => (s.setSess h y).migAbort h st

/-- MIGRATE, its checks passed: the session is IDLE or PARKED. R187 is silent on a PARKED session whose revival is suspended or that is
being demoted, and on an IDLE one that is HELD: the revival or the demotion is abandoned, and the hold ends first (DESIGN CHOICE, log
entry 39). An IDLE session whose page is being landed again keeps what it has landed: that page travels once it has landed. -/
def State.migStart (s : State) (h : Nat) (dev ph : Nat) : State :=
  let s0 := s.unhold h
  let s1 := if (s0.sess h).any fun x => x.state == .idle then s0 else s0.abandonRevival h
  match s1.sess h with
  | none => s
  | some x0 =>
    let s2 := if x0.demoting then (s1.runsFree x0 x0.move.lease).moveEnd h else s1
    let x := { (s2.sess h).getD x0 with demoting := false, extWait := false }
    let y : Session := { x with
      mig := .offered, migState := x.state, peerDev := dev, peerHandle := ph, migStatus := 0, migDeadline := s.tick + migWait
      ttlLeft := x.ttlDeadline - s.tick, ttlDeadline := 0
      move := { moveNone with start := s.tick, total := x.migPages.length, kind := 4 } }
    let z := y.goto s.tick .migrating
    let t := s2.setSess h z
    match t.migSend x.ctx dev h (.offer (t.offerOf h ((t.peerCtx x.ctx dev).getD 0) z)) [] with
    | .ok u => u
    | .error st => t.migBack h st

/-- What a message of the source came to: PLACED. -/
def State.migPlaced (s : State) (h : Nat) (m : MigMsg) : State :=
  match s.sess h with
  | none => s
  | some x => match m with
    | .release _ =>
      if x.mig != .releasing then s
      else
        let s1 := s.each x.dir.ents fun t e => if e.2.tier = 1 then t.entFree x.ctx e.2 else t
        let s2 := if x.dir.tier = 1 then s1.unitsFree x.dir.frames else s1
        let z := { freed x s.tick false with eventCq := x.eventCq }
        (((s2.moveEnd h).setSess h z).count 0x310E 1).sesEvent h x z 1 stOk 4
    | .abort _ => if x.mig == .aborting then s.migBack h x.migStatus else s
    | .page .. => s.setSess h { x with move := { x.move with done := x.move.done + 1 } }
    | _ => s

/-- A message ended with a failing status. An OFFER that timed out may have been delivered: ABORT follows, and the source returns
only once it is placed; one that the peer did not take returns the source (DEDUCED, log entry 23). -/
def State.migFailed (s : State) (h status : Nat) (m : MigMsg) : State :=
  match s.sess h with
  | none => s
  | some x => match m with
    | .offer _ =>
      if x.mig != .offered then s else if status = stTimeout then s.migAbort h status else s.migBack h status
    | .page .. | .dir _ => if x.mig != .none then s.migAbort h status else s
    | .release _ | .abort _ => s.sesEvent h x x 1 status 4
    | _ => s

/-! ### The peer -/

/-- The incoming session of `h` is freed; the handle returns to FREE. -/
def State.migDrop (s : State) (h : Nat) : State :=
  match s.sess h with
  | none => s
  | some x =>
    let s1 := s.each x.dir.ents fun t e => if e.2.tier = 1 && e.2.valid then t.unitFree e.2.frame else t
    let s2 := if x.dir.tier = 1 then s1.unitsFree x.dir.frames else s1
    (s2.moveEnd h).setSess h (freed x s.tick false)

/-- Directory and pages of an incoming session: frames for every Tier 1 page, and for the directory when it comes along. -/
def State.migFrames (s : State) (o : Offer) : Option (Dir × State) :=
  let ctx := o.ctx.toNat
  let die := o.homeDie.toNat
  let pte := fun (p : OfferPage) (frame : Nat) (pend : Bool) => (⟨p.gen, p.crc, p.dual, false, pend, pend, p.pinned, true, p.fill, p.fmt, p.tier, frame⟩ : Pte)
  let start : Option (Dir × State) :=
    if o.dirTier = 1 then s.dirFresh ctx die
    else
      let d0 : Dir := { dirNone with
        leaves := o.leaves.map fun l => (l, 0), depth := o.dirDepth
        inter := if o.dirDepth = 0 then [] else if o.dirDepth = 1 then [(0, 0)]
                 else (0, 0) :: (o.leaves.foldl (fun a l => insAsc (l / 512 + 1) a) []).map fun i => (i, 0) }
      some (dirPlace d0 (fun i => o.dirRoot + i) o.dirTier, s)
  o.pages.foldl (fun a p => match a with
    | none => none
    | some (d, t) =>
      match (if o.dirTier = 1 then t.dirNeed ctx die p.index d else some (d, t)) with
      | none => none
      | some (d1, t1) =>
        if p.tier = 1 then
          (t1.unitAlloc ctx die (.pages (footprint o.rcd p.fmt))).map fun r => (d1.setEnt p.index (pte p r.1 true), r.2)
        else some (d1.setEnt p.index (pte p p.frame false), t1)) start

/-- Step 4 of R187: the status, or the state with the incoming session. -/
def State.migAccept (s : State) (o : Offer) : Except Nat State :=
  let ctx := o.ctx.toNat
  let h := o.dstHandle.toNat
  match tblFind s.ses.migIn h with
  | none => .error stMigrateRefused
  | some m =>
    if m.ctx ≠ ctx ∨ m.srcDev ≠ o.srcDev.toNat ∨ m.srcHandle ≠ o.srcHandle.toNat then .error stMigrateRefused
    else if tblFind s.ses.binds (ctx * 256 + o.binding.toNat) ≠ some o.rcd then .error stBinding
    else match s.migFrames o with
      | none => .error stNoFrame
      | some (d, t) =>
        let same := fun (l : OfferLease) => (s.lease ctx l.index).any fun y =>
          y.valid && !y.lost && y.rcd.base == l.rcd.base && y.rcd.key == l.rcd.key && y.rcd.len == l.rcd.len && y.rcd.tier == l.rcd.tier
          && y.rcd.partnerEn == l.rcd.partnerEn && (!l.rcd.partnerEn || y.rcd.partner == l.rcd.partner)
        if !o.leases.all same then .error stMigrateRefused
        else if !o.parked && s.awakeFull then .error stAwakeLimit
        else
          let old := (s.sess h).getD (sesFree ctx)
          let x : Session := { sesFree ctx with
            state := if o.parked then .parked else .reviving, binding := o.binding.toNat, homeDie := o.homeDie.toNat,
            sgen := old.sgen + 1, dir := d, tokens := o.tokens, eventCq := m.eventCq, lastChange := s.tick, pins := o.pins, dual := o.dual
            parkFmt := o.parkFmt.toNat, expiry := o.expiry.toNat, ttlMs := o.ttlMs.toNat, ttlLeft := o.ttlLeft
            peerDev := o.srcDev.toNat, peerHandle := o.srcHandle.toNat, mig := .inReceiving, migDeadline := s.tick + migWait
            extWait := o.dirTier == 1, move := { moveNone with start := s.tick, total := o.total, kind := 5 } }
          let u := ((t.descTouch h).setSess h x).modSes fun g => { g with migIn := tblDel g.migIn h }
          .ok u

/-- Everything of the incoming session is here: READY (R187 step 6). -/
def State.migReady (s : State) (h : Nat) : State :=
  match s.sess h with
  | none => s
  | some x =>
    if x.mig != .inReceiving || x.extWait || x.dir.ents.any (fun e => e.2.copyPend) then s
    else match s.migSend x.ctx x.peerDev h (.ready x.peerHandle) [] with
      | .ok t => t.setSess h { x with mig := .inReady }
      | .error _ => s

/-- A PAGE or DIR of an incoming session has come. -/
def State.migData (s : State) (ctx h n : Nat) (dir : Bool) (data : List Byte) : State :=
  match s.sess h with
  | none => s
  | some x =>
    if x.mig != .inReceiving || x.ctx != ctx then s
    else
      let e := x.dir.ent n
      let y := { x with migDeadline := s.tick + migWait }
      if dir then (s.setSess h { y with extWait := false }).migReady h
      else if !e.copyPend then s
      else ((s.hwrite e.frame 0 data).setSess h { y with
        dir := y.dir.setEnt n { e with copyPend := false }, move := { y.move with done := y.move.done + 1 } }).migReady h

/-- A message reaches the state engine's inbox (08 R245): pages and directories are taken at once, the rest waits. -/
def State.inboxIn (s : State) (node ctx : Nat) (data : List Byte) : State :=
  let v := leNat (data.take 64)
  let kind := bits v 7 0
  if kind = 4 ∨ kind = 5 then s.migData ctx (bits v 39 16) (bits v 95 64) (kind == 5) (data.drop 64)
  else s.modSes fun g => { g with inbox := g.inbox ++ [(node, ctx, data)] }

/-- A message taken from the inbox: its sender and context. -/
def State.takeMsg (s : State) (m : MigMsg) : Option (Nat × Nat × State) :=
  let bs := migBytes m
  match s.ses.inbox.find? fun e => e.2.2 == bs with
  | none => none
  | some e => some (e.1, e.2.1, s.modSes fun g => { g with inbox := g.inbox.erase e })

/-- RELEASE completes the incoming session (R187 step 8): runs of its parked copies are the peer's. -/
def State.migComplete (s : State) (h : Nat) : State :=
  match s.sess h with
  | none => s
  | some x =>
    let b := s.sbind x
    let mark := fun (t : State) (f k : Nat) =>
      let put := fun (y : Lease) => { y with runs := tblIns y.runs (frameOff f) k }
      let u := t.updLease x.ctx (frameLease f) put
      match u.paired x.ctx (frameLease f) with | some p => u.updLease x.ctx p put | none => u
    let s1 := s.each (x.dir.ents.filter fun e => e.2.valid && decide (2 ≤ e.2.tier)) fun t e => mark t e.2.frame (parkedFrames b e.2.fmt)
    let s2 := if 2 ≤ x.dir.tier then mark s1 x.dir.root (extentFrames x.dir) else s1
    let y := { x with mig := .none, peerDev := 0, peerHandle := 0, move := moveNone
                      ttlDeadline := if x.state = SState.parked then s.tick + x.ttlLeft else 0 }
    let z := y.goto s.tick (if x.state = SState.reviving then .idle else x.state)
    ((s2.setSess h z).count 0x310E 1).sesEvent h x z 1 stOk 5

end Sys2Proof.Machine
end

