-- ==== Sys2Proof/Machine/Deliver.lean ====
section
/-! DEFINITION. What bulk messages and reads come to (08 R249-R251): LOCAL_DONE, PLACED, an end with a failing status,
data arrived; each goes to the unit that issued it. Truncation's reads (05 R154) and the loss of a lease (06 R190). -/

namespace Sys2Proof.Machine

/-! ### Truncation (05 R154) -/

/-- The entries at or beyond page index `k` are freed. -/
def State.cutPages (s : State) (x : Session) (lgn k : Nat) : State × Session :=
  let d := x.pdir.getD dirNone
  x.dir.ents.foldl (fun a e =>
    if e.1 / lgn < k then a
    else
      let t := a.1.entFree x.ctx e.2
      let p := d.ent e.1
      let t1 := if p.valid && decide (2 ≤ p.tier) then t.copyFree x.ctx p else t
      (t1, { a.2 with dir := a.2.dir.setEnt e.1 pteNone, pdir := a.2.pdir.map fun q => q.setEnt e.1 pteNone,
                      reland := a.2.reland.filter (· != e.1) })) (s, x)

/-- The page that keeps part of its tokens, in layer group `g` (items 3 and 4). -/
def State.cutTail (a : State × Session) (lgn n g : Nat) : State × Session :=
  let i := n / 256 * lgn + g
  let e := a.2.dir.ent i
  if !e.landed then a
  else
    let b := a.1.sbind a.2
    let t := a.1.zeroSlots b e (n % 256) (256 - n % 256)
    let crc := crc32c (t.hread e.frame 0 (pageBytes b e.fmt))
    (t, { a.2 with dir := a.2.dir.setEnt i { e.bump with fill := n % 256, crc := crc, dirty := true } })

/-- The session is cut to `n` tokens; its directory is in Tier 1. -/
def State.truncate (s : State) (h n : Nat) : State :=
  match s.sess h with
  | none => s
  | some x =>
    let lgn := s.lgn x
    let a := s.cutPages x lgn (ceilDiv n 256)
    let b := if n % 256 = 0 then a else (List.range lgn).foldl (fun a g => State.cutTail a lgn n g) a
    let r := b.1.dirTrim b.2.dir
    let y := ({ b.2 with dir := r.1, tokens := n } : Session).recount lgn
    let all := y.dir.ents.all fun e => !e.2.valid || e.2.landed
    if all then
      ((r.2.setSess h ({ y with ttlDeadline := 0 }.goto s.tick .idle)).dropParked h)
    else
      let kept := y.pdir.isSome
      let z := { y with ttlDeadline := s.tick + ttlTicks y.ttlMs
                        move := if kept then { y.move with kind := 2, suspended := true, held := false } else moveNone }
      let t := r.2.setSess h (z.goto s.tick .parked)
      if kept then (t.orphan (Purpose.ofSession h)).modSes fun g => { g with
        movers := tblKeep g.movers fun _ j => j.handle != h, staged := g.staged.filter fun j => j.handle != h } else t

/-- The directory extent of a session to be truncated has been read: it comes into Tier 1, or its copy fails. -/
def State.truncExtent (s : State) (h : Nat) (img : List Byte) : State :=
  match s.sess h with
  | none => s
  | some x => match x.trunc with
    | none => s
    | some c =>
      let done := fun (t : State) (st : Nat) => t.cmdDone c.sq c.cq x.ctx c.head c.tag 0x82 st 0
      if s.extentOk x.ctx (frameOff x.dir.root) img then
        let a := x.dir.ents.foldl (fun a e => State.sweepEnt h a e.1 e.2) (s.dueRecords h x x.dir, { x with extDue := [] })
        let d := { c.dir with ents := a.2.dir.ents }
        done (((a.1.dirFree x.ctx x.dir).setSess h { a.2 with trunc := none, dir := d }).truncate h c.n) stOk
      else
        let t := s.count 0x310C 3
        let gone := fun (u : State) =>
          done (((u.dirFree x.ctx c.dir).setSess h { x with trunc := none }).loseAll h { x with trunc := none }) stLost
        if x.dual && !c.second then
          match (t.setSess h { x with trunc := some { c with second := true } }).requestExtent h true (.truncDir h) with
          | (u, none) => u
          | (u, some _) => gone u
        else gone t

/-- The read of a truncation ended with `status`. -/
def State.truncFail (s : State) (h status : Nat) : State :=
  match s.sess h with
  | none => s
  | some x => match x.trunc with
    | none => s
    | some c => ((s.dirFree x.ctx c.dir).setSess h { x with trunc := none }).cmdDone c.sq c.cq x.ctx c.head c.tag 0x82 status 0

/-! ### Outcomes -/

/-- Some message of the page `n` of handle `h` has not reached LOCAL_DONE. -/
def State.flying (s : State) (h n : Nat) : Bool :=
  let mine := fun (u : Purpose) => match u with
    | .parkPage a m _ => a == h && m == n
    | .parkDir a _ => a == h && n == dirIdx
    | .migrate a (.page _ m) => a == h && m == n
    | .drain c p => 2 ^ 24 + c == h && p == n
    | _ => false
  tblAny s.bulk.flows (fun _ f => tblAny f.msgs (fun _ m => mine m.purpose) || f.waiting.any fun m => mine m.purpose)
  || s.bulk.noFlow.any fun e => mine e.2.purpose

/-- Movers whose copies have all reached LOCAL_DONE are free again. -/
def State.freeMovers (s : State) : State :=
  s.modSes fun g => { g with movers := tblKeep g.movers fun _ j => j.land || s.flying j.handle j.n }

/-- A GET service slot is free again (R251). -/
def State.served (s : State) (node seq : Nat) : State :=
  s.modBulk fun g => { g with serves := tblDel g.serves (node * 2 ^ 48 + seq) }

/-- LOCAL_DONE (R249). -/
def State.msgLocal (s : State) (u : Purpose) : State :=
  let t := s.freeMovers
  match u with
  | .getData node seq => s.served node seq
  | .ringPage n k g => ((t.ringPageDone n k g).ringPump n ringBatch).finish n
  | _ => t

/-- PLACED (R250). -/
def State.msgPlaced (s : State) (u : Purpose) : State :=
  match u with
  | .parkPage h n second => s.copyPlaced h n second
  | .parkDir h second => s.copyPlaced h dirIdx second
  | .migrate h m => s.migPlaced h m
  | .drain ctx _ => s.drainPlaced ctx
  | .join ctx peer pc => s.joinDone ctx peer pc stOk
  | _ => s

/-- Purposes whose outcome is told by PLACED (R250). -/
def Purpose.needsPlace : Purpose → Bool
  | .parkPage .. | .parkDir .. | .migrate .. | .drain .. | .join .. => true
  | _ => false

/-- Intake of a record message that failed: posted writes have failed, the rest is dropped (08 R256). -/
def State.gwLost (s : State) (tags : List Nat) : State :=
  (tags.foldl (fun t k => match tblFind t.fab.intake k with
    | none => t
    | some e =>
      let u := t.modFab fun g => { g with intake := tblDel g.intake k }
      if e.posted then u.gwFailed e.req.srcNode.toNat else u) s).gwRelease

/-- A message or read ended with a status other than ST_OK. A demotion whose source lease is lost is left to the sweep (06 R192). -/
def State.msgFail (s : State) (u : Purpose) (status : Nat) : State :=
  match u with
  | .parkPage h _ _ | .parkDir h _ => (s.writeFail h status).freeMovers
  | .demoteRead h _ => if status = stLease then s else s.demoteFail h status
  | .revivePage h _ _ | .reviveDir h _ => s.readFail h status
  | .truncDir h => s.truncFail h status
  | .migrate h m => (s.migFailed h status m).freeMovers
  | .ringPage n _ _ | .ringCredit n _ => s.endStep n status none
  | .drain ctx _ => (s.ckptFail ctx status true).freeMovers
  | .restore ctx _ => s.restoreEnd ctx status none false
  | .gwRecords _ tags => s.gwLost tags
  | .join ctx peer pc => s.joinDone ctx peer pc status
  | .getData node seq => s.served node seq
  | .gwAnswers _ | .nothing => s

/-- The data of a GET has come (R251). -/
def State.getDone (s : State) (u : Purpose) (bs : List Byte) : State :=
  match u with
  | .revivePage h n second => s.modSes fun g => { g with staged := g.staged ++ [⟨h, n, second, true, bs⟩] }
  | .reviveDir h second => s.extentRead h second bs
  | .demoteRead h n =>
    if n % 2 ^ 32 = dirIdx then s.demoteExtent h (decide (2 ^ 32 ≤ n)) bs
    else s.modSes fun g => { g with staged := g.staged ++ [⟨h, n % 2 ^ 32, decide (2 ^ 32 ≤ n), false, bs⟩] }
  | .truncDir h => s.truncExtent h bs
  | .restore ctx part => s.restoreData ctx part bs
  | _ => s

/-! ### The loss of a lease (06 R190) -/

/-- Own PUTs and GETs of context `ctx` whose address lies in a window end with ST_LEASE, without a further packet. -/
def State.endWindow (s : State) (ctx base len : Nat) : State :=
  let hit := fun (m : BulkMsg) => m.ctx == ctx && m.typ != 3 && decide (base ≤ m.addr.toNat) && decide (m.addr.toNat < base + len)
  let own := s.bulk.flows.flatMap fun e => ((e.2.msgs.filter fun m => hit m.2).map fun m => m.2.purpose) ++ (e.2.waiting.filter hit).map (·.purpose)
  let late := (s.bulk.noFlow.filter fun e => hit e.2).map (·.2.purpose)
  let read := fun (g : GetRec) => g.ctx == ctx && decide (base ≤ g.addr.toNat) && decide (g.addr.toNat < base + len)
  let gets := (s.bulk.gets.filter fun e => read e.2).map (·.2.purpose)
  let t := s.modBulk fun g => { g with
    flows := tblMap g.flows fun _ f => { f with msgs := tblKeep f.msgs fun _ m => !hit m, waiting := f.waiting.filter fun m => !hit m }
    noFlow := g.noFlow.filter fun e => !hit e.2
    gets := tblKeep g.gets fun _ r => !read r }
  (own ++ late ++ gets).foldl (fun u p => u.msgFail p stLease) t

/-- Moves that write to lease `l` fail with ST_LEASE though no message of theirs is under way. -/
def State.endMoves (s : State) (ctx l : Nat) : State :=
  let s1 := (s.ses.tbl.filter fun e => e.2.ctx == ctx && (e.2.state == .parking && !e.2.parkPend || e.2.demoting)
      && decide (l ∈ s.moveLeases e.2)).foldl (fun t e => match t.sess e.1 with
    | some x => if (x.state == .parking && x.move.kind == 1) || x.demoting then t.writeFail e.1 stLease else t
    | none => t) s
  let k := s1.ckpt ctx
  if (k.state = 2 ∨ k.state = 3) && k.man.any (fun m => m.lease == l) then s1.ckptFail ctx stLease true else s1

/-- A lease becomes lost. -/
def State.loseLease (s : State) (ctx l : Nat) : State :=
  match s.lease ctx l with
  | none => s
  | some x =>
    if x.lost || !x.valid then s
    else
      let moves := s.endMoves ctx l
      let t := (moves.updLease ctx l fun y => { y with lost := true }).endWindow ctx x.rcd.base.toNat (x.rcd.len.toNat * 4096)
      (t.modSes fun g => { g with tbl := tblMap g.tbl fun _ y => if y.ctx = ctx ∧ y.state ≠ .free then { y with sweep := true } else y }).otherEvent
        x.cq ctx 0x0011 stOk l 0

end Sys2Proof.Machine
end

