-- ==== Sys2Proof/Machine/Bulk.lean ====
section
/-! DEFINITION. The bulk transport (08 R233-R252): its sending and receiving sides, FLUSH and PLACED, reads, relaying by
gateways (R254), and the key exchange (12 R349-R353). -/

namespace Sys2Proof.Machine

/-! ### The sending side -/

/-- Messages that waited for a flow-cache entry toward `node` enter it when one can be had (R240). -/
def State.pullFlow (s : State) (node : Nat) : State :=
  let mine := s.bulk.noFlow.filter fun e => e.1 == node
  if mine.isEmpty then s
  else match s.flowLoad node with
    | none => s
    | some t => (t.modBulk fun g => { g with noFlow := g.noFlow.filter fun e => e.1 != node }).updFlow node fun f =>
        { f with waiting := f.waiting ++ mine.map (·.2) }

/-- The message leaves the flow. -/
def State.dropMsg (s : State) (node seq : Nat) (m : BulkMsg) : State :=
  let t := s.updFlow node fun f => { f with msgs := tblDel f.msgs seq, inflight := f.inflight - m.inflight }
  if m.typ = 2 then t.modBulk fun g => { g with gets := tblDel g.gets (node * 2 ^ 48 + seq) } else t

/-- The expiry of a settled message or GET at tick `at_` is still to come (11 R332). -/
def State.owesExpiry (s : State) (at_ : Option Nat) : State :=
  match at_ with
  | some d => if s.past d then s else s.modBulk fun g => { g with expiries := g.expiries ++ [d] }
  | none => s

/-- A message ends with a status other than ST_OK (R246, R247). A GET that its GET_DATA has completed already only leaves the flow (R251). -/
def State.bulkEnd (s : State) (node seq status : Nat) (m : BulkMsg) : State :=
  if m.typ = 2 ∧ (tblFind s.bulk.gets (node * 2 ^ 48 + seq)).isNone then s.dropMsg node seq m
  else
    let t := if status = stTimeout then s.count 0x4204 3 else s.owesExpiry (m.first.map fun f => f + 1000 * ticksPerMs)
    (t.dropMsg node seq m).msgFail m.purpose status

/-- A purpose that awaits PLACED joins the FLUSH not yet sent, or the next one (R250). -/
def Flow.awaitPlace (f : Flow) (seq : Nat) (u : Purpose) : Flow :=
  match f.flush with
  | none => { f with flush := some { upto := f.nextSeq - 1, first := 0, sentAt := 0, timeout := 0, acked := false, tx := [], port := 0, waits := [u] } }
  | some l =>
    if l.tx.isEmpty && decide (seq ≤ l.upto) then { f with flush := some { l with waits := l.waits ++ [u] } }
    else { f with placeWait := f.placeWait ++ [u] }

/-- Every packet of message `seq` is acknowledged: LOCAL_DONE (R249). -/
def State.bulkDone (s : State) (node seq : Nat) (m : BulkMsg) : State :=
  let t := s.updFlow node fun f =>
    let g := { f with msgs := tblDel f.msgs seq }
    if m.purpose.needsPlace then g.awaitPlace seq m.purpose else g
  (if m.typ = 2 then t else t.owesExpiry (m.first.map horizon)).msgLocal m.purpose

/-- The message names a hall address, whose owner it goes to. -/
def BulkMsg.addressed (m : BulkMsg) : Bool := m.typ == 2 || (m.typ == 1 && (m.sink == 0 || m.sink == 2))

/-- The whole message goes again as a new one, to `node'` (R246). -/
def State.reissue (s : State) (node seq : Nat) (m : BulkMsg) (dst : Option (W32 × Nat)) : State :=
  match dst with
  | none => s.bulkEnd node seq stNoRoute m
  | some (e, n) => (s.dropMsg node seq m).bulkIssue n { m with pkts := [], next := 0, first := none, epoch := e }

/-- Owner of the message's address under the current map. -/
def State.mapRoute (s : State) (m : BulkMsg) : Option (W32 × Nat) :=
  let a := m.addr.toNat
  if !s.idOk a then none else (s.ownerOf a).map fun o => (s.fab.map.epoch, o.1)

/-- An agreement is started when a key has served 2^30 numbers (12 R353). -/
def State.rekey (s : State) (node : Nat) : State :=
  match s.flow node, (s.fkeys node).tx with
  | some f, some k => if decide (2 ^ 30 ≤ (f.xmit + 2 ^ 32 - k.start % 2 ^ 32) % 2 ^ 32) && serialGe f.xmit k.start then s.hello node else s
  | _, _ => s

/-- Packet `off` of message `seq`, begun before, goes out now, where a port can take it and it is the turn of its class. -/
def State.bulkTx (s : State) (node seq off : Nat) (f : Flow) (m : BulkMsg) : Option State :=
  match s.hop node (pairNum m.addr.toNat) with
  | none => some (s.bulkEnd node seq stNoRoute m)
  | some (hop, trunk) =>
    match s.txKey node f, s.nextPort f.rot 0 (m.flits off) trunk ((tblFind m.pkts off).map (·.port)) with
    | some key, some p => (s.classTurn p 0 (m.flits off)).map fun s0 => (s0.txPkt node seq off p hop key f m).rekey node
    | _, _ => none

/-- A packet is resent, with the same number and offset (R247); after ST_EPOCH_WAIT it is routed by the current map, and a message whose
address another node owns goes to that one as a new message (R246; DEDUCED, log entry 48). -/
def State.resend (s : State) (node seq off : Nat) : Option State :=
  match s.flow node with
  | none => none
  | some f => match tblFind f.msgs seq with
    | none => none
    | some m =>
      let r := s.mapRoute m
      let remap := m.addressed && (tblFind m.pkts off).any (·.remap)
      if !s.inTime m then none
      else if remap && r.any (fun x => x.2 != node) then some (s.reissue node seq m r)
      else s.bulkTx node seq off f { m with epoch := if remap && epNewer s.fab.map.epoch m.epoch then s.fab.map.epoch else m.epoch }

/-- What the issue of a message charges and counts (10 R306; 06 R186). -/
def State.bulkCharge (s : State) (p : Nat) (m : BulkMsg) : State :=
  if 256 ≤ m.ctx then s
  else
    let t := s.fqStart (32 + p) m.ctx m.cls m.cost
    if m.cls = 1 then t.count 0x310A 1 0 m.cost else if m.cls = 2 then t.count 0x310A 2 0 m.cost else t

/-- Data of a message at its first packet: a join record is wrapped now (12 R356). -/
def State.fillMsg (s : State) (node : Nat) (m : BulkMsg) : BulkMsg × State :=
  match m.purpose with
  | .join ctx peer pc => let r := s.joinRecord node ctx peer pc; ({ m with data := r.1, len := r.1.length }, r.2)
  | _ => (m, s)

/-- A waiting message takes its number and sends its first packet on port `p` (R239). -/
def State.beginMsg (s : State) (node p hop key : Nat) (f : Flow) (m0 : BulkMsg) : State :=
  let r := s.fillMsg node m0
  let m := r.1
  let seq := f.nextSeq
  let g := { f with waiting := f.waiting.erase m0, nextSeq := seq + 1, msgs := tblIns f.msgs seq m }
  let rcd : GetRec := { len := m.len, addr := m.addr, key := m.key, ctx := m.ctx, purpose := m.purpose, deadline := horizon s.tick }
  let u := if m.typ = 2 then r.2.modBulk fun b => { b with gets := tblIns b.gets (node * 2 ^ 48 + seq) rcd } else r.2
  ((((u.setFlow node g).txPkt node seq 0 p hop key g m).rekey node).bulkCharge p m)

/-- The first waiting message of the flow whose turn it is at its port begins (10 R307). -/
def State.startMsg (s : State) (node : Nat) (f : Flow) : Option State :=
  f.waiting.findSome? fun m =>
    if !s.mayBegin f m then none
    else match s.bulkPort node f m 0, s.hop node (pairNum m.addr.toNat), s.txKey node f with
      | some p, some (hop, _), some key => (s.portTurn p m.item).map fun t => t.beginMsg node p hop key f m
      | _, _, _ => none

/-- Messages of the flow that wait to begin end (12 R350; R254). -/
def State.endWaiting (s : State) (node status : Nat) : State :=
  match s.flow node with
  | none => s
  | some f => f.waiting.foldl (fun t m => (if status = stTimeout then t.count 0x4204 3 else t).msgFail m.purpose status)
      (s.setFlow node { f with waiting := [] })

/-- BULK_PACKET_SEND (R235): what is due again goes first, then the rest of a message begun, then a new message. A flow
without a usable key starts an agreement (12 R349). -/
def execBulkPacketSend (node : Nat) (s0 : State) : Res :=
  let s := s0.pullFlow node
  match s.flow node with
  | none => .next s0
  | some f =>
    if !s0.live then .next s0
    else
      let again := s.dueAgain f
      let opn := s.openMsg f
      if again.isNone && opn.isNone && f.waiting.isEmpty then .next s
      else if (s.hop node 0).isNone && !f.waiting.isEmpty then .next (s.endWaiting node stNoRoute)
      else if (s.txKey node f).isNone then .next (s.hello node)
      else match again.bind fun a => s.resend node a.1 a.2 with
        | some t => .next t
        | none => match opn.bind fun e => if f.inflight + e.2.counted e.2.next ≤ f.win then s.bulkTx node e.1 e.2.next f e.2 else none with
          | some t => .next t
          | none => .next (((if opn.isSome then none else s.startMsg node f)).getD s)

/-! ### Window and timeouts (R247, R248) -/

/-- The window cut by half, or by a quarter, at most once per window of acknowledged bytes. -/
def Flow.cut (f : Flow) (half : Bool) : Flow :=
  if f.win ≤ f.ackedCut then { f with win := max 4096 (if half then f.win / 2 else f.win * 3 / 4), ackedCut := 0 } else f

/-- An acknowledgment of `n` counted bytes. -/
def Flow.acked (f : Flow) (n delay target : Nat) (ce : Bool) : Flow :=
  let g := { f with inflight := f.inflight - n }
  let h := if ce || decide (target < delay) then g.cut ce else { g with win := min 16777216 (g.win + 4096 * 16384 / g.win) }
  { h with ackedCut := h.ackedCut + n }

/-- A round trip sample. -/
def Flow.sample (f : Flow) (x : Nat) : Flow :=
  { f with srtt := some (match f.srtt with
      | none => x
      | some v => ((v : Int) + ((x : Int) - (v : Int)) / 8).toNat) }

/-- The FLUSH ends with a status other than ST_OK; the next one is issued for those that wait. -/
def State.flushEnd (s : State) (node : Nat) (f : Flow) (l : FlushOut) : State :=
  let open_ := if l.acked ∨ l.tx = [] then f.inflight else f.inflight - 64
  let next : Option FlushOut := if f.placeWait.isEmpty then none else
    some { upto := f.nextSeq - 1, first := 0, sentAt := 0, timeout := 0, acked := false, tx := [], port := 0, waits := f.placeWait }
  (s.setFlow node { f with flush := next, placeWait := [], inflight := open_ }).useFlow node

/-- The FLUSH goes out, where key, port and turn allow (R250); one that cannot be routed ends (R254). -/
def State.flushTx (s1 : State) (node : Nat) : State :=
  match s1.flow node with
  | none => s1
  | some f => match f.flush, s1.hop node 0 with
    | some l, none => l.waits.foldl (fun u p => u.msgFail p stNoRoute) (s1.flushEnd node f l)
    | some l, some (hop, trunk) =>
      let again := !l.tx.isEmpty
      match s1.txKey node f, (s1.nextPort f.rot 0 3 trunk (if again then some l.port else none)).bind fun p =>
          (s1.classTurn p 0 3).map fun t => (p, t) with
      | some key, some (p, s) =>
        let m := { bulkMsg 4 256 3 0 0 0 0 [] Purpose.nothing with epoch := s.fab.map.epoch }
        let k := s.bulkPkt node hop key l.upto 0 again f m []
        let l' := { l with
          first := if again then l.first else s.tick, sentAt := s.tick, timeout := if again then min rtoMax (2 * l.timeout) else s.rto f,
          tx := ((lo32 s.tick, lo32 f.xmit) :: l.tx).take 3, port := p }
        let t := (s.sendPkt p 0 3 (.bulk k)).setFlow node
          { f with flush := some l', xmit := (f.xmit + 1) % 2 ^ 32, rot := p, inflight := if again then f.inflight else f.inflight + 64 }
        ((if again then t.count 0x4204 2 else t).rekey node).useFlow node
      | _, _ => s1
    | none, _ => s1

/-- FLUSH_SEND (R250): every message the FLUSH covers has reached LOCAL_DONE or ended. -/
def execFlushSend (node : Nat) (s : State) : Res :=
  match s.flow node with
  | none => .next s
  | some f => match f.flush with
    | none => .next s
    | some l =>
      if !s.live || !l.tx.isEmpty || decide (f.floor < l.upto) || decide (f.win < f.inflight + 64) then .next s
      else if (s.txKey node f).isNone && (s.hop node 0).isSome then .next (s.hello node)
      else .next (s.flushTx node)

/-- BULK_RETX_TIMEOUT (R247): a packet, or with number 0 the FLUSH, had no answer in time. -/
def execBulkRetxTimeout (node seq offset : Nat) (s : State) : Res :=
  match s.flow node with
  | none => .next s
  | some f =>
    if !s.live then .next s
    else if seq = 0 then
      match f.flush with
      | none => .next s
      | some l =>
        if l.tx.isEmpty || !s.past (l.sentAt + l.timeout) || decide (horizon l.first < s.tick) then .next s
        else .next ((s.setFlow node (f.cut true)).flushTx node)
    else match (tblFind f.msgs seq).bind fun m => (tblFind m.pkts offset).map fun p => (m, p) with
      | none => .next s
      | some (m, p) =>
        if p.acked || p.again || !s.past (p.sentAt + p.timeout) || !s.inTime m then .next s
        else
          let mark := { m with pkts := tblIns m.pkts offset { p with again := true, remap := false, waitTill := s.tick } }
          let t := s.setFlow node { f.cut true with msgs := tblIns f.msgs seq mark }
          .next ((t.resend node seq offset).getD t)

/-- An agreement of this device's own that has had no valid answer. -/
def State.helloEnd (s : State) (node status : Nat) : State :=
  (s.setKeys node { s.fkeys node with hello := none }).endWaiting node status

/-- BULK_MESSAGE_HORIZON (R247): the message, and with number 0 the FLUSH or an agreement (12 R350), ends with
ST_TIMEOUT. -/
def execBulkMessageHorizon (node seq : Nat) (s : State) : Res :=
  match s.flow node with
  | none => .next s
  | some f =>
    if !s.live then .next s
    else if seq = 0 then
      let t := match f.flush with
        | some l =>
          if l.tx.isEmpty || !s.past (horizon l.first) then s
          else l.waits.foldl (fun u p => u.msgFail p stTimeout) ((s.flushEnd node f l).count 0x4204 3)
        | none => s
      .next (if (s.fkeys node).hello.any fun h => s.past h.deadline then t.helloEnd node stTimeout else t)
    else match tblFind f.msgs seq with
      | none => .next s
      | some m => if m.first.any fun t => s.past (horizon t) then .next (s.bulkEnd node seq stTimeout m) else .next s

/-- GET_TIMEOUT (R251). -/
def execGetTimeout (node seq : Nat) (s : State) : Res :=
  match tblFind s.bulk.gets (node * 2 ^ 48 + seq) with
  | none => .next s
  | some g =>
    if !s.live || !s.past g.deadline then .next s
    else
      let t := (s.modBulk fun b => { b with gets := tblDel b.gets (node * 2 ^ 48 + seq) }).count 0x4204 3
      let u := match (s.flow node).bind fun f => tblFind f.msgs seq with
        | some m => t.dropMsg node seq m
        | none => t
      .next (u.msgFail g.purpose stTimeout)

/-! ### Answers at the sender (R246) -/

/-- Counted when an answer finds nothing it refers to (R246; 12 R352). -/
def State.lateAnswer (s : State) : State := s.count 0x4008 5

/-- XMIT of the transmission that an answer refers to. -/
def answered (tx : List (Nat × Nat)) (a : BulkAns) : Option Nat := (tx.find? fun e => e.1 == a.tsEcho.toNat).map (·.2)

/-- The answer's tag verifies (R238; 12 R352). -/
def State.ansOk (s : State) (node xmit : Nat) (a : BulkAns) : Bool :=
  let k := s.fkeys node
  match keyFor k.tx k.txPrev xmit with
  | some key => Config.gcmTag key (ansNonce a xmit) (ansAad a) [] == a.tag
  | none => false

/-- A gateway passes on an answer that is not for it, at once or within 2 us (R254); none when it is for this device. -/
def State.relayAns (s : State) (a : BulkAns) : Option State :=
  let n := a.finalNode.toNat
  if !s.gateway || n = s.fab.node then none
  else match s.hop n (a.msgId.toNat % 2 ^ 48) with
    | none => some (s.count 0x4205 6)
    | some (hop, trunk) =>
      let w : WaitPkt := ⟨1, 3, trunk, .answer { a with dstNode := BitVec.ofNat 16 hop }, some (s.tick + 2 * ticksPerUs)⟩
      some (((if s.fab.sendQ.any (·.vc == 1) then none else s.trySend w)).getD (s.modFab fun g => { g with sendQ := g.sendQ ++ [w] }))

/-- A gateway discards the packets that it could not send onward within 2 us (R254). -/
def State.dropLate (s : State) : State :=
  let late := s.fab.sendQ.filter fun w => w.till.any s.past
  if late.isEmpty then s
  else (s.modFab fun g => { g with sendQ := g.sendQ.filter fun w => !w.till.any s.past }).count 0x4205 6 0 late.length

/-- What the sender does on the status of an ACK to a data packet or GET (R246-R249). A status that R246 does not list, unlisted or
reserved ones with it, ends the message with that status as it came (DESIGN CHOICE, log entry 62). -/
def State.ackIn (s : State) (node seq off : Nat) (f : Flow) (m : BulkMsg) (p : PktSt) (a : BulkAns) : State :=
  let g := f.sample ((s.tick + 2 ^ 32 - a.tsEcho.toNat) % 2 ^ 32)
  let st := a.status.toNat
  let t := (s.setFlow node g).useFlow node
  if st = stOk ∨ st = stDup then
    let m' := { m with pkts := tblIns m.pkts off { p with acked := true, again := false } }
    let u := t.updFlow node fun x =>
      { x.acked (m.counted off) a.delay.toNat (s.obj 0x4202 3) a.ceEcho with msgs := tblIns x.msgs seq m' }
    if m'.done then u.bulkDone node seq m' else u
  else if st = stBusy then t
  else if st = stEpochWait then
    t.updFlow node fun x => { x with msgs := tblIns x.msgs seq { m with
      pkts := tblIns m.pkts off { p with again := true, remap := true, waitTill := s.tick + s.obj 0x4007 1 * ticksPerUs } } }
  else if st = stMoved then
    t.reissue node seq m (if epNewer a.epoch s.fab.map.epoch then some (a.epoch, a.hintNode.toNat) else s.mapRoute m)
  else t.bulkEnd node seq st m

/-- BULK_ACK_RECEIVE (R246). -/
def execBulkAckReceive (port : Nat) (a : BulkAns) (s0 : State) : Res :=
  let s := s0.takeFlits port 1 3
  if !s0.live || !(s0.port port).up then .next s0
  else if a.dstNode.toNat ≠ s.fab.node then .next (s.count 0x4004 1)
  else match s.relayAns a with
    | some t => .next t
    | none =>
      let node := a.srcNode.toNat
      let seq := a.msgId.toNat % 2 ^ 48
      let off := a.offset.toNat
      match s.flow node with
      | none => .next s.lateAnswer
      | some f =>
        if a.typ ≠ 8 ∨ a.hver ≠ 1 ∨ a.msgId.toNat / 2 ^ 48 ≠ s.dev.bootEpoch then .next s.lateAnswer
        else match (tblFind f.msgs seq).bind fun m => (tblFind m.pkts off).map fun p => (m, p) with
          | some (m, p) => match answered p.tx a with
            | none => .next s.lateAnswer
            | some x =>
              if !s.ansOk node x a then .next (s.count 0x4204 4)
              else if p.acked then .next s.lateAnswer
              else .next (s.ackIn node seq off f m p a)
          | none => match f.flush.bind fun l => (answered l.tx a).map fun x => (l, x) with
            | none => .next s.lateAnswer
            | some (l, x) =>
              if l.upto ≠ seq ∨ off ≠ 0 then .next s.lateAnswer
              else if !s.ansOk node x a then .next (s.count 0x4204 4)
              else if l.acked then .next s.lateAnswer
              else
                let g := f.sample ((s.tick + 2 ^ 32 - a.tsEcho.toNat) % 2 ^ 32)
                let st := a.status.toNat
                if st = stOk ∨ st = stDup then
                  .next ((s.setFlow node { g.acked 64 a.delay.toNat (s.obj 0x4202 3) a.ceEcho with
                    flush := some { l with acked := true } }).useFlow node)
                else if st = stBusy then .next ((s.setFlow node g).useFlow node)
                else .next (l.waits.foldl (fun u p => u.msgFail p st) (s.flushEnd node g l))

/-- BULK_PLACED_RECEIVE (R250; 06 R173): everything the FLUSH covers is placed. -/
def execBulkPlacedReceive (port : Nat) (a : BulkAns) (s0 : State) : Res :=
  let s := s0.takeFlits port 1 3
  if !s0.live || !(s0.port port).up then .next s0
  else if a.dstNode.toNat ≠ s.fab.node then .next (s.count 0x4004 1)
  else match s.relayAns a with
    | some t => .next t
    | none =>
      let node := a.srcNode.toNat
      match (s.flow node).bind fun f => f.flush.bind fun l => (answered l.tx a).map fun x => (f, l, x) with
      | none => .next s.lateAnswer
      | some (f, l, x) =>
        if a.typ ≠ 9 ∨ a.hver ≠ 1 ∨ a.msgId.toNat ≠ l.upto + s.dev.bootEpoch * 2 ^ 48 then .next s.lateAnswer
        else if !s.ansOk node x a then .next (s.count 0x4204 4)
        else .next (l.waits.foldl (fun u p => u.msgPlaced p) (s.flushEnd node f l))

/-! ### The receiving side (R243-R245) -/

/-- An answer to a packet leaves (R237; 12 R352). -/
def State.bulkAns (s : State) (typ src msgId off ts xmit key status hint delay : Nat) (ce : Bool) : State :=
  match s.hop src (msgId % 2 ^ 48) with
  | none => s
  | some (hop, trunk) =>
    let a : BulkAns := {
      epoch := s.fab.map.epoch, tsEcho := BitVec.ofNat 32 ts, offset := BitVec.ofNat 32 off, hintNode := BitVec.ofNat 16 hint, delay := BitVec.ofNat 16 delay,
      dstNode := BitVec.ofNat 16 hop, srcNode := BitVec.ofNat 16 s.fab.node, finalNode := BitVec.ofNat 16 src,
      status := BitVec.ofNat 16 status, ceEcho := ce, typ := BitVec.ofNat 4 typ, hver := 1, msgId := BitVec.ofNat 64 msgId, tag := 0 }
    let s1 := (s.useFlow src).send 1 3 trunk (.answer { a with tag := Config.gcmTag key (ansNonce a xmit) (ansAad a) [] })
    if status = stBusy then s1.count 0x4203 3
    else if status = stDup then s1.count 0x4204 1
    else if status = stMoved then s1.count 0x4008 1 else s1

/-- Item 3 of R243. -/
def bulkFormOk (p : BulkPkt) : Bool :=
  let typ := p.typ.toNat
  let len := p.msgLen.toNat
  let off := p.offset.toNat
  let data := decide (off < len) && off % 4096 == 0 && p.len.toNat == min 4096 (len - off) && p.payload.length == p.len.toNat
  let none_ := off == 0 && p.len == 0 && p.payload.isEmpty
  let sized := decide (1 ≤ len) && decide (len ≤ 16777216)
  p.hver == 1 && (
    (typ == 1 && sized && data && p.addr.toNat % 64 == 0 && (p.sink != 1 || decide (p.key.toNat < 512)) && (p.sink != 3 || p.key == 0))
    || (typ == 2 && sized && none_ && p.sink == 0 && p.addr.toNat % 64 == 0)
    || (typ == 3 && sized && data && p.sink == 0)
    || (typ == 4 && len == 0 && none_ && p.sink == 0))

/-- Items 5 and 6 of R243; none when the packet is of an older boot epoch. -/
def Flow.recvEpoch (f : Flow) (e floor : Nat) : Option Flow :=
  let d := (e + 65536 - f.peerEpoch) % 65536
  let g := if !f.hasRecv || (decide (1 ≤ d) && decide (d ≤ 32767)) then
      some { f with hasRecv := true, peerEpoch := e, lw := floor, doneMap := [], parts := [], pendFlush := [] }
    else if d = 0 then some f else none
  g.map fun h =>
    let lw := max h.lw floor
    { h with lw := lw, doneMap := h.doneMap.filter fun n => decide (lw < n), parts := h.parts.filter fun p => decide (lw < p.1) }

/-- LW advances across consecutive done numbers (R244). -/
def Flow.advance (f : Flow) : Nat → Flow
  | 0 => f
  | n + 1 => if f.lw + 1 ∈ f.doneMap then Flow.advance { f with lw := f.lw + 1, doneMap := f.doneMap.erase (f.lw + 1) } n else f
/-- Message `seq` is complete. -/
def Flow.complete (f : Flow) (seq : Nat) : Flow :=
  Flow.advance { f with parts := tblDel f.parts seq, doneMap := seq :: f.doneMap } 256

/-- What the sink of a packet says: refused with a status; held by a context's cut, at a local slot and a context address; or taken. Each
with the state after it. -/
inductive Sink where
  | no (status : Nat) (s : State)
  | hold (frames : List Nat) (s : State) (slot ctx caddr : Nat)
  | took (s : State)

/-- The memory checks of R245: local slot and place of `n` bytes at `a`. -/
def State.bulkCheck (s : State) (src : Nat) (p : BulkPkt) (a n : Nat) (perm : Perm) : State × Except Nat (Nat × Nat × Nat) :=
  match s.epochCheck p.epoch a (perm != .read) with
  | .error st => (s, .error st)
  | .ok sl => match s.regionCheck src sl (hallOff a) n p.key perm with
    | (t, .error st) => (t, .error st)
    | (t, .ok (ctx, ca)) => (t, .ok (sl, ctx, ca))

/-- The context `c` is joined with the device at `node` (12 R357). -/
def State.joinedNode (s : State) (c node : Nat) : Bool :=
  s.ctxOn c && ((tblFind s.sec.ctx c).any fun x => x.peers.any fun p => (s.fab.map.idEnt p.1).kind != 0 && (s.fab.map.idEnt p.1).node == node)

/-- The payload stays with the message until it is complete: what is kept in staging, and a ring page, which goes to its receive buffer
(04 R124; DESIGN CHOICE, log entry 24). -/
def bulkWhole (p : BulkPkt) : Bool := bulkKept p || p.sink == 2

/-- The sink checks of R245, and what an accepted packet does. `whole` says that the message is complete with it, `data`
its bytes for the sinks that are not memory. -/
def State.sinkIn (s : State) (src seq : Nat) (p : BulkPkt) (pay : List Byte) (whole : Bool) (data : List Byte) : Sink :=
  let a := (p.addr.toNat + p.offset.toNat) % 2 ^ 64
  if p.typ = 2 then
    match s.bulkCheck src p p.addr.toNat p.msgLen.toNat .read with
    | (t, .error st) => .no st t
    | (t, .ok (sl, ctx, ca)) =>
      if 1024 ≤ t.bulk.serves.length then .no stBusy t
      else match t.cbad ctx ca p.msgLen.toNat with
        | some l => .no stHbmUe (t.ueRead l ctx none)
        | none => .took (t.modBulk fun b => { b with serves := tblIns b.serves (src * 2 ^ 48 + seq) ⟨ctx, ca, p.msgLen.toNat, sl, false⟩ })
  else if p.typ = 3 then
    let k := src * 2 ^ 48 + p.addr.toNat % 2 ^ 48
    match tblFind s.bulk.gets k with
    | none => .no stDup s
    | some g =>
      if p.addr.toNat / 2 ^ 48 ≠ s.dev.bootEpoch ∨ g.len ≠ p.msgLen.toNat then .no stDup s
      else if whole then .took (((s.modBulk fun b => { b with gets := tblDel b.gets k }).owesExpiry (some g.deadline)).getDone g.purpose data)
      else .took s
  else if p.sink = 1 then
    let c := p.key.toNat % 256
    if 256 ≤ p.key.toNat then
      (match if whole then s.joinIn src c data else none with | some t => .took t | none => .no stKey s)
    else if !s.joinedNode c src then .no stKey s
    else .took (if whole then s.inboxIn src c data else s)
  else if p.sink = 3 then
    let e := tblGet ⟨0, []⟩ s.fab.map.gws (src / 4096)
    if !s.gateway || !decide ((s.fab.node, src) ∈ e.pairs.take e.count) then .no stKey s
    else if !whole then .took s
    else match s.gwRecords src data with
      | some t => .took t
      | none => .no stBusy s
  else
    match s.bulkCheck src p a p.len.toNat .write with
    | (t, .error st) => .no st t
    | (t, .ok (sl, ctx, ca)) =>
      if p.sink = 2 then .took (if whole then t.ringIn ctx data else t)
      else
        let hold := t.uncopied ctx ca p.len.toNat
        if !hold.isEmpty then .hold hold t sl ctx ca else .took (t.cwrite ctx ca pay)

/-- Staging SRAM in bytes: the 32 MiB of 01 R27 less the rings, which the site map ends at 0xA0_0000 (DESIGN CHOICE, log entry 48). -/
def stagingBytes : Nat := 33554432 - 0xA00000
/-- Bytes in staging: messages partly received for a sink that is not memory, copies that wait for a mover or that one has, and migration
messages in the inbox. -/
def State.stagedBytes (s : State) : Nat :=
  (s.bulk.flows.map fun e => (e.2.parts.map fun p => if p.2.kept then p.2.bytes else 0).foldl (· + ·) 0).foldl (· + ·) 0
  + ((s.ses.staged ++ s.ses.movers.map (·.2)).map fun m => m.data.length).foldl (· + ·) 0 + (s.ses.inbox.map fun m => m.2.2.length).foldl (· + ·) 0

/-- A packet of the same message of the same sender is held by a cut. -/
def State.holdsOf (s : State) (p : BulkPkt) : Bool := s.bulk.held.any fun h => h.pkt.srcNode == p.srcNode && h.pkt.msgId == p.msgId

/-- Items 7 to 11 of R243 for a packet that passed the others; `ans` answers it with a status. A packet that a cut holds is among those
received, and its answer follows its write: the message is complete when all its bytes are in and none of its packets is held. -/
def State.bulkTake (s : State) (src : Nat) (f : Flow) (p : BulkPkt) (pay : List Byte) (delay key : Nat) (ans : State → Nat → State) : State :=
  let seq := p.msgId.toNat % 2 ^ 48
  let len := p.msgLen.toNat
  let off := p.offset.toNat
  let t := s.setFlow src f
  if p.typ = 4 then
    ans (t.setFlow src { f with pendFlush := f.pendFlush ++ [⟨seq, p.ts, p.xmit.toNat, p.ce, delay⟩] }) stOk
  else
    let part := tblFind f.parts seq
    let full := decide (4096 ≤ (t.bulk.flows.map fun e => e.2.parts.length).foldl (· + ·) 0)
    if seq ≤ f.lw ∨ seq ∈ f.doneMap ∨ (part.any fun x => decide (off ∈ x.offs)) then ans t stDup
    else if f.lw + 256 < seq ∨ (part.isNone && full) ∨ (bulkKept p && decide (stagingBytes < t.stagedBytes + p.len.toNat)) then ans t stBusy
    else if part.any fun x => x.len != len then ans t stBulkFormat
    else
      let keep := bulkKept p
      let old := part.getD ⟨len, [], 0, [], keep⟩
      let new : Partial := ⟨len, off :: old.offs, old.bytes + p.len.toNat, if bulkWhole p then memWrite old.data off pay else old.data, keep⟩
      let whole := p.typ == 2 || (new.bytes == len && !t.holdsOf p)
      match t.sinkIn src seq p pay whole (if whole && bulkWhole p then memRead new.data 0 len else []) with
      | .no st u => ans u st
      | .hold fs u sl ctx ca =>
        ((u.updFlow src fun g => { g with parts := tblIns g.parts seq new }).cbwHold fs).modBulk fun b =>
          { b with held := b.held ++ [⟨p, delay, pay, key, sl, ctx, ca⟩] }
      | .took u => ans (u.updFlow src fun g => if whole then g.complete seq else { g with parts := tblIns g.parts seq new }) stOk

/-- A bulk packet for this device (R243). One whose flow can have no entry, and so no key, is answered ST_BUSY under the all-zero key
(DESIGN CHOICE, log entry 48). -/
def State.bulkIn (s : State) (p : BulkPkt) (delay : Nat) : State :=
  let src := p.srcNode.toNat
  match s.flowLoad src with
  | none => s.bulkAns 8 src p.msgId.toNat p.offset.toNat p.ts.toNat p.xmit.toNat 0 stBusy 0 delay p.ce
  | some s1 => match s1.flow src with
    | none => s1
    | some f =>
      let k := s1.fkeys src
      match keyFor k.rx k.rxPrev p.xmit.toNat with
      | none => if k.rx.isNone then s1.hello src else s1.count 0x4204 4
      | some key =>
        if Config.gcmTag key p.xmit.toNat (bulkAad { p with dstNode := 0, ce := false }) p.payload ≠ p.tag then s1.count 0x4204 4
        else
          let ans := fun (t : State) (st : Nat) =>
            t.bulkAns 8 src p.msgId.toNat p.offset.toNat p.ts.toNat p.xmit.toNat key st
              (if st = stMoved then t.hintNode ((p.addr.toNat + p.offset.toNat) % 2 ^ 64) else 0) delay p.ce
          if s.resting then ans s1 stBusy
          else if !bulkFormOk p then ans s1 stBulkFormat
          else match f.recvEpoch (p.msgId.toNat / 2 ^ 48) p.floor.toNat with
            | none => ans s1 stDup
            | some g => s1.bulkTake src g p (ctr key p.xmit.toNat p.payload) delay key ans

/-- The packet is one of a key exchange (12 R349). -/
def isKeyx (p : BulkPkt) : Bool := p.typ == 1 && p.msgId.toNat % 2 ^ 48 == 0
/-- A gateway has to pass the packet on (R254). -/
def State.relays (s : State) (p : BulkPkt) : Bool := s.gateway && p.dstNode.toNat == s.fab.node && p.finalNode.toNat != s.fab.node

/-- Flits of a bulk packet (R234). -/
def bulkFlits (p : BulkPkt) : Nat := 3 + ceilDiv p.len.toNat 32

/-- A bulk packet may be taken from the REQ buffer of a port: a slot for its answer can be reserved (07 R205), and none that came before it
waits for one. -/
def State.bulkRoom (s : State) (port : Nat) : Bool := !(s.bulk.waitQ.any fun e => e.1 == port) && s.rspFits 3

/-- BULK_PACKET_RECEIVE (R243). -/
def execBulkPacketReceive (port : Nat) (p : BulkPkt) (s : State) : Res :=
  if !s.answering || !(s.port port).up || (p.dstNode.toNat == s.fab.node && (s.relays p || isKeyx p)) then .next s
  else
    let t := s.takeFlits port 0 (bulkFlits p)
    if p.dstNode.toNat ≠ s.fab.node then
      .next ((t.count 0x4004 1).record { sev := 0, code := 0x0011, source := 0x09, unit := port, addr := p.srcNode.toNat })
    else if !s.bulkRoom port then .next (s.modBulk fun b => { b with waitQ := b.waitQ ++ [(port, p)] })
    else .next (t.bulkIn p (s.waited port 0))

/-- A held packet is written and answered; its message is complete when all is in and written. -/
def State.heldWrite (s : State) (h : HeldPkt) : State :=
  let p := h.pkt
  let src := p.srcNode.toNat
  let id := p.msgId.toNat
  let t := (s.modBulk fun b => { b with held := b.held.erase h }).cwrite h.ctx h.caddr h.pay
  let all := (t.flow src).any fun f => f.peerEpoch == id / 2 ^ 48 && (tblFind f.parts (id % 2 ^ 48)).any fun x => x.bytes == x.len
  let u := if all && !t.holdsOf p then t.updFlow src fun g => g.complete (id % 2 ^ 48) else t
  u.bulkAns 8 src id p.offset.toNat p.ts.toNat p.xmit.toNat h.key stOk 0 h.delay p.ce

/-- Held packets whose frames are copied now are written (13 R376), and packets that waited for a response slot are taken (07 R205), each
in order. -/
def State.bulkDrain (s : State) : State :=
  if !s.answering then s
  else
    let t := s.bulk.held.foldl (fun t h => if (t.uncopied h.ctx h.caddr h.pay.length).isEmpty then t.heldWrite h else t) s
    t.bulk.waitQ.foldl (fun u e =>
      if u.bulkRoom e.1 then (u.takeFlits e.1 0 (bulkFlits e.2)).bulkIn e.2 (u.waited e.1 0)
      else u.modBulk fun b => { b with waitQ := b.waitQ ++ [e] }) (t.modBulk fun b => { b with waitQ := [] })

/-- PLACED_SEND (R250): the oldest FLUSH whose number LW has reached, once no packet of the flow waits for a cut. -/
def execPlacedSend (node : Nat) (s : State) : Res :=
  match s.flow node with
  | none => .next s
  | some f => match f.pendFlush.find? fun l => decide (l.upto ≤ f.lw) with
    | none => .next s
    | some l =>
      let k := s.fkeys node
      match keyFor k.rx k.rxPrev l.xmit with
      | none => .next s
      | some key =>
        if !s.live || s.bulk.held.any (fun h => h.pkt.srcNode.toNat == node) then .next s
        else .next ((s.setFlow node { f with pendFlush := f.pendFlush.erase l }).bulkAns 9 node (l.upto + f.peerEpoch * 2 ^ 48) 0 l.ts.toNat
          l.xmit key stOk 0 l.delay l.ce)

/-- GET_DATA_SEND (R251): the data of a GET being served becomes a message toward its source. Data that have failed since it was accepted do
not leave, and it is served no longer (16 R444; DESIGN CHOICE, log entry 68). -/
def execGetDataSend (node seq : Nat) (s : State) : Res :=
  let k := node * 2 ^ 48 + seq
  match tblFind s.bulk.serves k, (s.flowLoad node).bind fun t => t.flow node with
  | some g, some f =>
    if !s.live || g.sent then .next s
    else match s.cbad g.ctx g.caddr g.len with
    | some l => .next ((s.modBulk fun b => { b with serves := tblDel b.serves k }).ueRead l g.ctx none)
    | none =>
      let m := bulkMsg 3 g.ctx 3 0 0 (seq + f.peerEpoch * 2 ^ 48) g.len (s.cread g.ctx g.caddr g.len) (.getData node seq)
      .next ((s.modBulk fun b => { b with serves := tblIns b.serves k { g with sent := true } }).bulkIssue node m)
  | _, _ => .next s

/-- LW_RECORD_DISCARD (R242). -/
def execLwRecordDiscard (node : Nat) (s : State) : Res :=
  match s.lwGet node 1 with
  | none => .next s
  | some r =>
    let age := (s.tick % 2 ^ 52 + 2 ^ 52 - r.stamp * 2 ^ 20) % 2 ^ 52
    if !s.live || decide (age < s.obj 0x4201 1 * ticksPerMs) then .next s
    else .next (s.lwPut node 1 none)

/-! ### Relaying (R254) -/

/-- GATEWAY_RELAY: DST_NODE becomes the next hop, and CE is set after a wait of more than 500 ns. -/
def execGatewayRelay (port : Nat) (p : BulkPkt) (waitNs : Nat) (s : State) : Res :=
  if !s.live || !(s.port port).up || !s.relays p || decide (2000 < waitNs) then .next s
  else match s.hop p.finalNode.toNat (pairNum p.addr.toNat) with
    | none => .next s
    | some (hop, trunk) =>
      let n := bulkFlits p
      match (s.nextPort s.fab.rotor 0 n trunk none).bind fun q => (s.classTurn q 0 n).map fun t => (q, t) with
      | none => .next s
      | some (q, t) =>
        .next (((t.takeFlits port 0 n).sendPkt q 0 n (.bulk { p with dstNode := BitVec.ofNat 16 hop, ce := p.ce || decide (500 < waitNs) })).modFab
          fun g => { g with rotor := q })

/-- GATEWAY_RELAY_DROP: counted. -/
def execGatewayRelayDrop (port : Nat) (p : BulkPkt) (s : State) : Res :=
  if !s.live || !(s.port port).up || !s.relays p then .next s
  else .next ((s.takeFlits port 0 (bulkFlits p)).count 0x4205 6)

/-! ### Key exchange (12 R349, R350) -/

/-- KEYX_RECEIVE: a hello is answered; a reply to an own hello gives the keys; a valid refusal, or a reply that fails, ends
the messages that wait. -/
def execKeyxReceive (port : Nat) (k : Keyx) (s0 : State) : Res :=
  if !s0.answering || !(s0.port port).up then .next s0
  else
    let s := s0.takeFlits port 0 31
    let node := k.srcNode.toNat
    match s.flowLoad node with
    | none => .next s
    | some t =>
      if k.role = 0 then
        if t.keyxOk k then .next ((t.helloIn k).count 0x7007 2)
        else
          let a := t.take1
          .next ((a.2.sendKeyx node 2 0 (BitVec.ofNat 256 (Config.fresh a.1)) k.fresh a.1).count 0x7007 3)
      else match (t.fkeys node).hello with
        | none => .next (s.count 0x7007 3)
        | some h =>
          let ok := t.keyxOk k && k.peerFresh == h.fresh
          if k.role = 1 then .next (if ok then (t.replyIn k h).count 0x7007 2 else (t.helloEnd node stAttest).count 0x7007 3)
          else if k.role = 2 ∧ ok then .next (t.helloEnd node stAttest)
          else .next (s.count 0x7007 3)

end Sys2Proof.Machine
end

