-- ==== Sys2Proof/Machine/Moves.lean ====
section
/-! DEFINITION. Commands and events of parking, revival, migration and leases (06), SESSION_TRUNCATE (05 R154), the scrub
of a frame (05 R149), the patrol read (16 R475) and the commit of a composition map (07 R222). -/

namespace Sys2Proof.Machine

/-! ### PARK (R171-R174) -/

/-- Check 3 of R171. -/
def State.parkLeaseOk (s : State) (ctx lease exp : Nat) (dual : Bool) : Bool :=
  s.leaseOk ctx lease
  && (!dual || (match s.paired ctx lease with | some p => s.leaseOk ctx p | none => false))
  && (exp != 1 || (s.lease ctx lease).any fun l => l.rcd.tier == 2 && l.rcd.demoteEn)

/-- PARK. Check 4 counts as free what the confirmation of a hint releases; a rejected PARK confirms nothing. -/
def execPark (sq : Nat) (h : CmdHdr) (handle : BitVec 24) (pfmt : BitVec 4) (lease : BitVec 12) (expiry : BitVec 2) (dual dirOut : Bool)
    (ttlMs : W32) (s : State) : Res :=
  s.ringCmd sq h (.park handle pfmt lease expiry dual dirOut ttlMs) [] fun t =>
    let n := handle.toNat
    let ctx := h.ctx.toNat
    let r := t.named ctx n
    match r.2 with
    | .error st => .done st 0 r.1
    | .ok x =>
      let pf := pfmt.toNat
      if !(x.state == .idle || (x.state == .active && !x.parkPend)) then .done stSessionState 0 r.1
      else if !isParkFmt pf || !bit (r.1.sbind x).parkMask.toNat (pf - 13) || decide (1 < expiry.toNat) then .done stParkField 0 r.1
      else if !r.1.parkLeaseOk ctx lease.toNat expiry.toNat dual then .done stLease 0 r.1
      else
        let u := r.1.unhold n
        let y := (u.sess n).getD x
        match u.takeMove ctx lease.toNat (u.parkPages y pf) (if dirOut then some (extentFrames y.dir) else none) with
        | none => .done stLeaseFull 0 r.1
        | some (runs, dr, v) => .done stOk 0 (v.parkAccept n y pf lease.toNat expiry.toNat dual dirOut ttlMs runs dr)

/-- PARK_PEND_START (05 R153): in a later cycle than the end of the step that gave rise to it. -/
def execParkPendStart (handle : Nat) (s : State) : Res :=
  match s.sess handle with
  | some x => if s.live && x.state == .parking && x.parkPend && decide (x.parkAt < s.dev.nclk) then .next (s.parkStart handle x) else .next s
  | none => .next s

/-! ### REVIVE and its hint (R180-R185) -/

/-- REVIVE or REVIVE_HINT of handle `n`. -/
def State.revive (t : State) (ctx n : Nat) (narrow hint : Bool) : CmdOut :=
  let r := t.named ctx n
  match r.2 with
  | .error st => .done st 0 r.1
  | .ok x =>
    if x.state == .lost then .done stLost 0 r.1
    else if x.state != .parked then .done stSessionState 0 r.1
    else if x.pdir.isSome && x.move.narrow != narrow then .done stParkField 0 r.1
    else match r.1.reviveAccept n narrow hint with
      | .ok u => .done stOk 0 u
      | .error st => .done st 0 r.1

/-- REVIVE. -/
def execRevive (sq : Nat) (h : CmdHdr) (handle : BitVec 24) (narrow : Bool) (s : State) : Res :=
  s.ringCmd sq h (.revive handle narrow) [] fun t => t.revive h.ctx.toNat handle.toNat narrow false

/-- REVIVE_HINT. -/
def execReviveHint (sq : Nat) (h : CmdHdr) (handle : BitVec 24) (narrow : Bool) (s : State) : Res :=
  s.ringCmd sq h (.reviveHint handle narrow) [] fun t => t.revive h.ctx.toNat handle.toNat narrow true

/-- HINT_LAPSE (R185): the parked directory is the session's again; landed copies and the new directory are freed. A session that has
yet to be swept after a loss is swept in place of it, which ends the hold where its copies are gone (R192). -/
def execHintLapse (handle : Nat) (s : State) : Res :=
  match s.sess handle with
  | none => .next s
  | some x =>
    if !s.live || x.state != .idle || !x.move.held || s.dev.nclk ≤ x.parkAt || !s.past (x.move.start + s.obj 0x310B 1 x.ctx * ticksPerMs) then
      .next s
    else if x.sweep then .next (s.sweepSess handle)
    else
      let t := s.abandonRevival handle
      let y := { (t.sess handle).getD x with ttlDeadline := s.tick + ttlTicks x.ttlMs }
      let z := y.goto s.tick .parked
      let u := ((t.setSess handle z).sesEvent handle { x with state := .parking } z 1 stOk 2).sesEvent handle x z 3 stOk 2
      .next (u.count 0x310B 2)

/-! ### Time to live (R176-R179) -/

/-- TTL_SET (R179). -/
def execTtlSet (sq : Nat) (h : CmdHdr) (handle : BitVec 24) (expiry : BitVec 2) (ttlMs : W32) (s : State) : Res :=
  s.ringCmd sq h (.ttlSet handle expiry ttlMs) [] fun t =>
    let n := handle.toNat
    let r := t.named h.ctx.toNat n
    match r.2 with
    | .error st => .done st 0 r.1
    | .ok x =>
      let ok := match dirCopyLease (x.pdir.getD x.dir) with
        | some l => r.1.leaseOk x.ctx l && (r.1.lease x.ctx l).any fun y => y.rcd.tier == 2 && y.rcd.demoteEn
        | none => false
      if x.state != .parked then .done stSessionState 0 r.1
      else if 1 < expiry.toNat then .done stParkField 0 r.1
      else if expiry == 1 && !ok then .done stLease 0 r.1
      else .done stOk 0 (r.1.setSess n { x with ttlMs := ttlMs.toNat, expiry := expiry.toNat, ttlDeadline := s.tick + ttlTicks ttlMs.toNat })

/-- TTL_EXPIRY (R176-R178): a REVIVE of the same cycle comes first (05 R153). -/
def execTtlExpiry (handle : Nat) (s : State) : Res :=
  match s.sess handle with
  | none => .next s
  | some x =>
    if !s.live || s.plinthDown || x.state != .parked || x.demoting || x.mig != .none || !s.past x.ttlDeadline then .next s
    else if x.expiry = 1 then .next ((s.sweepSess handle).demoteStart handle)
    else
      let z := { freed x s.tick true with eventCq := x.eventCq }
      .next (((s.dropSess handle x true).count 0x310A 4).sesEvent handle x z 1 stExpired 0)

/-! ### Page movers (R186) -/

/-- An item a mover can take. -/
inductive MoverItem where
  | stage (j : MoverJob)
  | park (h n : Nat)
  | send (h n : Nat)
  | drain (ctx part : Nat)
  deriving DecidableEq, Repr

/-- The next page of a park or demotion to leave, the directory extent after the pages; a page pinned since stays (05 R139). -/
def State.nextCopy (s : State) (x : Session) : Option Nat :=
  match (lgOrder (s.lgn x) x.runs).find? fun e => (tblFind x.sent e.1).isNone && !x.keeps e.1 with
  | some (n, _) => if x.move.kind = 1 && (x.dir.ent n).landed then some n else none
  | none => if x.dirRun.isSome && !x.extWait && (tblFind x.sent dirIdx).isNone then some dirIdx else none

/-- Items of a context with their order of R186: class, start of the move, and bytes taken in. -/
def State.moverItems (s : State) (ctx : Nat) : List (Nat × Nat × Nat × MoverItem) :=
  let staged := s.ses.staged.filterMap fun j => match s.sess j.handle with
    | some x => if x.ctx ≠ ctx then none
        else some (if !j.land then 3 else if x.stepPins ≠ 0 then 0 else 1, x.move.start, j.data.length, MoverItem.stage j)
    | none => none
  let mine := s.ses.tbl.filter fun e => e.2.ctx == ctx
  let parks := mine.filterMap fun e =>
    if (e.2.state == .parking && !e.2.parkPend) || e.2.demoting then
      (s.nextCopy e.2).map fun n => (if e.2.demoting then 3 else 2, e.2.move.start,
        if n = dirIdx then 4096 * e.2.dir.size else pageBytes (s.sbind e.2) (e.2.dir.ent n).fmt, MoverItem.park e.1 n)
    else none
  let sends := mine.filterMap fun e =>
    if e.2.mig != .sending then none
    else match e.2.migPages.find? fun n => (tblFind e.2.sent n).isNone && !(e.2.dir.ent n).copyPend with
      | some n => some (3, e.2.move.start, pageBytes (s.sbind e.2) (e.2.dir.ent n).fmt, MoverItem.send e.1 n)
      | none => none
  let k := s.ckpt ctx
  let drains := match k.nextPart with
    | some p => [(4, k.since, (if p = 0 then 64 else match k.shards[p - 1]? with | some x => x.len | none => 256 * k.shards.length), MoverItem.drain ctx p)]
    | none => []
  staged ++ parks ++ sends ++ drains

/-- The item is a landing, whose bytes were charged when they were requested. -/
def MoverItem.free : MoverItem → Bool
  | .stage j => j.land
  | _ => false

/-- The item a context's turn takes: least class, then oldest move. -/
def firstItem (l : List (Nat × Nat × Nat × MoverItem)) : Option (Nat × Nat × Nat × MoverItem) :=
  l.foldl (fun b i => match b with
    | none => some i
    | some a => if i.1 < a.1 ∨ (i.1 = a.1 ∧ i.2.1 < a.2.1) then some i else b) none

/-- Finish tags after context `c` starts an item at unit `u`; tokens are taken when the bytes are sent (10 R306). -/
def State.fqTag (s : State) (u c cost : Nat) : State :=
  let st := max (tblGet 0 s.run.vt u) (s.fin c u)
  s.modRun fun g => { g with fin := tblPut 0 g.fin (c * 64 + u) (st + cost * 65536 / s.weight c), vt := tblPut 0 g.vt u st }

/-- In SEALED a mover that holds a landing of a context outside its slot is free: the landing waits as staged again (12 R358, R361). -/
def State.unseat (s : State) (mover : Nat) : State :=
  match tblFind s.ses.movers mover with
  | some j => if j.land && (s.sess j.handle).any (fun x => !s.slotOk x.ctx)
      then s.modSes fun g => { g with movers := tblDel g.movers mover, staged := j :: g.staged } else s
  | none => s

/-- PAGE_MOVER_START: `ue` is the line, counted in the page, at which its read meets an uncorrectable error. -/
def execPageMoverStart (mover : Nat) (ue : Option Nat) (s0 : State) : Res :=
  let s := s0.unseat mover
  if 16 ≤ mover then .next s0
  else if !s.live || s.quiescing || (tblFind s.ses.movers mover).isSome then .next s0
  else
    let items := fun c => (s.moverItems c).filter fun i => i.2.2.2.free || decide (0 < s.tok c 1)
    match s.fqPick 2 (s.ctxs.filter fun c => !(items c).isEmpty && s.slotOk c) with
    | none => .next s0
    | some c => match firstItem (items c) with
      | none => .next s0
      | some (_, _, cost, it) =>
        let t := s.fqTag 2 c cost
        let busy := fun (u : State) (j : MoverJob) => u.modSes fun g => { g with movers := tblIns g.movers mover j }
        .next (match it with
          | .stage j =>
            let u := t.modSes fun g => { g with staged := g.staged.erase j }
            if j.land then busy u j
            else ((busy u { j with data := [] }).reseal j.handle j.n j.second j.data).freeMovers
          | .park h n =>
            let u := busy t ⟨h, n, false, false, []⟩
            if n = dirIdx then
              match u.sess h with
              | some x => match x.dirRun with
                | some o => (u.sendExtent h x o).freeMovers
                | none => u.freeMovers
              | none => u.freeMovers
            else (u.parkPage mover h n ue).freeMovers
          | .send h n => ((busy t ⟨h, n, false, false, []⟩).migPage mover h n ue).freeMovers
          | .drain c p => ((busy t ⟨2 ^ 24 + c, p, false, false, []⟩).sendPart c p).freeMovers)

/-- PAGE_LAND (R182); in SEALED, in a slot of its context (12 R361). -/
def execPageLand (mover : Nat) (s : State) : Res :=
  if 16 ≤ mover then .next s
  else match tblFind s.ses.movers mover with
    | none => .next s
    | some j =>
      if !s.live || s.plinthDown || !j.land || (s.sess j.handle).any (fun x => !s.slotOk x.ctx) then .next s
      else .next ((s.modSes fun g => { g with movers := tblDel g.movers mover }).landPage mover j.handle j.n j.second j.data)

/-! ### Migration (R187, R188) -/

/-- MIGRATE. A MIGRATING session whose RELEASE or ABORT has ended sends it again. The entries of a directory in a lease are read
under R191 first. -/
def execMigrate (sq : Nat) (h : CmdHdr) (handle : BitVec 24) (peerDev : BitVec 16) (peerHandle : BitVec 24) (s : State) : Res :=
  s.ringCmd sq h (.migrate handle peerDev peerHandle) [] fun t =>
    let n := handle.toNat
    let r := t.owned h.ctx.toNat n
    match r.2 with
    | .error st => .done st 0 r.1
    | .ok x =>
      let open_ := tblAny r.1.bulk.flows (fun _ f =>
        tblAny f.msgs (fun _ m => Purpose.ofSession n m.purpose) || f.waiting.any (fun m => Purpose.ofSession n m.purpose)
        || f.placeWait.any (Purpose.ofSession n) || f.flush.any fun u => u.waits.any (Purpose.ofSession n))
        || r.1.bulk.noFlow.any fun e => Purpose.ofSession n e.2.purpose
      if x.incoming then .done stSessionState 0 r.1
      else if (x.state == .migrating || x.leaving) && (x.mig == .releasing || x.mig == .aborting) && !open_ && x.peerDev == peerDev.toNat
          && x.peerHandle == peerHandle.toNat then
        .done stOk 0 (r.1.migDecide n x (if x.mig == .releasing then .release x.peerHandle else .abort x.peerHandle))
      else if !(x.state == .idle || x.state == .parked) || x.stepPins != 0 then .done stSessionState 0 r.1
      else if (r.1.peerCtx x.ctx peerDev.toNat).isNone then .done stKey 0 r.1
      else
        let u := if 2 ≤ x.dir.tier then r.1.sweepExtent n x else r.1
        if (u.sess n).any fun y => y.state == .lost then .done stSessionState 0 u
        else .done stOk 0 (u.migStart n peerDev.toNat peerHandle.toNat)

/-- The checks of a handle that MIGRATE_IN names (R187 step 1; 05 R128; 16 R449). -/
def State.inHandle (t : State) (ctx n : Nat) : Nat :=
  let x := (t.sess n).getD (sesFree ctx)
  if !t.handleIn ctx n then stHandleRange
  else if x.tomb then (if x.ctx != ctx then stNoSession else stExpired)
  else if x.state != .free then stSessionState
  else if !t.islandUp (n % 4) then stFenced
  else stOk

/-- MIGRATE_IN. -/
def execMigrateIn (sq : Nat) (h : CmdHdr) (handle : BitVec 24) (srcDev : BitVec 16) (eventCq : BitVec 6) (srcHandle : BitVec 24)
    (s : State) : Res :=
  s.ringCmd sq h (.migrateIn handle srcDev eventCq false srcHandle) [] fun t =>
    let n := handle.toNat
    let ctx := h.ctx.toNat
    let st := t.inHandle ctx n
    if st ≠ stOk then .done st 0 t
    else if (tblFind t.ses.migIn n).isSome then .done stSessionState 0 t
    else .done stOk 0 (t.modSes fun g => { g with migIn := tblIns g.migIn n ⟨ctx, srcDev.toNat, srcHandle.toNat, eventCq.toNat⟩ })

/-- MIGRATE_IN with CANCEL set. -/
def execMigrateInCancel (sq : Nat) (h : CmdHdr) (handle : BitVec 24) (srcDev : BitVec 16) (eventCq : BitVec 6) (srcHandle : BitVec 24)
    (s : State) : Res :=
  s.ringCmd sq h (.migrateIn handle srcDev eventCq true srcHandle) [] fun t =>
    let n := handle.toNat
    let ctx := h.ctx.toNat
    let st := t.inHandle ctx n
    if st ≠ stOk then .done st 0 t
    else if (tblFind t.ses.migIn n).any fun m => m.ctx == ctx then .done stOk 0 (t.modSes fun g => { g with migIn := tblDel g.migIn n })
    else .done stSessionState 0 t

/-- OFFER at the peer (R187 step 4). A matching OFFER is step 3, and ends the hold on the handle, refused or not. -/
def execOffer (o : Offer) (s : State) : Res :=
  match s.takeMsg (.offer o) with
  | none => .next s
  | some (_, ctx, t) =>
    if !s.live || s.plinthDown || ctx ≠ o.ctx.toNat then .next s
    else
      let h := o.dstHandle.toNat
      let say := fun (u : State) (m : MigMsg) => match u.migSend ctx o.srcDev.toNat h m [] with | .ok v => v | .error _ => u
      match t.migAccept o with
      | .error st =>
        let mine := (tblFind t.ses.migIn h).any fun m => m.ctx == ctx && m.srcDev == o.srcDev.toNat && m.srcHandle == o.srcHandle.toNat
        .next (say (if mine then t.modSes fun g => { g with migIn := tblDel g.migIn h } else t) (.refuse o.srcHandle.toNat st))
      | .ok u => .next ((say u (.accept o.srcHandle.toNat)).migReady h)

/-- A message for session `handle`, taken from the inbox by one whose migration stands at `ph`. -/
def State.migEvent (s : State) (handle : Nat) (m : MigMsg) (ph : MigPh → Bool) (f : State → Session → State) : Res :=
  match s.sess handle, s.takeMsg m with
  | some x, some (_, ctx, t) => if s.live && !s.plinthDown && x.ctx == ctx && ph x.mig then .next (f t x) else .next s
  | _, _ => .next s

/-- ACCEPT at the source (R187 step 5). -/
def execAccept (handle : Nat) (s : State) : Res :=
  s.migEvent handle (.accept handle) (fun p => p == .offered) fun t x => (t.setSess handle { x with mig := .sending }).migNext handle

/-- REFUSE at the source (R188). -/
def execRefuse (handle : Nat) (status : BitVec 16) (s : State) : Res :=
  s.migEvent handle (.refuse handle status.toNat) (fun p => p == .offered) fun t _ => t.migBack handle status.toNat

/-- READY at the source (R187 step 7). -/
def execReady (handle : Nat) (s : State) : Res :=
  s.migEvent handle (.ready handle) (fun p => p == .sentLast) fun t x =>
    let y := { x with mig := .releasing }
    (t.setSess handle y).migDecide handle y (.release x.peerHandle)

/-- RELEASE at the peer (R187 step 8). -/
def execRelease (handle : Nat) (s : State) : Res :=
  s.migEvent handle (.release handle) (fun p => p == .inReady) fun t _ => t.migComplete handle

/-- ABORT at the peer (R188). -/
def execAbort (handle : Nat) (s : State) : Res :=
  s.migEvent handle (.abort handle) (fun p => p == .inReceiving || p == .inReady) fun t _ => t.migDrop handle

/-- MIGRATE_READY_TIMEOUT (R188). -/
def execMigrateReadyTimeout (handle : Nat) (s : State) : Res :=
  match s.sess handle with
  | some x =>
    if s.live && !s.plinthDown && (x.mig == .offered || x.mig == .sentLast) && s.past x.migDeadline then .next (s.migAbort handle stTimeout) else .next s
  | none => .next s

/-- MIGRATE_PEER_TIMEOUT (R188). -/
def execMigratePeerTimeout (handle : Nat) (s : State) : Res :=
  match s.sess handle with
  | some x => if s.live && !s.plinthDown && x.mig == .inReceiving && s.past x.migDeadline then .next (s.migDrop handle) else .next s
  | none => .next s

/-! ### Leases (R165-R167, R190) -/

/-- R166 for an entry of context `ctx`. -/
def State.leaseSetOk (s : State) (ctx l : Nat) (r : LeaseRec) : Bool :=
  let old := s.lease ctx l
  let valid := tblCount s.ses.leases fun k y => k / 4096 == ctx && y.valid
  let p := s.lease ctx r.partner.toNat
  let d := s.lease ctx r.demoteTo.toNat
  (r.tier == 2 || r.tier == 3) && r.base.toNat % 4096 == 0 && hallId r.base.toNat != s.fab.ownId
  && decide (4 ≤ r.len.toNat) && decide (r.len.toNat ≤ 268435456) && !(old.any fun y => decide (y.used ≠ 0))
  && (old.any (·.valid) || decide (valid < s.obj 0x3109 1))
  && (!r.partnerEn || (r.partner.toNat != l && p.any fun y =>
        y.valid && y.rcd.len == r.len && y.rcd.tier == r.tier && hallId y.rcd.base.toNat != hallId r.base.toNat))
  && (!r.demoteEn || (r.tier != 3 && d.any fun y => y.valid && y.rcd.tier == 3))

/-- The lowest-numbered die whose memory island serves. -/
def State.lowDie (s : State) : Nat := ((List.range 4).find? s.islandUp).getD 0

/-- Lease `l` leaves the bitmap it may share to its partner, and frees one it holds alone (R167). -/
def State.leaveBitmap (s : State) (ctx l : Nat) : State :=
  let fs := ((s.lease ctx l).map (·.slabs)).getD []
  match s.paired ctx l with
  | some p => if (s.lease ctx p).any (fun y => y.slabs.isEmpty) then s.updLease ctx p fun y => { y with slabs := fs } else s.unitsFree fs
  | none => s.unitsFree fs

/-- LEASE_SET (R166, R167). A lease that becomes paired takes its partner's bitmap. -/
def execLeaseSet (sq : Nat) (h : CmdHdr) (lease : BitVec 12) (eventCq : BitVec 6) (rcd : LeaseRec) (s : State) : Res :=
  s.ringCmd sq h (.leaseSet lease eventCq rcd) [] fun t =>
    let ctx := h.ctx.toNat
    let l := lease.toNat
    if !t.leaseSetOk ctx l rcd then .done stLease 0 t
    else
      let t0 := t.leaveBitmap ctx l
      let p := t0.lease ctx rcd.partner.toNat
      let share := rcd.partnerEn && p.any fun y => y.rcd.partnerEn && y.rcd.partner.toNat == l
      let put := fun (u : State) (fs : List Nat) =>
        let q := if share then p else none
        let v : Lease := ⟨rcd, false, true, eventCq.toNat, (q.map (·.runs)).getD [], (q.map (·.cursor)).getD 0, fs⟩
        u.modSes fun g => { g with leases := tblIns g.leases (leaseKey ctx l) v }
      if share then .done stOk 0 (put t0 [])
      else match t0.unitsAlloc ctx t0.lowDie .lease (ceilDiv rcd.len.toNat 32768) with
        | none => .done stNoFrame 0 t
        | some (fs, u) => .done stOk 0 (put u fs)

/-- LEASE_CLEAR (R166): sessions of a lost lease are swept before its entry goes; a partner that shared the bitmap keeps
it. -/
def execLeaseClear (sq : Nat) (h : CmdHdr) (lease : BitVec 12) (s : State) : Res :=
  s.ringCmd sq h (.leaseClear lease) [] fun t =>
    let ctx := h.ctx.toNat
    let l := lease.toNat
    match t.lease ctx l with
    | none => .done stLease 0 t
    | some x =>
      if !x.valid || !(x.lost || x.used == 0) then .done stLease 0 t
      else
        let t1 := if x.lost then (t.ses.tbl.filter fun e => e.2.ctx == ctx && e.2.sweep).foldl (fun u e => u.sweepSess e.1) t else t
        .done stOk 0 (((t1.leaveBitmap ctx l).modSes fun g => { g with leases := tblDel g.leases (leaseKey ctx l) }).modCks fun g => { g with
          tbl := match tblFind g.tbl ctx with
            | some k => tblPut ckptNone g.tbl ctx { k with leases := k.leases.filter (· != l), old := k.old.filter fun o => o.2.1 != l }
            | none => g.tbl })

/-- LEASE_LOST (R190). -/
def execLeaseLost (sq : Nat) (h : CmdHdr) (lease : BitVec 12) (s : State) : Res :=
  s.ringCmd sq h (.leaseLost lease) [] fun t =>
    if t.leaseOk h.ctx.toNat lease.toNat then .done stOk 0 (t.loseLease h.ctx.toNat lease.toNat) else .done stLease 0 t

/-- LOSS_SWEEP (R191, R192): the session is swept; a revival asks again for pages whose read ended with the lease. -/
def execLossSweep (handle : Nat) (s : State) : Res :=
  if !s.live then .next s
  else
    let t := s.sweepSess handle
    match t.sess handle with
    | none => .next t
    | some x => if x.pdir.isSome && (x.state == .reviving || x.state == .lost) && !x.move.suspended then .next (t.reviveGo handle) else .next t

/-! ### Frames and lines (05 R149; 16 R475) -/

/-- FRAME_SCRUB: it waits while the die's copy unit has frames of a cut to copy (13 R375); the last frame of a marked slab retires it
(16 R447). -/
def execFrameScrub (frame : Nat) (s : State) : Res :=
  if s.live && (tblFind s.ses.dirtyFrames frame).isSome && !s.cutOn (frame / framesPerDie) then
    .next (((s.modSes fun g => { g with hbm := memZero g.hbm (4096 * frame) 4096, dirtyFrames := tblDel g.dirtyFrames frame }).cleanLines
      (· / 64) (4096 * frame) 4096).retireIdle (frame / 512))
  else .next s

/-- PATROL_READ. A line that has failed since it was last read is uncorrectable whatever the operand says (16 R475). -/
def execPatrolRead (line : Nat) (ecc : Ecc) (s : State) : Res :=
  if hbmLines ≤ line then .next s
  else if !s.live then .next s
  else match (if (tblFind s.err.failed line).isSome then .uncorrectable else ecc) with
    | .clean => .next s
    | .corrected => .next (s.hbmCe line)
    | .uncorrectable => .next ((s.hbmUe line 1 stHbmUe 0xFF none).lineBad line)

/-! ### SESSION_TRUNCATE (05 R154) -/

/-- Check 2: page ⌊N / 256⌋ of every layer group can keep part of its tokens. -/
def State.tailOk (s : State) (x : Session) (n : Nat) : Bool :=
  let lgn := s.lgn x
  n % 256 == 0 || (List.range lgn).all fun g => let e := x.dir.ent (n / 256 * lgn + g); e.landed && isAppendFmt e.fmt

/-- The session would be IDLE after the cut. -/
def State.idleAfter (s : State) (x : Session) (n : Nat) : Bool :=
  let lgn := s.lgn x
  x.dir.ents.all fun e => !e.2.valid || e.2.landed || decide (ceilDiv n 256 ≤ e.1 / lgn)

def execSessionTruncate (sq : Nat) (h : CmdHdr) (handle : BitVec 24) (n : W32) (s : State) : Res :=
  s.ringCmd sq h (.sessionTruncate handle n) [] fun t =>
    let hd := handle.toNat
    let k := n.toNat
    let r := t.named h.ctx.toNat hd
    match r.2 with
    | .error st => .done st 0 r.1
    | .ok x =>
      let lim := if x.lostFirst = 0xFFFFFFFF then k else 256 * x.lostFirst
      if !(x.state == .idle || x.state == .lost) || x.stepPins != 0 then .done stSessionState 0 r.1
      else if x.tokens < k || lim < k || !r.1.tailOk x k then .done stTruncate 0 r.1
      else if x.state == .lost && r.1.idleAfter x k && r.1.awakeFull then .done stAwakeLimit 0 r.1
      else if x.dir.tier = 1 then .done stOk 0 ((r.1.unhold hd).truncate hd k)
      else if x.dir.tier = 0 then
        match r.1.dirFresh x.ctx x.homeDie with
        | none => .done stNoFrame 0 r.1
        | some (d, u) => .done stOk 0 ((u.setSess hd { x with dir := d }).truncate hd k)
      else
        -- frames are reserved; the extent is read first
        match x.dir.ents.foldl (fun a e => a.bind fun (d, u) => u.dirNeed x.ctx x.homeDie e.1 d) (r.1.dirFresh x.ctx x.homeDie) with
        | none => .done stNoFrame 0 r.1
        | some (d, u) =>
          let c : TruncCmd := ⟨sq, r.1.target sq (.cmd h (.sessionTruncate handle n)), h.tag, k, false, d, r.1.sqHeadOf sq⟩
          match (u.setSess hd { x with trunc := some c }).requestExtent hd false (.truncDir hd) with
          | (u, none) => .later u
          | (_, some st) => .done st 0 r.1

/-! ### MAP_COMMIT (07 R198, R221-R223; 08 R253) -/

/-- The map that staged bytes spell. -/
def mapOf (m : Staging) : CompMap :=
  let num := fun (a n : Nat) => leNat (memRead m.bytes a n)
  let ids := (List.range (m.idBytes / 4)).filterMap fun i =>
    let v := num (4 * i) 4
    if v = 0 then none else some (i, (⟨bits v 19 18, bit v 17, bits v 15 0⟩ : IdEnt))
  let exts := (List.range (m.extBytes / 16)).map fun i =>
    let v := num (m.idBytes + 16 * i) 16
    (⟨bits v 127 112, bits v 111 96, bits v 95 80, bits v 79 64, bits v 63 48, bits v 33 32⟩ : Extent)
  let gws := (List.range (min 16 (m.gwBytes / 32))).filterMap fun b =>
    let v := num (m.idBytes + m.extBytes + 32 * b) 32
    if v = 0 then none
    else some (b, (⟨bits v 2 0, (List.range (bits v 2 0)).map fun i => (bits v (143 + 32 * i) (128 + 32 * i), bits v (159 + 32 * i) (144 + 32 * i))⟩ : GwEnt))
  { epoch := m.epoch, ids := ids, exts := exts, gws := gws }

/-- The map keeps to R198, R221 and R253. -/
def State.mapOk (s : State) (st : Staging) (m : CompMap) : Bool :=
  let idOk := fun (e : Nat × IdEnt) =>
    decide (e.1 < 65535) && (match e.2.kind with | 0 => true | 1 => decide (e.1 < 0xC000) | 2 => decide (0xC000 ≤ e.1) | _ => false)
  let extOk := fun (e : Extent) => decide (e.first ≤ e.last) && (e.state == 1 || e.state == 2) && decide (e.id < 65535)
  let apart := m.exts.zipIdx.all fun a => m.exts.zipIdx.all fun b =>
    a.2 == b.2 || a.1.id != b.1.id || decide (a.1.last < b.1.first) || decide (b.1.last < a.1.first)
  let gwOk := fun (e : Nat × GwEnt) => decide (e.2.count ≤ 4) && (e.1 != s.bay || e.2.count == 0)
    && e.2.pairs.all fun p => p.1 / 4096 == s.bay && p.2 / 4096 == e.1
  st.idBytes == 262144 && decide (st.extBytes ≤ 65536) && st.extBytes % 16 == 0 && decide (st.gwBytes ≤ 4096) && st.gwBytes % 32 == 0
  && m.ids.all idOk && m.exts.all extOk && apart && m.gws.all gwOk && (m.idEnt s.fab.ownId).node == s.fab.node && (m.idEnt s.fab.ownId).kind == 1

/-- What a new map means for leases (06 R190) and incoming sessions (R188). -/
def State.mapEffects (s : State) : State :=
  let gone := s.ses.leases.filter fun e => e.2.valid && !e.2.lost && (s.fab.map.idEnt (hallId e.2.rcd.base.toNat)).lost
  let t := gone.foldl (fun u e => u.loseLease (e.1 / 4096) (e.1 % 4096)) s
  let removed := fun (dev : Nat) => let e := s.fab.map.idEnt dev; e.kind == 0 || e.lost
  (t.ses.tbl.filter fun e => e.2.mig == .inReady && removed e.2.peerDev).foldl (fun u e => u.migComplete e.1) t

/-- MAP_COMMIT (R222, R226): MAP_ACK is due. The answers on MGT go on after a FATAL error (16 R453). Before PORT_BRINGUP the device has no
node that an ID table could name: the map is refused. -/
def execMapCommit (epoch crc : W32) (s : State) : Res :=
  if !s.dev.locked || !s.fabricUp then .next s
  else
    let refuse := (s.count 0x4006 1).modFab fun g => { g with staging := none, mapAck := g.mapAck ++ [(epoch, stMap)] }
    match s.fab.staging with
    | none => .next refuse
    | some st =>
      let m := mapOf st
      let len := st.idBytes + st.extBytes + st.gwBytes
      if !s.fab.named || st.epoch != epoch || epoch != epSucc s.fab.map.epoch || crc32c (memRead st.bytes 0 len) != crc || !s.mapOk st m then .next refuse
      else .next (s.modFab fun g => { g with staging := none, prevMap := g.map, map := m, mapAck := g.mapAck ++ [(epoch, stOk)] }).mapEffects

end Sys2Proof.Machine
end

