-- ==== Sys2Proof/Machine/Firm.lean ====
section
/-! DEFINITION. Firmware images and the boot choice (14 R401-R412), reset
domains (15 R422-R426) and activation of an image (14 R409, R410), below their commands. -/

namespace Sys2Proof.Machine

/-! ### Images (14 R402, R403) -/

/-- Bits [hi:lo] of an image's header. -/
def imgField (img : List Byte) (hi lo : Nat) : Nat := bits (leNat (img.take 256)) hi lo
/-- VERSION, or MX_VERSION of the matrix (kind 4). -/
def imgVersion (kind : Nat) (img : List Byte) : Nat := if kind = 4 then imgField img 63 32 else imgField img 319 288
/-- SEC_VERSION, or MX_VERSION. -/
def imgSec (kind : Nat) (img : List Byte) : Nat := if kind = 4 then imgField img 63 32 else imgField img 351 320
def imgProvides (img : List Byte) : Nat := imgField img 383 368
/-- REQUIRES for kind `k`: lowest and highest interface revision. -/
def imgRange (img : List Byte) (k : Nat) : Nat × Nat := (imgField img (32 * k + 399) (32 * k + 384), imgField img (32 * k + 415) (32 * k + 400))
/-- ROWS of a matrix. -/
def mxRows (img : List Byte) : Nat := imgField img 31 16
/-- Bytes of an image that its header gives. -/
def imgBytes (kind : Nat) (img : List Byte) : Nat := if kind = 4 then 64 + 16 * mxRows img + 192 else 256 + imgField img 287 256
/-- The header is one of its kind, and the length is right. -/
def imgForm (kind : Nat) (img : List Byte) : Bool :=
  imgField img 7 0 == 1 && img.length == imgBytes kind img && decide (img.length ≤ imgMax kind)
  && (if kind = 4 then decide (1 ≤ mxRows img) && decide (mxRows img ≤ 4032) else imgField img 255 248 == kind)

/-- A set of images: one of each kind, the matrix last. -/
def setImg (l : List (List Byte)) (k : Nat) : List Byte := l.getD k []

/-- Row `i` of a matrix names the versions of the set. -/
def mxRowIs (l : List (List Byte)) (i : Nat) : Bool :=
  (List.range 4).all fun k => leNat (((setImg l 4).drop (64 + 16 * i + 4 * k)).take 4) == imgVersion k (setImg l k)

/-- The set is listed (R403). -/
def setListed (l : List (List Byte)) : Bool := (List.range (mxRows (setImg l 4))).any (mxRowIs l)

/-- Set digest (R402). -/
def digestOf (l : List (List Byte)) : BitVec 512 :=
  Config.sha512 ((List.range 4).flatMap fun k => leBytes 64 (imgMeasure (setImg l k)).toNat)

/-- A certificate as it stands in 128 bytes (12 R344). -/
def decCert (bs : List Byte) : Cert :=
  let v := leNat (bs.take 128)
  { subject := BitVec.ofNat 256 v, cver := BitVec.ofNat 8 (v / 2 ^ 256), kind := BitVec.ofNat 8 (v / 2 ^ 264),
    bootEpoch := BitVec.ofNat 16 (v / 2 ^ 272), serial := BitVec.ofNat 128 (v / 2 ^ 320), sig := BitVec.ofNat 512 (v / 2 ^ 512) }
/-- SIGNER_CERT of an image: KIND 3, SERIAL 0, signed by the root key over its first 64 bytes (R402). -/
def signerOk (bs : List Byte) : Bool :=
  let c := decCert bs
  c.kind == 3 && c.cver == 1 && c.serial == 0 && c.sig == Config.signature rootPub (bs.take 64)
/-- SIG verifies: over the measurement of an image (R402), over the SHA-512 of what precedes SIGNER_CERT of the matrix (R403). -/
def imgSigned (kind : Nat) (img : List Byte) : Bool :=
  let cert := if kind = 4 then img.drop (img.length - 192) else img.drop 64
  let sig := BitVec.ofNat 512 (leNat ((if kind = 4 then img.drop (img.length - 64) else img.drop 192).take 64))
  let hash := if kind = 4 then Config.sha512 (img.take (img.length - 192)) else imgMeasure img
  signerOk (cert.take 128) && sig == Config.signature (decCert cert).subject.toNat (leBytes 64 hash.toNat)

/-- Item 1 of R404 for one image. -/
def State.imgOk (s : State) (kind : Nat) (img : List Byte) : Bool :=
  imgForm kind img && imgSigned kind img && decide (s.mg.floors.getD kind 0 ≤ imgSec kind img)
/-- Item 2: each image's range for every other kind holds that kind's revision. -/
def setFits (l : List (List Byte)) : Bool :=
  (List.range 4).all fun i => (List.range 4).all fun k =>
    i == k || (decide ((imgRange (setImg l i) k).1 ≤ imgProvides (setImg l k)) && decide (imgProvides (setImg l k) ≤ (imgRange (setImg l i) k).2))
/-- Item 3 for one image: a level pinned lies in its range. -/
def State.levelOk (s : State) (img : List Byte) : Bool :=
  let p := s.obj 0x1100 2
  p == 0 || (decide (imgField img 359 352 ≤ p) && decide (p ≤ imgField img 367 360))
/-- Item 4: listed, or named by IMG_OVERRIDE. -/
def State.setAllowed (s : State) (l : List (List Byte)) : Bool :=
  setListed l || (s.obj 0xA004 1 != 0 && s.obj 0xA004 1 == (digestOf l).toNat)
/-- The set passes R404. -/
def State.setPasses (s : State) (l : List (List Byte)) : Bool :=
  (List.range 5).all (fun k => s.imgOk k (setImg l k)) && setFits l && (List.range 4).all (fun k => s.levelOk (setImg l k)) && s.setAllowed l

/-! ### The boot choice (14 R405) -/

/-- Images in the banks that `b` names, by kind. -/
def State.bankSet (s : State) (b : List Bool) : List (List Byte) :=
  (List.range 5).map fun k => tblGet [] s.mg.banks (2 * k + b2n (b.getD k false))

/-- Record of a boot fallback or an image failure; row 8 of the start-up sequence is "Boot set chosen" (DESIGN CHOICE, log entry 26). -/
def State.bootRecord (s : State) : State := (s.record { sev := 1, code := 0x0014, source := 0x0D, unit := 8 }).count 0xA006 1

/-- A set runs from its banks. -/
def State.runSet (s : State) (b : List Bool) : State :=
  let l := s.bankSet b
  s.modMg fun g => { g with running := l, runBanks := b, untested := !setListed l }

/-- A failed start-up step (16 R452); the manual gives the record no code (DESIGN CHOICE, log entry 26). -/
def State.stepFault (s : State) (row : Nat) : State := s.fatal (Config.openCode 1 % 65536) 0x0D row 0

/-- Items 2 and 3 of R405 for the chosen banks. -/
def State.bootSet (s : State) (b : List Bool) : State :=
  if s.setPasses (s.bankSet b) then s.runSet b
  else
    let s1 := s.bootRecord
    let l := s1.mg.boot.lkg
    if s1.setPasses (s1.bankSet l) then s1.runSet l
    else
      let m := setImg (s1.bankSet l) 0
      let run := if s1.imgOk 0 m then m else []
      (s1.modMg fun g => { g with running := [run, [], [], [], []], runBanks := l, untested := false }).stepFault 8

/-- R405. The record as it stood is kept for a reset of the same cycle (17 R470). -/
def State.boot (s0 : State) : State :=
  let r := s0.mg.boot
  let s := s0.modMg fun g => { g with bootWas := r, fatalWas := s0.err.fatal }
  if r.trial && r.trialBoots == 2 then
    (s.bootRecord.modMg fun g => { g with boot := { r with cur := r.lkg, trial := false } }).bootSet r.lkg
  else
    (s.modMg fun g => { g with boot := if r.trial then { r with trialBoots := r.trialBoots + 1 } else r }).bootSet r.cur

/-! ### Power-on and device reset (15 R422, R427) -/

/-- Objects of the monotonic store (14 R394, R407, R412; 15 R418). -/
def kept (key : Nat) : Bool :=
  let o := key / 1048576
  decide (o ∈ ([0x120101, 0x120102, 0x200101, 0x200102, 0x110002, 0xA00401] : List Nat))

/-- The next multiple of 2^32: the seal counter goes on above its last mark (12 R343). -/
def nextMark (c : Nat) : Nat := (c / 2 ^ 32 + 1) * 2 ^ 32

/-- The row "Root locked": every unit as at power-on, the counter 0, the boot epoch incremented. -/
def State.rootLocked (s : State) : State :=
  let b := State.reset
  { b with
    pending := s.pending, out := s.out, freeCtr := s.freeCtr
    dev := { b.dev with bootEpoch := (s.dev.bootEpoch + 1) % 65536, power := .starting, locked := true, phy := s.dev.phy, vin := s.dev.vin
                        rails := b.dev.rails.set 0 2, rstHeld := s.dev.rstHeld }
    err := { b.err with fatal := s.err.fatal, retired := s.err.retired }
    sec := { b.sec with epochs := s.sec.epochs, sealCtr := nextMark s.sec.sealCtr }
    mg := { b.mg with objs := s.mg.objs.filter (fun e => kept e.1), boot := s.mg.boot, floors := s.mg.floors, banks := s.mg.banks
                      stage := s.mg.stage } }

/-- The rows of the start-up sequence after root lock, up to the release of the images and the start of training: a new
AK, the boot choice, rails, HOST rail and host-site bring-up, Octica ports in training; then VCA0 ramps, the first of the four (15 R417). -/
def State.bootRows (s : State) : State :=
  let a := s.take1
  let s1 := (a.2.modSec fun g => { g with ak := Config.fresh a.1 % 2 ^ 256 }).boot
  let plinth := fun (l : List Nat) => ((l.set 1 2).set 2 2).set 3 2
  if s1.dev.siteFatal then s1.modDev fun d => { d with rails := plinth d.rails }
  else
    let host := s1.obj 0x2001 1 != 0 && s1.dev.hostRail != 3
    let s2 := s1.modDev fun d => { d with
      rails := (plinth d.rails).mapIdx fun i v => if 8 ≤ i then 2 else if i = 4 then 1 else v
      hostRail := if host then 2 else d.hostRail }
    (s2.modSite fun g => { g with bringing := host }).modFab fun g => { g with
      ports := g.ports.mapIdx fun p x => if s2.obj 0x4002 1 p = 1 then { x with state := 1 } else x }

/-- The sequence goes on from root lock, or waits there while RST_N is low (17 R470). -/
def State.afterLock (s : State) : State := if s.dev.rstHeld then s else s.bootRows

/-- A device reset: rails other than the cluster arrays and the HOST rail stay as they are, and the device key does (12 R338). -/
def State.resetDevice (s : State) : State :=
  let d := s.dev
  let s1 := ((s.rootLocked).modSec fun g => { g with devKey := s.sec.devKey }).modDev fun e => { e with
    supplyWarn := d.supplyWarn, supplyOk := d.supplyOk.map fun _ => 0, temps := d.temps, hostRail := d.hostRail
    rails := (d.rails.mapIdx fun i v => if 4 ≤ i ∧ i < 8 then 0 else v).set 0 2 }
  (s1.count 0x2100 4 0).afterLock

/-! ### Partial resets (15 R423-R426) -/

/-- RESET_DOMAIN codes. -/
def domPlinth : Nat := 1
def domDie (d : Nat) : Nat := 0x10 + d
def domPort (p : Nat) : Nat := 0x20 + p
def State.domStart (s : State) (c : Nat) : State := s.modDev fun d => { d with resetOrder := d.resetOrder ++ [c] }
/-- A domain is in reset (object 0x2100.2). -/
def State.dieInReset (s : State) (d : Nat) : Bool := (s.dev.dies.getD d ⟨none, false⟩).resetAt.isSome
def State.portInReset (s : State) (p : Nat) : Bool := (s.port p).resetAt.isSome

/-- A plinth-partial reset starts with its quiesce phase. -/
def State.resetPlinth (s : State) (act : Bool) : State :=
  ((s.modDev fun d => { d with plinth := .quiesce s.tick act }).domStart domPlinth).count 0x2100 4 1

/-- A die-partial reset: steps and periodic reservations of the die end with ST_RESET. -/
def State.resetDie (s : State) (d : Nat) : State :=
  let s1 := s.modDev fun g => { g with dies := tblSet g.dies d }
  ((s1.domStart (domDie d)).count 0x2100 4 (2 + d)).endDie d stReset
where
  tblSet (l : List DieSt) (d : Nat) : List DieSt := l.set d { l.getD d ⟨none, false⟩ with resetAt := some s.tick }

/-- A port-partial reset: the port goes down and is retrained, where it is enabled. -/
def State.resetPort (s : State) (p : Nat) : State :=
  let s1 := if (s.port p).up then s.portDown p else s.setPort p portReset
  let s2 := if s1.obj 0x4002 1 p = 1 then (s1.setPort p { s1.port p with state := 1, resetAt := some s1.tick }).domStart (domPort p) else s1
  s2.count 0x2100 4 (6 + p)

/-! ### Activation (14 R409, R410) -/

/-- The switch of an activation is complete. -/
def State.activated (s : State) (a : Activation) : State :=
  let st := s.mg.stage.getD a.kind ⟨0, [], 0⟩
  let banks := s.mg.runBanks.set a.kind !(s.mg.runBanks.getD a.kind false)
  let run := s.mg.running.set a.kind st.bytes
  (s.modMg fun g => { g with
    act := none, stage := g.stage.set a.kind ⟨0, [], st.result⟩, running := run, runBanks := banks, untested := !setListed run
    boot := { g.boot with cur := banks, trial := true, trialBoots := 0 } }).setObj 0xA002 4 0 0 stOk

/-- The next die or port of an activation starts to switch. -/
def State.actNext (s : State) (a : Activation) : State :=
  match a.todo with
  | [] => s
  | u :: l =>
    let keep := fun (t : State) (b : Activation) => t.modMg fun g => { g with act := some b }
    if a.kind = 3 then
      if (s.port u).up then keep (s.resetPort u) { a with todo := l, current := some u } else keep s { a with todo := l }
    else if s.dieFenced u then keep s { a with todo := l }
    else if s.dieInReset u then s
    else keep s { a with todo := l, current := some u, drainTill := some (s.tick + s.obj 0xA005 1 * ticksPerUs) }

/-- Some step holds quads of the die. -/
def State.dieBusy (s : State) (d : Nat) : Bool := s.run.steps.any fun e => !e.2.waits && e.2.quads.any fun q => q / 64 == d

/-- What an activation in progress does by itself: it waits for the die or port in hand, then takes the next. -/
def State.actStep (s : State) : State :=
  match s.mg.act with
  | none => s
  | some a =>
    match a.current with
    | none => s.actNext a
    | some u =>
      let next := fun (t : State) => t.modMg fun g => { g with act := some { a with current := none, drainTill := none } }
      if a.kind = 3 then (if s.portInReset u then s else next s)
      else if s.dieFenced u then next s
      else if a.drainTill.isSome then
        if s.dieBusy u then s else (s.resetDie u).modMg fun g => { g with act := some { a with drainTill := none } }
      else if s.dieInReset u then s
      else next s

end Sys2Proof.Machine
end

