-- ==== Sys2Proof/Machine/Power.lean ====
section
/-! DEFINITION. Meanings of the events of power, clocks, reset and sensors (15), of the contacts (17) and of the units
whose failure 16 names. -/

namespace Sys2Proof.Machine

/-- The device has power. -/
def State.powered (s : State) : Bool := s.dev.power == .starting || s.dev.power == .up

/-- A warning trigger; a FATAL error starts no checkpoint (16 R453). -/
def State.warn (s : State) (trig : Nat) : State := if s.live then s.ckptWarn trig else s

/-! ### Supply (15 R415, R418) -/

/-- Levels in mV: the window, and the limits beyond which the device stops. -/
def inWindow (mv : Nat) : Bool := decide (57000 ≤ mv) && decide (mv ≤ 63000)
def outOfRange (mv : Nat) : Bool := decide (mv < 52000) || decide (66000 < mv)

/-- POWER_ON (R427): everything resets but the monotonic store and the image banks, the root locks, the straps are
sampled (17 R470), and the device key is made (12 R338). `mv` is the input level, the flags say which straps read as PHY 1, as CLAIM_CLR low and as RST_N
low. -/
def execPowerOn (mv : Nat) (phySel claimClr rstLow : Bool) (s : State) : Res :=
  if s.powered || !inWindow mv then .next s
  else
    let k := s.rootLocked.take1
    let s1 := (k.2.modSec fun g => { g with devKey := Config.fresh k.1 % 2 ^ 512 }).modDev fun d => { d with
      vin := mv, phy := b2n phySel, rstHeld := rstLow, cold := true }
    let s2 := if claimClr then s1.modMg fun g => { g with
      objs := g.objs.filter fun e => e.1 / 1048576 != 0x120101 && e.1 / 1048576 != 0x120102 } else s1
    .next s2.afterLock

/-- Stack numbers of dies. -/
def stackDie (k : Nat) : Nat := k / 3

/-- Row of the start-up sequence in which rail `i` comes into regulation (15 R417, R427). -/
def railRow (i : Nat) : Nat := if i = 0 then 3 else if i < 4 then 9 else if i < 8 then 13 else 10

/-- The rails where row `row` failed: at power-on (`cold`) those of later rows have not been enabled, and one that this row brings up ramps;
after a device reset every rail but VCA0 to VCA3 has stayed up. -/
def railsAt (cold : Bool) (row : Nat) (l : List Nat) : List Nat :=
  l.mapIdx fun i v =>
    if !cold && !(4 ≤ i && i < 8) then v
    else if railRow i < row then 2
    else if railRow i = row && !(5 ≤ i && i < 8) then 1 else 0

/-- START_UP_COMPLETE reports that row `row` failed: the rails stand as they were then, and the device goes to FAULT. -/
def State.startFailed (s : State) (row : Nat) : State :=
  let off := s.dev.cold && decide (row ≤ 11)
  ((s.modDev fun d => { d with rails := railsAt d.cold row d.rails, hostRail := if off then 0 else d.hostRail }).modSite fun g => { g with
    bringing := g.bringing && !off }).stepFault row

/-- START_UP_COMPLETE (R427, R428; 14 R400): `badStacks` failed training, `failedRow` is a start-up row that failed. -/
def execStartUpComplete (badStacks : List Nat) (failedRow : Option Nat) (s : State) : Res :=
  if s.dev.power != .starting || !s.live || s.dev.rstHeld || s.dev.mgmt != 0 then .next s
  else match failedRow with
  | some r => .next (s.startFailed r)
  | none =>
    let bad := (List.range 4).filter fun d => badStacks.any fun k => decide (k < 12) && stackDie k == d
    let st := (List.range 12).map fun k => if decide (stackDie k ∈ bad) then 2 else 1
    let a := s.take1
    let s1 := a.2.modDev fun d => { d with hbmSt := st, trainUs := a.1 }
    match bad with
    | _ :: _ :: _ => .next (s1.startFailed 14)
    | l =>
      let s2 := s1.modDev fun d => { d with
        power := .up, mgmt := if s1.mg.untested then 3 else 1, rails := d.rails.mapIdx fun i v => if 4 ≤ i ∧ i < 8 then 2 else v }
      .next (l.foldl State.fenceDie s2)

/-- SUPPLY_LEVEL_CHANGE (R415). -/
def execSupplyLevelChange (mv : Nat) (s : State) : Res :=
  let s1 := s.modDev fun d => { d with vin := mv }
  if !s.powered then .next s1
  else if outOfRange mv then .next (s1.fatal 0x0013 0x0B 0xFFFF 0).powerDown
  else if inWindow mv then
    .next (s1.modDev fun d => { d with supplyOk := if d.supplyWarn then some (d.supplyOk.getD s.tick) else none })
  else if s.dev.supplyWarn then .next (s1.modDev fun d => { d with supplyOk := none })
  else
    let s2 := (s1.modDev fun d => { d with supplyWarn := true, supplyOk := none }).record
      { sev := 0, code := 0x0012, source := 0x0B, unit := 0xFFFF }
    .next ((s2.count 0x2003 1).warn 3)

/-- SUPPLY_WARNING_CLEAR (R415). -/
def execSupplyWarningClear (s : State) : Res :=
  match s.dev.supplyOk with
  | some t => if s.powered && decide (t + 10 * ticksPerMs ≤ s.tick) then
      .next (s.modDev fun d => { d with supplyWarn := false, supplyOk := none }) else .next s
  | none => .next s

/-- The HOST rail is off: the link goes down with the host die (R418). -/
def State.hostOff (s : State) (rail : Nat) : State :=
  (s.modDev fun d => { d with hostRail := rail }).linkOff

/-- HOST_RAIL_FAULT (R418): row 20 of RAILS. -/
def execHostRailFault (s : State) : Res :=
  if !s.powered || !(s.dev.hostRail == 1 || s.dev.hostRail == 2) then .next s
  else .next (((s.record { sev := 1, code := 0x0012, source := 0x0B, unit := 20 }).count 0x2001 3).hostOff 3)

/-! ### Sensors (15 R429) -/

/-- Thresholds of a row of TEMPS in °C: warning, throttle, critical. -/
def State.limits (s : State) (i : Nat) : Int × Int × Int :=
  if i < 5 then (s.obj 0x2002 2, s.obj 0x2002 3, 115) else (85, 95, 105)

/-- A condition's flag after a reading: set at its threshold, cleared 5 °C below it. -/
def latch (was : Bool) (t thr : Int) : Bool := decide (100 * thr ≤ t) || (was && decide (100 * (thr - 5) < t))

/-- One reading. -/
def State.sensor (s : State) (i : Nat) (t : Int) : State :=
  let l := s.limits i
  let w0 := s.dev.warned.getD i false
  let h0 := s.dev.throttled.getD i false
  let w := latch w0 t l.1
  let h := latch h0 t l.2.1
  let s1 := s.modDev fun d => { d with temps := d.temps.set i t, warned := d.warned.set i w, throttled := d.throttled.set i h }
  let s2 := if w && !w0 then ((s1.record { sev := 0, code := 0x0012, source := 0x0C, unit := i }).count 0x2003 2).warn 2 else s1
  let s3 := if h && !h0 then (s2.record { sev := 0, code := 0x0012, source := 0x0C, unit := i, shared := true }).count 0x2003 2 else s2
  if 100 * l.2.2 ≤ t then (s3.fatal 0x0013 0x0C i 0).powerDown else s3

/-- SENSOR_READ: readings of the 17 rows in 0.01 °C. -/
def execSensorRead (temps : List Int) (s : State) : Res :=
  if temps.length ≠ 17 || !s.powered || !s.dev.locked then .next s
  else .next (temps.zipIdx.foldl (fun t e => t.sensor e.2 e.1) s)

/-! ### Clocks and the reset contact (15 R420; 17 R470) -/

/-- ROOT_LOCK_LOSS. -/
def execRootLockLoss (s : State) : Res :=
  if !s.powered || !s.dev.locked then .next s
  else .next ((s.fatal 0x0013 0x0B 0xFFFF 0).modDev fun d => { d with locked := false })

/-- RST_N_ASSERT: RST_N has stayed low for 1,000 cycles of MCLK, and a device reset starts, or starts again. In the cycle in which the
root locked, by RESET_CMD or at power-on, it makes no second reset: that one waits, and its boot is not counted twice. One that has been low
since the root locked, or that has started a reset, asserts nothing anew. -/
def execRstNAssert (s : State) : Res :=
  if !s.powered || s.dev.rstHeld then .next s
  else if s.dev.power == .starting && s.dev.nclk == 0 then
    .next ((((s.modDev fun d => { d with rstHeld := true, bootEpoch := (d.bootEpoch + 65535) % 65536 }).modMg fun g => { g with
      boot := g.bootWas }).modErr fun g => { g with fatal := s.mg.fatalWas }).resetDevice.setObj 0x2100 4 0 0 (s.obj 0x2100 4 0))
  else .next (s.modDev fun d => { d with rstHeld := true }).resetDevice

/-- RST_N_RELEASE: the sequence goes on from root lock. -/
def execRstNRelease (s : State) : Res :=
  if !s.powered || !s.dev.rstHeld then .next s else .next (s.modDev fun d => { d with rstHeld := false }).bootRows

/-! ### Service degraded (12 R360) -/

/-- SERVICE_DEGRADED_CLEAR. -/
def execServiceDegradedClear (s : State) : Res :=
  match s.err.degraded with
  | some t => if s.live && decide (t ≤ s.tick) then .next ((s.modErr fun g => { g with degraded := none }).tellDegraded 0) else .next s
  | none => .next s

/-! ### Partial resets (15 R423-R426; 16 R450) -/

/-- A step of some context is running. -/
def State.anyRuns (s : State) : Bool := s.run.steps.any fun e => !e.2.waits

/-- A session's park, demotion or revival in progress fails with ST_RESET. -/
def State.moveReset (s : State) (h : Nat) : State :=
  match s.sess h with
  | none => s
  | some x =>
    if x.trunc.isSome then s.truncFail h stReset
    else if x.move.kind = 1 then s.parkFail h stReset
    else if x.move.kind = 3 then s.demoteFail h stReset
    else if x.pdir.isSome && (x.state == .reviving || (x.state == .lost && !x.move.suspended)) then s.reviveFail h stReset
    else s

/-- A checkpoint or restore ends with no event (13 R380). -/
def State.ckptReset (s : State) (c : Nat) : State :=
  let k := s.ckpt c
  if k.state = 0 then s
  else if k.state = 4 then (s.ckptIdle c).ckptResult c stReset
  else s.ckptFail c stReset false

/-- Phase 2 of a plinth-partial reset: steps, moves and checkpoints end with ST_RESET. -/
def State.plinthEnd (s : State) : State :=
  let wait := s.run.steps.filter fun e => e.2.waits
  let s1 := wait.foldl (fun t e => t.endOne e.1 e.2 stReset none) s
  let s2 := (s1.run.steps.map (·.1)).foldl (fun t n => t.endStep n stReset none) s1
  let s3 := (wait.map (·.2.jobId)).foldl State.endJob s2
  let s4 := (s3.ses.tbl.map (·.1)).foldl State.moveReset s3
  (s4.cks.tbl.map (·.1)).foldl State.ckptReset s4

/-- PLINTH_RESET_ENDING (R424). -/
def execPlinthResetEnding (s : State) : Res :=
  match s.dev.plinth with
  | .quiesce t act =>
    if s.live && (!s.anyRuns || decide (t + s.obj 0x2100 3 * ticksPerUs ≤ s.tick)) then
      .next (s.plinthEnd.modDev fun d => { d with plinth := .ending s.tick act })
    else .next s
  | _ => .next s

/-- Entries that wait in a spill are counted lost. -/
def State.loseSpills (s : State) : State :=
  (List.range 64).foldl (fun t q => if (t.qp q).spill.isEmpty then t else t.count 0x9000 5 q (t.qp q).spill.length) s

/-- Phase 3: the units of the domain reset. Vocabularies, grammars and stop sets stay in the text store; migrations keep
their movers and messages. -/
def State.plinthUnits (s : State) : State :=
  let g := s.site
  let mig := fun (h : Nat) => (s.sess h).any fun x => x.mig != .none
  let s1 := s.loseSpills
  { s1 with
    site := { State.reset.site with linkUp := g.linkUp, bringing := g.bringing, retryAt := g.retryAt, modules := g.modules,
                                    hostSeq := g.hostSeq, hostHeld := g.hostHeld, devSeq := g.devSeq }
    txt := { s1.txt with streams := [], events := [], lanes := [] }
    ses := { s1.ses with descs := [], movers := tblKeep s1.ses.movers fun _ j => mig j.handle, staged := s1.ses.staged.filter fun j => mig j.handle } }

/-- PLINTH_RESET_PHASE3. -/
def execPlinthResetPhase3 (s : State) : Res :=
  match s.dev.plinth with
  | .ending t act =>
    if s.live && (s.site.qps.all (fun p => p.spill.isEmpty) || decide (t + 100 * ticksPerUs ≤ s.tick)) then
      .next (s.plinthUnits.modDev fun d => { d with plinth := .reset s.tick act })
    else .next s
  | _ => .next s

/-- PLINTH_RESET_RELEASE: the units are released; the new microcode of a kind-1 activation runs. -/
def execPlinthResetRelease (s : State) : Res :=
  match s.dev.plinth with
  | .reset _ _ =>
    if !s.live then .next s
    else .next (((s.modDev fun d => { d with plinth := .none }).modSite fun g => { g with resetting := false }).domEnd domPlinth)
  | _ => .next s

/-- DIE_RESET_RELEASE (R425). -/
def execDieResetRelease (die : Nat) (s : State) : Res :=
  if 4 ≤ die then .next s
  else if !s.live || !s.dieInReset die then .next s
  else .next ((s.modDev fun d => { d with dies := d.dies.set die { d.dies.getD die ⟨none, false⟩ with resetAt := none } }).domEnd (domDie die))

/-- DIE_RESET_TIMEOUT (16 R450). -/
def execDieResetTimeout (die : Nat) (s : State) : Res :=
  if 4 ≤ die then .next s
  else match (s.dev.dies.getD die ⟨none, false⟩).resetAt with
    | some t => if s.live && decide (t + 5 * ticksPerMs ≤ s.tick) then .next (s.fenceAuto die) else .next s
    | none => .next s

/-! ### Failures of units (16 R449, R450) -/

/-- MEMORY_ISLAND_FAILURE, while the island runs. -/
def execMemoryIslandFailure (die : Nat) (s : State) : Res :=
  if 4 ≤ die then .next s
  else if !s.live || s.dev.power != .up || !s.islandUp die then .next s
  else .next ((s.modDev fun d => { d with hbmSt := d.hbmSt.zipIdx.map fun e => if e.2 / 3 = die then 2 else e.1 }).fatal 0x0017 0x0F die 0)

/-- DIE_SEQUENCER_OR_RAIL_FAULT: the sequencers or die network, or with `rail` the VCA rail, of a die. -/
def execDieSequencerOrRailFault (die : Nat) (rail : Bool) (s : State) : Res :=
  if 4 ≤ die then .next s
  else if !s.live || s.dev.power != .up || s.dieFenced die then .next s
  else
    let t := s.fenceAuto die
    .next (if rail then t.modDev fun d => { d with rails := d.rails.set (4 + die) 3 } else t)

end Sys2Proof.Machine
end

