-- ==== Sys2Proof/Machine/Text.lean ====
section
/-! DEFINITION. The text and grammar unit (09): UTF-8 runs, vocabulary and grammar images, tokenization, the
output side with stop strings, and grammar instances. -/

namespace Sys2Proof.Machine

/-! ### UTF-8 and maximal subparts (R267) -/

/-- Length of the sequence a lead byte opens and the range of its second byte; 1 for a byte that opens none. -/
def utf8Lead (b : Nat) : Nat × Nat × Nat :=
  if b < 0x80 then (1, 0, 0)
  else if b < 0xC2 then (0, 0, 0)
  else if b < 0xE0 then (2, 0x80, 0xBF)
  else if b = 0xE0 then (3, 0xA0, 0xBF)
  else if b = 0xED then (3, 0x80, 0x9F)
  else if b < 0xF0 then (3, 0x80, 0xBF)
  else if b = 0xF0 then (4, 0x90, 0xBF)
  else if b < 0xF4 then (4, 0x80, 0xBF)
  else if b = 0xF4 then (4, 0x80, 0x8F)
  else (0, 0, 0)

/-- Continuation bytes accepted, at most `n`, the first within [lo, hi]. -/
def utf8Cont : Nat → Nat → Nat → List Byte → Nat
  | 0, _, _, _ => 0
  | _, _, _, [] => 0
  | n + 1, lo, hi, b :: bs => if lo ≤ b.toNat ∧ b.toNat ≤ hi then utf8Cont n 0x80 0xBF bs + 1 else 0

/-- What stands at the head of a byte string: a character, a maximal subpart, or a prefix that the end cut. -/
inductive Run8 where
  | char (k : Nat) | bad (k : Nat) | cut (k : Nat)
  deriving DecidableEq, Repr

def utf8Head : List Byte → Run8
  | [] => .cut 0
  | b :: bs =>
    let l := utf8Lead b.toNat
    if l.1 = 0 then .bad 1
    else
      let j := utf8Cont (l.1 - 1) l.2.1 l.2.2 bs
      if j = l.1 - 1 then .char l.1
      else if j = bs.length then .cut (j + 1)
      else .bad (j + 1)

/-- A byte string cut into characters and maximal subparts, and the prefix left at its end. -/
def utf8Runs : Nat → List Byte → List (Bool × List Byte) × List Byte
  | 0, bs => ([], bs)
  | n + 1, bs =>
    match bs with
    | [] => ([], [])
    | _ =>
      match utf8Head bs with
      | .char k => let r := utf8Runs n (bs.drop k); ((false, bs.take k) :: r.1, r.2)
      | .bad k => let r := utf8Runs n (bs.drop k); ((true, bs.take k) :: r.1, r.2)
      | .cut _ => ([], bs)

/-- Well-formed UTF-8. -/
def utf8Ok (bs : List Byte) : Bool :=
  let r := utf8Runs bs.length bs
  r.2.isEmpty && r.1.all fun x => !x.1

/-- U+FFFD. -/
def fffd : List Byte := [0xEF, 0xBF, 0xBD]

/-! ### Vocabulary images (R263-R265) -/

/-- `n` bytes of an image from `a`, as a number. -/
def imgNum (m : Mem) (a n : Nat) : Nat := leNat (memRead m a n)
def vocVver (m : Mem) : Nat := imgNum m 0 1
def vocBlog2 (m : Mem) : Nat := imgNum m 17 1
def vocMaxLen (m : Mem) : Nat := imgNum m 18 1
def vocFb (m : Mem) : Bool := bit (imgNum m 19 1) 0
def vocTokens (m : Mem) : Nat := imgNum m 20 4
def vocUnk (m : Mem) : Nat := imgNum m 24 4
def vocFbBase (m : Mem) : Nat := imgNum m 28 4
def vocSpFirst (m : Mem) : Nat := imgNum m 32 4
def vocSpCount (m : Mem) : Nat := imgNum m 36 4
def vocNodes (m : Mem) : Nat := imgNum m 40 4
def vocStrBytes (m : Mem) : Nat := imgNum m 44 4
def vocImageLen (m : Mem) : Nat := imgNum m 48 4
/-- Offsets of the buckets, node table, token table and strings. -/
def vocBuckets : Nat := 64 + 1024
def vocNodeTab (m : Mem) : Nat := vocBuckets + 64 * 2 ^ vocBlog2 m
def vocTokTab (m : Mem) : Nat := vocNodeTab m + 4 * (vocNodes m + 1)
def vocStrs (m : Mem) : Nat := vocTokTab m + 4 * vocTokens m

/-- Bucket of a pair of keys (R264, R277). -/
def hashBucket (p b log2 : Nat) : Nat := (p * 0x9E3779B1 + b * 0x85EBCA77) % 2 ^ 32 / 2 ^ (32 - log2)

/-- The eight slots of a bucket. -/
def vocSlots (m : Mem) (bk : Nat) : List Nat := (List.range 8).map fun i => imgNum m (vocBuckets + 64 * bk + 8 * i) 8
/-- Child of (node, byte); 0 for none. -/
def vocChild (m : Mem) (node b : Nat) : Nat :=
  if node = 0 then imgNum m (64 + 4 * b) 4
  else match (vocSlots m (hashBucket node b (vocBlog2 m))).find? fun s => bit s 63 && bits s 61 40 == node && bits s 39 32 == b with
    | some s => bits s 21 0
    | none => 0
/-- The token a node ends, if any. -/
def vocTerm (m : Mem) (node : Nat) : Option Nat :=
  let e := imgNum m (vocNodeTab m + 4 * node) 4
  if bit e 31 then some (bits e 17 0) else none
/-- The byte string of a token. -/
def vocString (m : Mem) (t : Nat) : List Byte :=
  let e := imgNum m (vocTokTab m + 4 * t) 4
  memRead m (vocStrs m + bits e 23 0) (bits e 31 24)

/-- All used slots with their bucket. -/
def vocKeys (m : Mem) : List (Nat × Nat) :=
  (List.range (2 ^ vocBlog2 m)).flatMap fun bk => ((vocSlots m bk).filter fun s => bit s 63).map fun s => (bk, s)

/-- No key stands twice in a list. -/
def distinct : List Nat → Bool
  | [] => true
  | a :: l => !l.contains a && distinct l

/-- The load rules of R264 and R265; `len` is the command's IMAGE_LEN. -/
def vocOk (m : Mem) (len : Nat) : Bool :=
  let nodes := vocNodes m
  let toks := vocTokens m
  vocVver m == 1 && decide (4 ≤ vocBlog2 m ∧ vocBlog2 m ≤ 18) && decide (1 ≤ vocMaxLen m ∧ vocMaxLen m ≤ 128)
  && decide (1 ≤ toks ∧ toks ≤ 262144) && decide (nodes ≤ 4194303) && decide (vocImageLen m ≤ 33554432)
  && vocImageLen m == len && vocImageLen m == vocStrs m + vocStrBytes m
  && (List.range 256).all (fun b => decide (imgNum m (64 + 4 * b) 4 ≤ nodes))
  && (vocKeys m).all (fun k => k.1 == hashBucket (bits k.2 61 40) (bits k.2 39 32) (vocBlog2 m)
       && decide (1 ≤ bits k.2 61 40 ∧ bits k.2 61 40 ≤ nodes ∧ 1 ≤ bits k.2 21 0 ∧ bits k.2 21 0 ≤ nodes))
  && (List.range (2 ^ vocBlog2 m)).all (fun bk => distinct (((vocSlots m bk).filter fun s => bit s 63).map fun s => bits s 61 32))
  && (List.range toks).all (fun t => let e := imgNum m (vocTokTab m + 4 * t) 4
       decide (bits e 31 24 ≤ vocMaxLen m) && decide (bits e 23 0 + bits e 31 24 ≤ vocStrBytes m))
  && decide (vocUnk m < toks)
  && (!vocFb m || (decide (vocFbBase m + 255 < toks)
       && (List.range 256).all fun b => vocString m (vocFbBase m + b) == [BitVec.ofNat 8 b]))
  && (vocSpCount m == 0 || (decide (toks ≤ vocSpFirst m) && decide (vocSpFirst m + vocSpCount m ≤ 262144)))

/-- The replacement token (R267): of several with those three bytes, the lowest ID (DESIGN CHOICE, log entry 44). -/
def vocRep (m : Mem) : Nat :=
  ((List.range (vocTokens m)).find? fun t => vocString m t == fffd).getD (vocUnk m)

/-! ### Tokenization (R268, R269) -/

/-- A walk from `node` over the bytes that follow; `i` bytes examined so far. Answers the best match and the
bytes examined. The mark of a byte says that a maximal subpart starts there. -/
def walk (m : Mem) : List (Byte × Nat × Nat) → Nat → Nat → Option (Nat × Nat) → Option (Nat × Nat) × Nat
  | [], _, i, best => (best, i)
  | (b, bad, _) :: rest, node, i, best =>
    if node = 0 || bad != 0 then (best, i)
    else
      let nd := vocChild m node b.toNat
      let best' := if nd = 0 then best else match vocTerm m nd with
        | some t => some (t, i + 1)
        | none => best
      walk m rest nd (i + 1) best'

/-- One turn of the loop of R268: the tokens it emits, bytes it takes, maximal subparts it replaces, and bytes it examines past its match
(X of R269). -/
structure TokStep where
  toks : List Nat
  took : Nat
  bad  : Nat
  extra : Nat
  deriving DecidableEq, Repr

/-- The loop of R268. Cells: byte, length of the maximal subpart starting there or 0, length of the character starting there or 0. At a
position inside a character, which a shorter match leaves, the character at pos is that one byte (DESIGN CHOICE, log entry 44). -/
def tokGo (m : Mem) (fb : Bool) (rep : Nat) : Nat → List (Byte × Nat × Nat) → List TokStep
  | 0, _ => []
  | _ + 1, [] => []
  | n + 1, (b, bad, chr) :: rest =>
    let cells := (b, bad, chr) :: rest
    let bytes := fun k => (cells.take k).map fun c => vocFbBase m + c.1.toNat
    if bad != 0 then ⟨if fb then bytes bad else [rep], bad, 1, 0⟩ :: tokGo m fb rep n (cells.drop bad)
    else
      let nd := vocChild m 0 b.toNat
      let b0 := if nd = 0 then none else (vocTerm m nd).map fun t => (t, 1)
      let w := walk m rest nd 1 b0
      match w.1 with
      | some (t, l) => ⟨[t], l, 0, w.2 - (l + 1)⟩ :: tokGo m fb rep n (cells.drop l)
      | none =>
        let k := max 1 chr
        ⟨if fb then bytes k else [vocUnk m], k, 0, w.2 - (k + 1)⟩ :: tokGo m fb rep n (cells.drop k)

/-- Cells of a list of runs. -/
def runCells (rs : List (Bool × List Byte)) : List (Byte × Nat × Nat) :=
  rs.flatMap fun r => r.2.mapIdx fun i b =>
    (b, if r.1 && i == 0 then r.2.length else 0, if !r.1 && i == 0 then r.2.length else 0)

/-- The turns of the loop on a TOKENIZE, and the new carry (R267). -/
def tokenizeSteps (m : Mem) (fbOn last : Bool) (carry input : List Byte) : List TokStep × List Byte :=
  let bs := carry ++ input
  let r := utf8Runs bs.length bs
  let cells := runCells (if last && !r.2.isEmpty then r.1 ++ [(true, r.2)] else r.1)
  (tokGo m (fbOn && vocFb m) (vocRep m) cells.length cells, if last then [] else r.2)

/-- What a TOKENIZE yields: tokens, new carry, subparts replaced, lane cycles n + X. -/
def tokenizeBytes (m : Mem) (fbOn last : Bool) (carry input : List Byte) : List Nat × List Byte × Nat × Nat :=
  let r := tokenizeSteps m fbOn last carry input
  (r.1.flatMap (·.toks), r.2, (r.1.map (·.bad)).foldl (· + ·) 0, (r.1.map fun t => t.took + t.extra).foldl (· + ·) 0)

/-- Tokens found within the first `k` lane cycles. -/
def foundBy : Nat → List TokStep → List Nat
  | _, [] => []
  | k, t :: ts => if t.took + t.extra ≤ k then t.toks ++ foundBy (k - (t.took + t.extra)) ts else []

/-! ### Output side (R273, R274) -/

/-- Repaired bytes with their marks, the new tail, and how many subparts were replaced. -/
def repair (tail bs : List Byte) : List (Byte × Bool) × List Byte × Nat :=
  let all := tail ++ bs
  let r := utf8Runs all.length all
  (r.1.flatMap fun x => if x.1 then fffd.map (·, true) else x.2.map (·, false), r.2, (r.1.filter (·.1)).length)

/-- `t` ends the list `l`. -/
def endsWith (l t : List Byte) : Bool := decide (t.length ≤ l.length) && l.drop (l.length - t.length) == t

/-- The stop string complete at the end of `l`: longest, then lowest index. -/
def stopAt (stops : List (List Byte)) (l : List Byte) : Option (Nat × Nat) :=
  (stops.mapIdx fun i t => (i, t)).foldl (fun best x =>
    if endsWith l x.2 then match best with
      | some (_, n) => if n < x.2.length then some (x.1, x.2.length) else best
      | none => some (x.1, x.2.length)
    else best) none

/-- First position at which a stop string completes: bytes up to it, index and length of the string. -/
def stopScan (stops : List (List Byte)) (l : List (Byte × Bool)) : Nat → Nat → Option (Nat × Nat × Nat)
  | _, 0 => none
  | i, n + 1 =>
    match stopAt stops ((l.take (i + 1)).map (·.1)) with
    | some (x, len) => some (i + 1, x, len)
    | none => stopScan stops l (i + 1) n

/-- Length of the longest suffix of `l` that is a proper prefix of a stop string. -/
def holdLen (stops : List (List Byte)) (l : List Byte) : Nat → Nat
  | 0 => 0
  | n + 1 =>
    if decide (n + 1 ≤ l.length) && stops.any (fun t => decide (n + 1 < t.length) && t.take (n + 1) == l.drop (l.length - (n + 1)))
    then n + 1 else holdLen stops l n

/-! ### Text entries (R276) -/

/-- One stream record. -/
def State.strm (s : State) (n : Nat) : Option TStream := tblFind s.txt.streams n
def State.setStrm (s : State) (n : Nat) (t : TStream) : State := s.modTxt fun g => { g with streams := tblIns g.streams n t }

/-- A text entry of stream `n` as an event. -/
def State.textEvent (s : State) (t : TStream) (status body : Nat) : State :=
  s.event t.cq { kind := 5, event := 0, status := status, ctx := t.ctx, sqId := 0xFF, sqHead := s.site.lastHead,
                 time := s.tick, tag := 0, body := body }

/-- The entries of one release: parts of at most 80 bytes, MORE on all but the last. -/
def releaseGo (n kind aux status token : Nat) : List (List (Byte × Bool)) → TStream → State → TStream × State
  | [], t, s => (t, s)
  | c :: cs, t, s =>
    let t' := { t with eseq := t.eseq + 1 }
    let b := textBody (c.map (·.1)) kind aux (c.any (·.2)) (!cs.isEmpty) n t'.eseq 0 token
    releaseGo n kind aux status token cs t' (s.textEvent t' status b)

/-- Bytes released under one kind and status; an empty release is one entry. -/
def release (n : Nat) (t : TStream) (s : State) (kind aux status token : Nat) (bs : List (Byte × Bool)) : TStream × State :=
  releaseGo n kind aux status token (if bs.isEmpty then [[]] else chunks 80 bs bs.length) t s

/-- Held bytes, and the tail as U+FFFD (R273). -/
def TStream.rest (t : TStream) : List (Byte × Bool) := t.held ++ (if t.tail.isEmpty then [] else fffd.map (·, true))
/-- The replacement of a tail counts as one subpart. -/
def TStream.restBad (t : TStream) : Nat := if t.tail.isEmpty then 0 else 1

/-- An instance becomes ENDED. -/
def endInst (i : Option Instance_) : Option Instance_ := i.map fun x => { x with state := 2 }

/-- An OPEN stream becomes ENDED: everything kept back is released (R262). -/
def endStream (n : Nat) (t : TStream) (s : State) (kind status token : Nat) : TStream × State :=
  let r := release n { t with held := [], tail := [], state := .ended, inst := endInst t.inst } (s.count 0x6006 2 0 t.restBad)
    kind 0 status token t.rest
  r

/-! ### Grammars (R277-R282) -/

def gramClog2 (m : Mem) : Nat := imgNum m 1 1
def gramStart (m : Mem) : Nat := imgNum m 2 2
def gramActions (m : Mem) : Nat := imgNum m 4 4
def gramImageLen (m : Mem) : Nat := imgNum m 8 4
/-- The four entries of a bucket. -/
def gramSlots (m : Mem) (bk : Nat) : List Nat := (List.range 4).map fun i => imgNum m (64 + 64 * bk + 16 * i) 16
/-- Action entry `i`. -/
def gramAct (m : Mem) (i : Nat) : Nat := imgNum m (64 + 64 * 2 ^ gramClog2 m + 16 * i) 16
/-- The actions of a configuration entry. -/
def confActs (m : Mem) (e : Nat) : List Nat := (List.range (bits e 94 82)).map fun i => gramAct m (bits e 81 58 + i)
/-- The actions of configuration (st, top); none when no entry matches. -/
def gramConf (m : Mem) (st top : Nat) : List Nat :=
  match (gramSlots m (hashBucket st top (gramClog2 m))).find? fun e => bit e 127 && bits e 126 111 == st && bits e 110 95 == top with
  | some e => confActs m e
  | none => []

/-- Ranges disjoint and ascending below 262,144; `lo` is the least token still free. -/
def actsOk : Nat → List Nat → Bool
  | _, [] => true
  | lo, a :: as =>
    let l := bits a 127 110
    let h := bits a 109 92
    decide (bits a 74 73 ≤ 2) && (bits a 74 73 == 0 || bits a 47 32 != 0) && (bits a 74 73 != 2 || bits a 63 48 != 0)
    && (if l ≤ h then decide (lo ≤ l) && actsOk (h + 1) as else actsOk lo as)

/-- The load rules of R277. -/
def gramOk (m : Mem) : Bool :=
  imgNum m 0 1 == 1 && decide (gramClog2 m ≤ 16) && decide (gramActions m ≤ 1048576) && decide (gramImageLen m ≤ 16777216)
  && gramImageLen m == 64 + 64 * 2 ^ gramClog2 m + 16 * gramActions m
  && (List.range (2 ^ gramClog2 m)).all fun bk => ((gramSlots m bk).filter fun e => bit e 127).all fun e =>
       bk == hashBucket (bits e 126 111) (bits e 110 95) (gramClog2 m) && decide (1 ≤ bits e 94 82 ∧ bits e 94 82 ≤ 4096)
       && decide (bits e 81 58 + bits e 94 82 ≤ gramActions m) && actsOk 0 (confActs m e)

/-- The ranges of tokens an instance in state OPEN allows. -/
def instRanges (m : Mem) (i : Instance_) : List (Nat × Nat) :=
  if i.stuck then []
  else ((gramConf m i.gs (i.stack.headD 0)).map fun a => (bits a 127 110, bits a 109 92)).filter fun r => decide (r.1 ≤ r.2)

/-- The instance after an allowed token (R280). -/
def instMove (i : Instance_) (a : Nat) : Instance_ :=
  let popBad := bit a 75 && i.stack.isEmpty
  let st := if bit a 75 then i.stack.tail else i.stack
  let st1 := if 1 ≤ bits a 74 73 then bits a 47 32 :: st else st
  let st2 := if bits a 74 73 = 2 then bits a 63 48 :: st1 else st1
  { i with gs := bits a 91 76, stack := st2.take 256, stuck := popBad || decide (256 < st2.length) }

/-- The mask and header of an instance, written to its buffer (R278, R279). -/
def State.writeMask (s : State) (n ctx : Nat) (i : Instance_) (rs : List (Nat × Nat)) : State :=
  let mask := rs.foldl (fun v r => v + (2 ^ (r.2 + 1) - 2 ^ r.1)) 0
  let allowed := rs.foldl (fun v r => v + (r.2 + 1 - r.1)) 0
  let hdr := i.state % 2 ^ 32 + n % 2 ^ 14 * 2 ^ 64 + allowed % 2 ^ 32 * 2 ^ 96 + i.mseq % 2 ^ 32 * 2 ^ 128
  (s.cwrite ctx (i.maskAddr + 64) (leBytes 32768 mask)).cwrite ctx i.maskAddr (leBytes 64 hdr)

/-- The instance whose configuration was just reached, with its mask written; true when it was a dead end. -/
def State.settleInst (s : State) (n ctx : Nat) (m : Mem) (i : Instance_) : Instance_ × Bool × State :=
  let i1 := { i with mseq := i.mseq + 1 }
  match instRanges m i1 with
  | [] =>
    match i1.escape with
    | some e => let i2 := { i1 with state := 1 }; (i2, true, s.writeMask n ctx i2 [(e, e)])
    | none => let i2 := { i1 with state := 2 }; (i2, true, s.writeMask n ctx i2 [])
  | rs => (i1, false, s.writeMask n ctx i1 rs)

/-- The grammar of an instance. -/
def State.gram (s : State) (ctx g : Nat) : Option Grammar := tblFind s.txt.grammars (ctx * 64 + g)
/-- The vocabulary of a stream. -/
def State.voc (s : State) (ctx v : Nat) : Option Vocab := tblFind s.txt.vocabs (ctx * 16 + v)

/-- Image blocks of a length (R260). -/
def imgBlocks (len : Nat) : Nat := ceilDiv len 16384
/-- Image blocks a context holds. -/
def State.blocksHeld (s : State) (ctx : Nat) : Nat :=
  (s.txt.vocabs.filter fun e => e.1 / 16 == ctx).foldl (fun n e => n + imgBlocks e.2.len) 0
  + (s.txt.grammars.filter fun e => e.1 / 64 == ctx).foldl (fun n e => n + imgBlocks e.2.len) 0
/-- Image blocks all contexts hold. -/
def State.blocksAll (s : State) : Nat :=
  s.txt.vocabs.foldl (fun n e => n + imgBlocks e.2.len) 0 + s.txt.grammars.foldl (fun n e => n + imgBlocks e.2.len) 0
/-- Grammar instances a context holds. -/
def State.instsHeld (s : State) (ctx : Nat) : Nat := tblCount s.txt.streams fun _ t => t.ctx == ctx && t.inst.isSome

/-- The stream lies inside the context's stream block (R262). -/
def State.strmIn (s : State) (ctx n : Nat) : Bool := within n 1 (s.obj 0x6003 1 ctx 0) (s.obj 0x6003 1 ctx 1)
/-- A stream of the context that is not FREE. -/
def State.ownStrm (s : State) (ctx n : Nat) : Option TStream :=
  match s.strm n with
  | some t => if t.ctx = ctx && s.strmIn ctx n then some t else none
  | none => none

end Sys2Proof.Machine
end

