-- ==== Sys2Proof/Machine/TextCmds.lean ====
section
/-! DEFINITION. Meanings of the text and grammar commands and events (09). -/

namespace Sys2Proof.Machine

/-- An image copied out of context memory. -/
def State.image (s : State) (ctx addr len : Nat) : Mem := memWrite [] 0 (s.cread ctx addr len)

/-- A context address range that ends inside the 48-bit space. -/
def inSpace (addr len : Nat) : Bool := decide (addr + len ≤ 2 ^ 48)

/-! ### Lanes (R269, R275, R282; 10 R307) -/

/-- The text unit works: clocks run, no FATAL error, not in phase 3 of a plinth-partial reset. -/
def State.textUp (s : State) : Bool := s.live && !s.plinthDown

/-- What the grammar check of a token finds (R280). -/
inductive GramRes where
  | free | rejected | escaped
  | moved (i : Instance_) (m : Mem) (acts : Nat)

/-- Check and advance of an instance on token `tok` (R280). -/
def State.gramStep (s : State) (ctx : Nat) (i : Option Instance_) (tok : Nat) : GramRes :=
  match i with
  | none => .free
  | some i =>
    match s.gram ctx i.grammar with
    | none => .rejected
    | some g =>
      if i.state = 1 then (if i.escape = some tok then .escaped else .rejected)
      else if i.state = 0 && !i.stuck then
        match (gramConf g.image i.gs (i.stack.headD 0)).find? fun a => decide (bits a 127 110 ≤ tok ∧ tok ≤ bits a 109 92) with
        | some a =>
          let j := instMove i a
          .moved j g.image (if j.stuck then 0 else (gramConf g.image j.gs (j.stack.headD 0)).length)
        | none => .rejected
      else .rejected

/-- Lane cycles of a token event: 8 + LEN for a text token, and the grammar's costs; none where nothing is done on a lane. -/
def State.eventCost (s : State) (ev : TokEvent) : Nat :=
  match s.ownStrm ev.ctx ev.stream with
  | none => 0
  | some t =>
    if t.state ≠ .open then 0
    else match s.voc t.ctx t.vocab with
      | none => 0
      | some v =>
        let sp := decide (vocSpFirst v.image ≤ ev.token ∧ ev.token < vocSpFirst v.image + vocSpCount v.image)
        if v.damaged || (!decide (ev.token < vocTokens v.image) && !sp) then 0
        else (if sp then 0 else 8 + (vocString v.image ev.token).length) + match s.gramStep t.ctx t.inst ev.token with
          | .free | .rejected => 0
          | .escaped => 40
          | .moved _ _ acts => 40 + 512 + acts

/-- The event can be applied: its lane work is done, or there is none. -/
def State.eventReady (s : State) (ev : TokEvent) : Bool :=
  match ev.till with | some t => decide (t ≤ s.dev.nclk) | none => s.eventCost ev == 0

/-- Lane cycles of a TOKENIZE as memory now stands (R269). -/
def State.tokCost (s : State) (x : TStream) (c : TokCmd) : Nat :=
  match s.voc x.ctx x.vocab with
  | none => 0
  | some v => if v.damaged then 0 else
    (tokenizeBytes v.image (s.obj 0x6002 1 x.ctx == 1) c.last x.carry (s.cread x.ctx c.inAddr c.len)).2.2.2

/-- Work that waits for a lane: stream, whether it is a token event, context, class and order. -/
structure LaneItem where
  stream : Nat
  event  : Bool
  ctx    : Nat
  rank   : Nat
  order  : Nat
  deriving DecidableEq, Repr

/-- The oldest token event of each stream not yet begun, and the oldest TOKENIZE of each stream where it has bytes left that no lane
examines now; of contexts that have tokens (10 R306). -/
def State.laneItems (s : State) : List LaneItem :=
  let first := fun (e : TokEvent) => (s.txt.events.find? fun f => f.stream == e.stream) == some e
  let evs := (s.txt.events.filter fun e => first e && e.till.isNone && s.eventCost e != 0).map fun e =>
    (⟨e.stream, true, e.ctx, e.rank, e.order⟩ : LaneItem)
  let toks := s.txt.streams.filterMap fun e => match e.2.queue with
    | c :: _ => if c.left != some 0 && decide (c.till ≤ s.dev.nclk) then some (⟨e.1, false, e.2.ctx, 3, c.order⟩ : LaneItem) else none
    | [] => none
  (evs ++ toks).filter fun i => s.mayStart i.ctx 4 (i.rank == 0) && s.slotOk i.ctx

/-- Of work that waits for a lane, what goes next (10 R287, R307). -/
def State.lanePick (s : State) : Option LaneItem :=
  let l := s.laneItems
  match s.fqPick 1 (l.map (·.ctx)) with
  | none => none
  | some c => (l.filter (·.ctx == c)).foldl (fun b i => match b with
    | none => some i
    | some (j : LaneItem) => if i.rank < j.rank ∨ (i.rank = j.rank ∧ i.order < j.order) then some i else b) none

/-- Work of context `c` on lane `l`: in SEALED the lanes serve in a context's slots that context alone, and hold nothing of others there
(12 R361). -/
def State.laneKey (s : State) (c l : Nat) : Nat := (if s.profile = 2 then c else 256) * 16 + l
def State.laneBusy (s : State) (c l : Nat) : Bool := decide (s.dev.nclk < tblGet 0 s.txt.lanes (s.laneKey c l))

/-- Lane `l` begins `n` cycles of work for context `c`. -/
def State.laneStart (s : State) (l c n : Nat) : State :=
  (s.modTxt fun g => { g with lanes := tblPut 0 g.lanes (s.laneKey c l) (s.workEnd c n) }).fqStart 1 c 4 n

/-- Lane `l` begins an item: a token event whole, a TOKENIZE up to 4,096 bytes more (R269). -/
def State.laneBegin (s : State) (l : Nat) (i : LaneItem) : State :=
  if i.event then
    match s.txt.events.find? fun e => e.stream == i.stream with
    | none => s
    | some ev =>
      let n := s.eventCost ev
      (s.laneStart l i.ctx n).modTxt fun g => { g with
        events := g.events.map fun e => if e.order = ev.order then { e with till := some (s.workEnd i.ctx n) } else e }
  else
    match s.strm i.stream with
    | some x => match x.queue with
      | c :: rest =>
        let left := c.left.getD (s.tokCost x c)
        let n := min 4096 left
        (s.laneStart l i.ctx n).setStrm i.stream { x with queue := { c with left := some (left - n), till := s.workEnd i.ctx n } :: rest }
      | [] => s
    | none => s

/-- The turn of the oldest TOKENIZE of stream `n` is over and more follow: the tokens that it has found are written (R269). TOKENIZE_DONE
writes those of the last turn, and the others again with the values they have. A failed line of its input lets it write none. -/
def State.tokWrite (s : State) (n : Nat) (x : TStream) : State :=
  match x.queue, s.voc x.ctx x.vocab with
  | c :: rest, some v =>
    match c.left with
    | some (k + 1) =>
      if decide (s.dev.nclk < c.till) || v.damaged || (s.cbad x.ctx c.inAddr c.len).isSome then s
      else
        let all := (tokenizeSteps v.image (s.obj 0x6002 1 x.ctx == 1) c.last x.carry (s.cread x.ctx c.inAddr c.len)).1
        let new := (foundBy (s.tokCost x c - (k + 1)) all).drop c.wrote
        let at_ := c.outAddr + 4 * c.wrote
        let fs := s.uncopied x.ctx at_ (4 * new.length)
        if new.isEmpty then s
        else if !fs.isEmpty then s.cbwHold fs (some (2 ^ 20 + n))
        else (s.cwrite x.ctx at_ (new.flatMap (leBytes 4))).setStrm n { x with queue := { c with wrote := c.wrote + new.length } :: rest }
    | _ => s
  | _, _ => s

/-- Tokens found are written, and idle lanes take up work. -/
def State.laneTick (s : State) : State :=
  if !s.textUp then s
  else
    let w := s.each s.txt.streams fun t e => t.tokWrite e.1 e.2
    let t := w.each (List.range 16) fun t l => match t.lanePick with
      | some i => if t.laneBusy i.ctx l then t else t.laneBegin l i
      | none => t
    t.modTxt fun g => { g with meters := (List.range 16).foldl (fun m l =>
      tblPut ⟨none, []⟩ m l ((tblGet ⟨none, []⟩ m l).note t.dev.nclk (tblAny g.lanes fun k e => k % 16 == l && decide (t.dev.nclk < e)))) g.meters }

/-- A lane that is idle for context `c`. -/
def State.idleLane (s : State) (c : Nat) : Option Nat := (List.range 16).find? fun l => !s.laneBusy c l
/-- Lane work of a host command. -/
def State.laneTake (s : State) (ctx n : Nat) : State := match s.idleLane ctx with | some l => s.laneStart l ctx n | none => s
/-- A GRAMMAR_BIND to an OPEN stream of the context waits for a lane and for tokens (10 R306). -/
def State.bindWaits (s : State) (ctx n : Nat) : Bool :=
  (s.ownStrm ctx n).any (fun x => x.state == .open && x.inst.isNone) && ((s.idleLane ctx).isNone || !s.mayStart ctx 4 false || !s.slotOk ctx)

/-- A host command that names stream `n` waits for the token events of it that the text unit has received: those of an earlier cycle and
of the same one go first (R271; DEDUCED, log entry 44). -/
def State.streamCmd (s : State) (sq : Nat) (h : CmdHdr) (n : Nat) (c : HostCmd) (hosts : List (Nat × Nat)) (f : State → CmdOut) : Res :=
  if s.txt.events.any fun e => e.stream == n && e.ctx == h.ctx.toNat then .next s else s.ringCmd sq h c hosts f

/-- A command that reads [addr, addr+n) of context memory ends with ST_HBM_UE where a line there has failed (16 R444, R475). -/
def CmdOut.reading (t : State) (ctx addr n : Nat) (f : CmdOut) : CmdOut :=
  match t.cbad ctx addr n with
  | some l => .done stHbmUe 0 (t.ueRead l ctx none)
  | none => f

/-- A load of `new` blocks in place of `old` breaks the context's quota, or the partition (R260, R261). -/
def State.noBlocks (s : State) (ctx old new : Nat) : Bool :=
  decide (s.obj 0x6001 1 ctx < s.blocksHeld ctx - old + new) || decide (2512 < s.blocksAll - old + new)

/-- VOCAB_LOAD (R263, R265; space under R261). -/
def execVocabLoad (sq : Nat) (h : CmdHdr) (vocab : BitVec 4) (addr : BitVec 48) (imageLen : W32) (s : State) : Res :=
  s.ringCmd sq h (.vocabLoad vocab addr imageLen) [] fun t =>
    let ctx := h.ctx.toNat
    let k := ctx * 16 + vocab.toNat
    let len := imageLen.toNat
    let old := match tblFind t.txt.vocabs k with | some v => imgBlocks v.len | none => 0
    if len > 33554432 || !inSpace addr.toNat len then .done stVocabImage 0 t
    else if t.noBlocks ctx old (imgBlocks len) then .done stTextSpace 0 t
    else CmdOut.reading t ctx addr.toNat len <|
      let m := t.image ctx addr.toNat len
      if !vocOk m len then .done stVocabImage 0 t
      else .done stOk 0 (t.modTxt fun g => { g with vocabs := tblIns g.vocabs k ⟨m, len, false⟩ })

/-- VOCAB_REMOVE (R265). -/
def execVocabRemove (sq : Nat) (h : CmdHdr) (vocab : BitVec 4) (s : State) : Res :=
  s.ringCmd sq h (.vocabRemove vocab) [] fun t =>
    let ctx := h.ctx.toNat
    let k := ctx * 16 + vocab.toNat
    if (tblFind t.txt.vocabs k).isNone then .done stTextField 0 t
    else if tblAny t.txt.streams (fun _ x => x.ctx == ctx && x.vocab == vocab.toNat) then .done stTextInUse 0 t
    else .done stOk 0 (t.modTxt fun g => { g with vocabs := tblDel g.vocabs k })

/-- The strings of a STOPSET_SET: string i at offset 64 i, its length in byte i of the operand. -/
def State.stopStrings (s : State) (ctx addr count : Nat) (lens : BitVec 128) : List (List Byte) :=
  (List.range count).map fun i => s.cread ctx (addr + 64 * i) (bits lens.toNat (8 * i + 7) (8 * i))

/-- STOPSET_SET (R274). -/
def execStopsetSet (sq : Nat) (h : CmdHdr) (stopset : BitVec 8) (countM1 : BitVec 4) (addr : BitVec 48) (lens : BitVec 128)
    (s : State) : Res :=
  s.ringCmd sq h (.stopsetSet stopset countM1 addr lens) [] fun t =>
    let ctx := h.ctx.toNat
    let k := ctx * 256 + stopset.toNat
    let strs := t.stopStrings ctx addr.toNat (countM1.toNat + 1) lens
    if !inSpace addr.toNat (64 * countM1.toNat + bits lens.toNat (8 * countM1.toNat + 7) (8 * countM1.toNat)) then .done stTextField 0 t
    else CmdOut.reading t ctx addr.toNat (64 * (countM1.toNat + 1)) <|
      if strs.any (fun x => x.isEmpty || decide (64 < x.length) || !utf8Ok x) then .done stTextField 0 t
    else if (tblFind t.txt.stops k).isNone
        && (decide (t.obj 0x6001 2 ctx ≤ tblCount t.txt.stops fun j _ => j / 256 == ctx) || decide (2048 ≤ t.txt.stops.length)) then
      .done stTextSpace 0 t
    else .done stOk 0 (t.modTxt fun g => { g with stops := tblIns g.stops k strs })

/-- STREAM_OPEN (R262). -/
def execStreamOpen (sq : Nat) (h : CmdHdr) (stream : BitVec 14) (vocab : BitVec 4) (stopset : BitVec 16) (includeStop : Bool)
    (eventCq : BitVec 6) (s : State) : Res :=
  s.streamCmd sq h stream.toNat (.streamOpen stream vocab stopset includeStop eventCq) [] fun t =>
    let ctx := h.ctx.toNat
    let n := stream.toNat
    let old := t.strm n
    let ss := if stopset.toNat = 0xFFFF then none else some stopset.toNat
    if !t.strmIn ctx n || (match old with | some x => x.ctx != ctx || x.state == .open | none => false) then .done stStream 0 t
    else match t.voc ctx vocab.toNat with
      | none => .done stTextField 0 t
      | some v =>
        if v.damaged then .done stSramUe 0 t
        else if (match ss with | some i => (tblFind t.txt.stops (ctx * 256 + i)).isNone || decide (255 < i) | none => false) then
          .done stTextField 0 t
        else
          let o := old.getD ⟨ctx, .ended, 0, none, false, 0, [], [], [], 0, [], none⟩
          .done stOk 0 (t.setStrm n { o with state := .open, vocab := vocab.toNat, stopset := ss, inclStop := includeStop,
                                             cq := eventCq.toNat, held := [], tail := [], eseq := 0 })

/-- STREAM_CLOSE (R262): an OPEN stream is ended first; TOKENIZE commands still waiting end with ST_STREAM. -/
def execStreamClose (sq : Nat) (h : CmdHdr) (stream : BitVec 14) (s : State) : Res :=
  s.streamCmd sq h stream.toNat (.streamClose stream) [] fun t =>
    let n := stream.toNat
    match t.ownStrm h.ctx.toNat n with
    | none => .done stStream 0 t
    | some x =>
      let r := if x.state = .open then endStream n x t 4 stOk 0 else (x, t)
      let t1 := (r.2.setStrm n r.1).each x.queue fun u c => u.tokenized c.sq c.cq x.ctx c.head c.tag n stStream 0 false
      .done stOk 0 (t1.modTxt fun g => { g with streams := tblDel g.streams n })

/-- TOKENIZE (R266): it joins its stream's queue. -/
def execTokenize (sq : Nat) (h : CmdHdr) (stream : BitVec 14) (last : Bool) (inAddr : BitVec 48) (len : W32) (outAddr : BitVec 48)
    (outCap : W32) (s : State) : Res :=
  s.streamCmd sq h stream.toNat (.tokenize stream last inAddr len outAddr outCap) [] fun t =>
    let ctx := h.ctx.toNat
    let n := stream.toNat
    match t.ownStrm ctx n with
    | none => .done stStream 0 t
    | some x =>
      if x.state ≠ .open then .done stStream 0 t
      else if len.toNat < 1 || len.toNat > 16777216 || outAddr.toNat % 64 != 0 || outCap.toNat < len.toNat + 3
          || !inSpace inAddr.toNat len.toNat || !inSpace outAddr.toNat (4 * (len.toNat + 3)) then .done stTextField 0 t
      else
        let c : TokCmd := {
          sq := sq, cq := t.target sq (.cmd h (.tokenize stream last inAddr len outAddr outCap)), tag := h.tag, last := last,
          inAddr := inAddr.toNat, len := len.toNat, outAddr := outAddr.toNat, head := t.sqHeadOf sq, order := t.txt.nextOrder, left := none,
          till := 0 }
        .later ((t.setStrm n { x with queue := x.queue ++ [c] }).modTxt fun g => { g with nextOrder := g.nextOrder + 1 })

/-- TOKENIZE_DONE (R267-R269): the lane work of the stream's oldest TOKENIZE is done; its tokens are in memory and its TOKENIZED entry is
posted. -/
def execTokenizeDone (stream : Nat) (s : State) : Res :=
  match s.strm stream with
  | none => .next s
  | some x =>
    match x.queue with
    | [] => .next s
    | c :: rest =>
      if !s.textUp || c.left != some 0 || decide (s.dev.nclk < c.till) then .next s
      else
        match s.voc x.ctx x.vocab with
        | none => .next s
        | some v =>
          let r := tokenizeBytes v.image (s.obj 0x6002 1 x.ctx == 1) c.last x.carry (s.cread x.ctx c.inAddr c.len)
          let fs := s.uncopied x.ctx c.outAddr (4 * r.1.length)
          if !fs.isEmpty then .next (s.cbwHold fs (some (2 ^ 20 + stream)))
          else match (if v.damaged then none else s.cbad x.ctx c.inAddr c.len) with
          | some l => .next (((s.setStrm stream { x with queue := rest }).ueRead l x.ctx none).tokenized c.sq c.cq x.ctx c.head c.tag stream
              stHbmUe 0 false)
          | none =>
            let x1 := { x with queue := rest, carry := if v.damaged then x.carry else r.2.1 }
            if v.damaged then .next ((s.setStrm stream x1).tokenized c.sq c.cq x.ctx c.head c.tag stream stSramUe 0 false)
            else
              let s1 := (s.cwrite x.ctx c.outAddr (r.1.flatMap (leBytes 4))).setStrm stream x1
              let n := c.len + x.carry.length - r.2.1.length
              let s2 := (s1.count 0x6006 1 0 n).count 0x6006 2 0 r.2.2.1
              .next (s2.tokenized c.sq c.cq x.ctx c.head c.tag stream stOk r.1.length (decide (0 < r.2.2.1)))

/-- The output side takes a token's bytes (R273, R274): bytes released, the stream, the stop string completed,
subparts replaced. -/
def State.feed (s : State) (t : TStream) (bs : List Byte) : List (Byte × Bool) × TStream × Option Nat × Nat :=
  let stops := match t.stopset with | some i => (tblFind s.txt.stops (t.ctx * 256 + i)).getD [] | none => []
  let r := repair t.tail bs
  let l := t.held ++ r.1
  match stopScan stops l 0 l.length with
  | some (p, idx, len) =>
    (l.take (if t.inclStop then p else p - len), { t with held := [], tail := [], state := .stopped, inst := endInst t.inst },
      some idx, r.2.2)
  | none =>
    let h := holdLen stops (l.map (·.1)) (min 63 l.length)
    (l.take (l.length - h), { t with held := l.drop (l.length - h), tail := r.2.1 }, none, r.2.2)

/-- A token accepted by the grammar is emitted (R272 items 5 to 7). `dead` says that item 4 found a dead end,
`fin` that the token ends the sequence (END, or the escape token). -/
def State.emitToken (s : State) (n : Nat) (t : TStream) (v : Vocab) (tok : Nat) (dead fin : Bool) : State :=
  let speech := decide (vocTokens v.image ≤ tok)
  let f := if speech then ([], t, none, 0) else s.feed t (vocString v.image tok)
  let s0 := s.count 0x6006 2 0 f.2.2.2
  let t1 := f.2.1
  match f.2.2.1 with
  | some idx =>
    let r := release n t1 s0 3 idx stOk tok f.1
    let d := if dead then release n r.1 (r.2.count 0x6006 3) 5 0 stDeadEnd tok [] else r
    d.2.setStrm n d.1
  | none =>
    let r1 :=
      if speech then release n t1 s0 2 0 stOk tok []
      else if fin && !dead then ({ t1 with held := f.1 ++ t1.held }, s0)
      else if f.1.isEmpty then (t1, s0)
      else release n t1 s0 1 0 stOk tok f.1
    let r2 :=
      if dead then
        let c := r1.2.count 0x6006 3
        match r1.1.inst with
        | some i => if i.state = 2 then endStream n r1.1 c 5 stDeadEnd tok else release n r1.1 c 5 0 stDeadEnd tok []
        | none => (r1.1, c)
      else r1
    let r3 := if fin && r2.1.state == .open then endStream n r2.1 r2.2 4 stOk tok else r2
    r3.2.setStrm n r3.1

/-- The token events other than the first one of a stream. -/
def dropEvent (n : Nat) : List TokEvent → List TokEvent
  | [] => []
  | e :: es => if e.stream = n then es else e :: dropEvent n es

/-- TOKEN_EVENT (R272): the oldest token event for the stream is applied, its lane work done. -/
def execTokenEvent (stream : Nat) (s : State) : Res :=
  match s.txt.events.find? fun e => e.stream == stream with
  | none => .next s
  | some ev =>
    if !s.textUp || !s.eventReady ev then .next s
    else
      let s0 := s.modTxt fun g => { g with events := dropEvent stream g.events }
      match s.ownStrm ev.ctx stream with
      | none =>
        .next ((s0.count 0x6006 5).event ev.stepCq
          { kind := 5, event := 0, status := stStream, ctx := ev.ctx, sqId := 0xFF, sqHead := s0.site.lastHead, time := s0.tick,
            tag := 0, body := textBody [] 1 0 false false stream 0 0 ev.token })
      | some t =>
        if t.state ≠ .open then .next (s0.count 0x6006 5)
        else
          match s.voc t.ctx t.vocab with
          | none => .next s
          | some v =>
            let fail := fun (st : Nat) => let r := release stream t s0 1 0 st ev.token []; (r.2.setStrm stream r.1 : State)
            let sp := decide (vocSpFirst v.image ≤ ev.token ∧ ev.token < vocSpFirst v.image + vocSpCount v.image)
            if v.damaged then .next (fail stSramUe)
            else if !decide (ev.token < vocTokens v.image) && !sp then .next (fail stTextField)
            else
              match s.gramStep t.ctx t.inst ev.token with
              | .free => .next (s0.emitToken stream t v ev.token false ev.end_)
              | .rejected =>
                let r := endStream stream t (s0.count 0x6006 4) 4 stTokenRejected ev.token
                .next (r.2.setStrm stream r.1)
              | .escaped => .next (s0.emitToken stream { t with inst := endInst t.inst } v ev.token false true)
              | .moved i m _ =>
                let fs := s.uncopied t.ctx i.maskAddr 32832
                if !fs.isEmpty then .next (s.cbwHold fs (some (2 ^ 21 + stream)))
                else
                  let r := s0.settleInst stream t.ctx m i
                  .next (r.2.2.emitToken stream { t with inst := some r.1 } v ev.token r.2.1 ev.end_)

/-- GRAMMAR_LOAD (R277; space under R261). -/
def execGrammarLoad (sq : Nat) (h : CmdHdr) (grammar : BitVec 6) (addr : BitVec 48) (s : State) : Res :=
  s.ringCmd sq h (.grammarLoad grammar addr) [] fun t =>
    let ctx := h.ctx.toNat
    let k := ctx * 64 + grammar.toNat
    let len := t.cnum ctx (addr.toNat + 8) 4
    let old := match tblFind t.txt.grammars k with | some v => imgBlocks v.len | none => 0
    if len > 16777216 || !inSpace addr.toNat (max 64 len) then .done stGrammarImage 0 t
    else if t.noBlocks ctx old (imgBlocks len) then .done stTextSpace 0 t
    else CmdOut.reading t ctx addr.toNat (max 64 len) <|
      let m := t.image ctx addr.toNat len
      if !gramOk m then .done stGrammarImage 0 t
      else .done stOk 0 (t.modTxt fun g => { g with grammars := tblIns g.grammars k ⟨m, len, false⟩ })

/-- GRAMMAR_REMOVE (R277). -/
def execGrammarRemove (sq : Nat) (h : CmdHdr) (grammar : BitVec 6) (s : State) : Res :=
  s.ringCmd sq h (.grammarRemove grammar) [] fun t =>
    let ctx := h.ctx.toNat
    let k := ctx * 64 + grammar.toNat
    if (tblFind t.txt.grammars k).isNone then .done stTextField 0 t
    else if tblAny t.txt.streams (fun _ x => x.ctx == ctx && x.inst.any fun i => i.grammar == grammar.toNat) then
      .done stTextInUse 0 t
    else .done stOk 0 (t.modTxt fun g => { g with grammars := tblDel g.grammars k })

/-- GRAMMAR_BIND (R278, R281): it writes its mask on a lane, as lane work of its context (R282). -/
def execGrammarBind (sq : Nat) (h : CmdHdr) (stream : BitVec 14) (grammar : BitVec 6) (escape : BitVec 18) (maskAddr : BitVec 48)
    (s : State) : Res :=
    let fs := s.uncopied h.ctx.toNat maskAddr.toNat 32832
    let may := s.mayTake sq (.cmd h (.grammarBind stream grammar escape maskAddr))
    if !fs.isEmpty && may then .next (s.cbwHold fs (some (2 ^ 22 + stream.toNat)))
    else if may && s.bindWaits h.ctx.toNat stream.toNat then .next s
    else s.streamCmd sq h stream.toNat (.grammarBind stream grammar escape maskAddr) [] fun t =>
      let ctx := h.ctx.toNat
      let n := stream.toNat
      match t.ownStrm ctx n with
      | none => .done stStream 0 t
      | some x =>
        if x.state ≠ .open || x.inst.isSome then .done stStream 0 t
        else if maskAddr.toNat % 64 != 0 || !inSpace maskAddr.toNat 32832 then .done stTextField 0 t
        else match t.gram ctx grammar.toNat with
          | none => .done stTextField 0 t
          | some g =>
            if g.damaged then .done stSramUe 0 t
            else if t.instsHeld ctx ≥ t.obj 0x6005 1 ctx || tblCount t.txt.streams (fun _ y => y.inst.isSome) ≥ 4096 then
              .done stTextSpace 0 t
            else
              let i : Instance_ := ⟨grammar.toNat, maskAddr.toNat, if escape.toNat = 0x3FFFF then none else some escape.toNat, 0,
                gramStart g.image, [], false, 0⟩
              let r := (t.laneTake ctx (512 + (gramConf g.image i.gs 0).length)).settleInst n ctx g.image i
              if !r.2.1 then .done stOk 0 (r.2.2.setStrm n { x with inst := some r.1 })
              else
                let t1 := r.2.2.count 0x6006 3
                let x1 := { x with inst := some r.1 }
                if r.1.state = 2 && !x1.rest.isEmpty then
                  let e := endStream n x1 (t1.count 0x6006 3) 5 stDeadEnd 0
                  .done stDeadEnd 0 (e.2.setStrm n e.1)
                else .done stDeadEnd 0 (t1.setStrm n { x1 with state := if r.1.state = 2 then .ended else .open })

/-- GRAMMAR_UNBIND (R262, R278). -/
def execGrammarUnbind (sq : Nat) (h : CmdHdr) (stream : BitVec 14) (s : State) : Res :=
  s.streamCmd sq h stream.toNat (.grammarUnbind stream) [] fun t =>
    match t.ownStrm h.ctx.toNat stream.toNat with
    | none => .done stStream 0 t
    | some x => .done stOk 0 (t.setStrm stream.toNat { x with inst := none })

end Sys2Proof.Machine
end

