-- ==== Sys2Proof/Machine/Dict.lean ====
section
/-! DEFINITION. The object dictionary's read-only values (14 R389, R412, R413 and the chapters' object tables) and the
rules that the chapters set on writes (R398 item 4). -/

namespace Sys2Proof.Machine

/-! ### The dictionary's own rows (14 R412) -/

/-- Bytes of a row, and of an object. -/
def ObjRow.rowBytes (r : ObjRow) : Nat := r.cols.foldl (· + ·) 0
def ObjRow.size (r : ObjRow) : Nat := r.rows * r.rowBytes
/-- SIZE of DICT_LIST: bytes, or the rows of a TABLE. -/
def ObjRow.listSize (r : ObjRow) : Nat := if r.typ = 11 then r.rows else r.rowBytes
/-- The default's bytes. -/
def ObjRow.dfltBytes (r : ObjRow) : List Byte := (List.range r.rows).flatMap fun _ => r.cols.flatMap fun n => leBytes n r.dflt
/-- Columns of a row of DICT_LIST. -/
def ObjRow.listCol (r : ObjRow) : Nat → Nat
  | 0 => r.ix
  | 1 => r.sub
  | 2 => r.typ
  | 3 => r.listSize
  | 4 => r.acc
  | 5 => 0
  | _ => (Config.sha512 r.dfltBytes).toNat % 2 ^ 64
/-- Column widths of DICT_LIST. -/
def listCols : List Nat := [2, 1, 1, 2, 1, 1, 8]
/-- DICT_DIGEST. -/
def dictDigest : Nat :=
  (Config.sha512 (dictionary.flatMap fun r => listCols.zipIdx.flatMap fun c => leBytes c.1 (r.listCol c.2))).toNat

/-! ### Records (16 R440) -/

/-- An error record as 512 bits. -/
def ErrRec.num (r : ErrRec) : Nat :=
  1 + b2n r.degraded * 2 ^ 8 + b2n r.handle.isSome * 2 ^ 9 + r.severity * 2 ^ 10 + r.handle.getD 0 % 2 ^ 24 * 2 ^ 160
  + r.count * 2 ^ 192 + r.ctx % 256 * 2 ^ 208 + r.source % 256 * 2 ^ 216 + r.unit % 65536 * 2 ^ 224 + r.status % 65536 * 2 ^ 240
  + r.code % 65536 * 2 ^ 256 + r.bootEpoch % 65536 * 2 ^ 272 + r.seq % 2 ^ 32 * 2 ^ 288 + r.detail % 2 ^ 64 * 2 ^ 320
  + r.addr % 2 ^ 64 * 2 ^ 384 + r.time % 2 ^ 64 * 2 ^ 448

/-! ### Read-only values -/

/-- A meter the manual bounds only: reading number `n` of quantity `k` (DESIGN CHOICE, log entry 27). -/
def meter (n k w : Nat) : Nat := Config.reading (n * 256 + k) % 2 ^ (8 * w)

/-- The link-local address (14 R389) as a number, byte 0 lowest. -/
def linkLocal : Nat :=
  let iid := ((leBytes 64 (Config.sha512 (leBytes 16 serial)).toNat).take 8).mapIdx fun i b => if i = 0 then b &&& 0xFD else b
  leNat ([0xFE, 0x80, 0, 0, 0, 0, 0, 0] ++ iid)

/-- DIE_THERMAL and DIE_STATE. -/
def State.dieThermal (s : State) (d : Nat) : Nat :=
  if s.dieThrottled d then 2 else if (d :: 4 :: span (5 + 3 * d) 3).any fun i => s.dev.warned.getD i false then 1 else 0
def State.dieState (s : State) (d : Nat) : Nat :=
  if (s.dev.dies.getD d ⟨none, false⟩).fenced then 3
  else if s.dieInReset d || s.dev.power != .up then 2
  else if s.dieThrottled d then 1 else 0
/-- Identity objects (0x1000 to 0x1200). -/
def State.roIdent (s : State) (ix sub row col : Nat) : Option Nat :=
  match ix, sub with
  | 0x1000, 3 => some serial
  | 0x1000, 4 => some (Config.identity 4 / 16 % 16 * 16 + Config.identity 4 % 10)
  | 0x1000, 5 => some (Config.identity 5 % 2 ^ 32)
  | 0x1001, 1 => some (imgVersion row (s.mg.running.getD row []))
  | 0x1002, 1 => some s.tick
  | 0x1101, 1 => some dictDigest
  | 0x1101, 2 => some (((dictionary[row]?).map fun r => r.listCol col).getD 0)
  | 0x1102, 1 => some s.setDigest.toNat
  | 0x1102, 2 => some (b2n s.mg.untested)
  | 0x1200, 1 => some s.dev.phy
  | 0x1200, 4 => some linkLocal
  | 0x1203, 1 => some s.dev.mgmt
  | _, _ => none
/-- Power, clocks, reset and HBM (0x2000 to 0x3000). -/
def State.roPower (s : State) (n ix sub row col : Nat) : Option Nat :=
  match ix, sub with
  | 0x2000, 1 => some s.dev.vin
  | 0x2000, 2 => some (meter n 0 4)
  | 0x2000, 3 => some (max (max s.dev.pinPeak (meter n 0 4)) (meter n 1 4))
  | 0x2000, 4 => some (if col < 2 then meter n (2 + 2 * row + col) 4 else if row = 20 then s.dev.hostRail else s.dev.rails.getD row 0)
  | 0x2002, 1 => some (wrap 32 (s.dev.temps.getD row 0))
  | 0x2002, 4 => some (s.dieThermal row)
  | 0x2004, 1 => some (b2n s.dev.locked)
  | 0x2004, 2 => some (([1250000000, 2500000000, 6250000000, 625000000, 100000000, 156250000] : List Nat).getD row 0)
  | 0x2100, 2 => some (b2n (if row = 0 then s.quiescing else if row < 5 then s.dieInReset (row - 1) || s.dev.power != .up else s.portInReset (row - 5)))
  | 0x2101, 2 => some s.profile
  | 0x2101, 4 => some (if s.capped then s.quadLimit else 256)
  | 0x2101, 5 => some s.quadsInUse
  | 0x2101, 6 => some (s.dieState row)
  | 0x3000, 1 => some (s.dev.hbmSt.getD row 0)
  | 0x3000, 2 => some ((s.dev.hbmSt.filter (· == 1)).length * 2 ^ 36)
  | 0x3000, 3 => some (meter s.dev.trainUs (64 + row) 4)
  | _, _ => none
/-- Slabs of a die below its shadow area. -/
def State.ownSlabs (s : State) (d : Nat) : Nat := slabsUsable - s.obj 0x8000 1 d
/-- Free slabs with a frame still to be scrubbed, those retired apart, among the first `n` of the die. -/
def State.dirtySlabs (s : State) (d n : Nat) : Nat :=
  let l := s.ses.dirtyFrames.map fun e => e.1 / 512
  ((l.zipIdx.filter fun e => e.1 / slabsPerDie == d && decide (e.1 % slabsPerDie < n) && (tblFind s.ses.slabs e.1).isNone && l.idxOf e.1 == e.2
    && (tblFind s.err.retired e.1).isNone && (tblFind s.err.retiredNow e.1).isNone)).length
/-- Slabs on no free list for good, among the first `n` of a die. -/
def State.retiredOn (s : State) (d n : Nat) : Nat :=
  let on := fun (k : Nat) (_ : Unit) => k / slabsPerDie == d && decide (k % slabsPerDie < n)
  tblCount s.err.retired on + tblCount s.err.retiredNow on
/-- Sessions and parking (0x3100 to 0x310E). -/
def State.roSession (s : State) (ix sub row : Nat) : Option Nat :=
  let withState := tblCount s.ses.tbl fun _ x => stateCode x.state == row
  match ix, sub with
  | 0x3100, 1 => some (if row = 0 then 2 ^ 24 - tblCount s.ses.tbl (fun _ x => x.state != .free) else withState)
  | 0x3100, 2 => some s.awakeNow
  | 0x3100, 3 => some (tblCount s.ses.tbl fun _ x => x.state == .free && x.tomb)
  | 0x3102, 2 => some (s.slabsHeld row)
  | 0x3104, 1 => some (if s.islandUp row then
      (s.ownSlabs row) - (tblCount s.ses.slabs fun k _ => k / slabsPerDie == row) - s.retiredOn row (s.ownSlabs row)
        - s.dirtySlabs row (s.ownSlabs row) else 0)
  | 0x3104, 2 => some (tblCount s.ses.dirtyFrames fun f _ => f / 512 / slabsPerDie == row)
  | 0x3106, 2 => some s.ses.binds.length
  | 0x3107, 1 => some s.ses.adapters.length
  | 0x3107, 2 => some ((s.ses.adapters.map fun e => e.2.vers.length).foldl (· + ·) 0)
  | 0x3109, 2 => some (tblCount s.ses.leases fun k y => k / 4096 == row && y.valid)
  | 0x310C, 1 => some (tblCount s.ses.leases fun _ y => y.lost)
  | 0x310C, 2 => some (tblCount s.ses.tbl fun _ x => x.sweep)
  | 0x310D, 1 => some ((tblGet ⟨none, []⟩ s.ses.meters row).perMille s.dev.nclk)
  | 0x310E, 2 => some (tblCount s.ses.tbl fun _ x => x.mig == .inReady)
  | _, _ => none
/-- Fabric and bulk (0x4000 to 0x4203). -/
def State.roFabric (s : State) (ix sub row : Nat) : Option Nat :=
  let slots := fun (p : Region → Bool) => (s.fab.regions.map fun e => if p e.2 then regSlots e.2.rcd else 0).foldl (· + ·) 0
  match ix, sub with
  | 0x4000, 1 => some (if s.fab.named then s.fab.node else 0xFFFF)
  | 0x4000, 2 => some (if s.fab.named then s.fab.ownId else 0xFFFF)
  | 0x4000, 3 => some s.fab.map.epoch.toNat
  | 0x4000, 4 => some s.fab.prevMap.epoch.toNat
  | 0x4001, 1 => some (s.port row).state
  | 0x4100, 1 => some (tblCount s.fab.regions fun _ r => r.valid)
  | 0x4100, 2 => some (slots fun r => r.valid || r.closing)
  | 0x4200, 1 => some s.dev.bootEpoch
  | 0x4203, 1 => some s.bulk.flows.length
  | _, _ => none
/-- Scheduling, text and security (0x5004 to 0x7007). -/
def State.roShare (s : State) (ix sub row col : Nat) : Option Nat :=
  match ix, sub with
  | 0x5004, 3 => some (wrap 64 (s.tok row col))
  | 0x5005, 3 => some (s.hbmChargedAll row)
  | 0x5008, 1 => let h := s.heldQuads; some (((List.range 64).filter fun q => !decide (64 * row + q ∈ h) && !s.dieClosed row).length)
  | 0x6000, 1 => some (2512 - ((List.range 256).map s.blocksHeld).foldl (· + ·) 0)
  | 0x6000, 2 => some (tblCount s.txt.streams fun _ t => t.inst.isSome)
  | 0x6000, 3 => some s.txt.streams.length
  | 0x6007, 1 => some ((tblGet ⟨none, []⟩ s.txt.meters row).perMille s.dev.nclk)
  | 0x7000, 1 => some dikPub
  | 0x7000, 2 => some (leNat (certBytes idCert))
  | 0x7000, 3 => some (leNat (certBytes s.akCert))
  | 0x7001, 2 => some (match s.sec.quote with | some q => leNat (quoteBytes q) | none => 0)
  | 0x7003, 1 => let i := s.identity row; some (if col = 0 then i.1 else if col = 1 then i.2.1 else i.2.2)
  | 0x7003, 2 => let l := ((tblFind s.sec.ctx row).map (·.peers)).getD []
                 some (leNat ((List.range 64).flatMap fun i => leBytes 2 ((l[i]?).map (·.1) |>.getD 0xFFFF)))
  | 0x7007, 1 => some (b2n s.err.degraded.isSome)
  | 0x7007, 4 => some (s.sec.sealCtr % 2 ^ 64)
  | _, _ => none
/-- Checkpoint, errors and firmware (0x8000 to 0xA003). -/
def State.roSystem (s : State) (ix sub row col : Nat) : Option Nat :=
  let st := s.mg.stage.getD row ⟨0, [], 0⟩
  match ix, sub with
  | 0x8000, 2 => some (512 * s.obj 0x8000 1 row - s.shadowUsed row)
  | 0x8003, 1 => some (s.ckpt row).state
  | 0x9000, 1 => some ((s.err.log.find? fun r => r.seq % 1024 == row).map ErrRec.num |>.getD 0)
  | 0x9000, 2 => some ((s.err.log.getLast?).map (·.seq) |>.getD s.err.next)
  | 0x9000, 3 => some s.err.next
  | 0x9001, 1 => some ((s.err.fatal.reverse[row]?).map ErrRec.num |>.getD 0)
  | 0x9004, 2 => some (match s.err.retired[row]? with
      | some e => if col = 0 then e.1 / slabsPerDie else e.1 % slabsPerDie
      | none => if col = 0 then 0xFF else 0xFFFFFFFF)
  | 0x9004, 3 => some (s.retiredOn row slabsPerDie)
  | 0x9004, 4 => some (tblCount s.err.marked fun k _ => k / slabsPerDie == row)
  | 0xA000, 1 => let img := s.mg.running.getD row []
                 some (if col = 0 then imgVersion row img else if col = 1 then imgSec row img else b2n (s.mg.runBanks.getD row false))
  | 0xA000, 2 => some (s.measure row).toNat
  | 0xA001, 1 => some (if col = 0 then st.state else if col = 1 then st.bytes.length else imgVersion row st.bytes)
  | 0xA001, 2 => some st.result
  | 0xA003, 1 =>
    let mask := fun (l : List Bool) => (l.mapIdx fun i b => if b then 2 ^ i else 0).foldl (· + ·) 0
    some (if col = 0 then mask s.mg.boot.cur else if col = 1 then mask s.mg.boot.lkg else if col = 2 then b2n s.mg.boot.trial
      else s.mg.boot.trialBoots)
  | 0xA003, 2 => some (s.mg.floors.getD row 0)
  | _, _ => none
/-- A computed value; none when the object is a stored one. `n` numbers the readings of meters. -/
def State.roVal (s : State) (n ix sub row col : Nat) : Option Nat :=
  if ix < 0x2000 then s.roIdent ix sub row col
  else if ix < 0x3100 then s.roPower n ix sub row col
  else if ix < 0x4000 then s.roSession ix sub row
  else if ix < 0x5000 then s.roFabric ix sub row
  else if ix < 0x8000 then s.roShare ix sub row col
  else s.roSystem ix sub row col
/-- An element as a READ returns it: WO objects read 0 (R397). -/
def State.elem (s : State) (r : ObjRow) (n row col : Nat) : Nat :=
  if r.acc = 3 then 0 else (s.roVal n r.ix r.sub row col).getD (s.obj r.ix r.sub row col)
/-- Bytes of rows `row` to `row + k - 1`. -/
def State.elems (s : State) (r : ObjRow) (n row k : Nat) : List Byte :=
  (span row k).flatMap fun i => r.cols.zipIdx.flatMap fun c => leBytes c.1 (s.elem r n i c.2)

/-! ### Rules on writes (R398 item 4) -/

/-- Element `col` of row number `i` of an item's data. -/
def itemElem (r : ObjRow) (data i col : Nat) : Nat :=
  data / 2 ^ (8 * (i * r.rowBytes + (r.cols.take col).foldl (· + ·) 0)) % 2 ^ (8 * r.cols.getD col 0)
/-- Every element lies in the object's range. -/
def inRange (r : ObjRow) (data rows : Nat) : Bool :=
  (List.range rows).all fun i => (List.range r.cols.length).all fun c =>
    let v := itemElem r data i c
    decide (r.lo ≤ v) && (match r.hi with | some h => decide (v ≤ h) | none => true)
/-- Blocks [base, base + count) of two columns of a table do not overlap. -/
def State.apart (s : State) (ix sub row lim : Nat) : Bool :=
  let b := s.obj ix sub row 0
  let n := s.obj ix sub row 1
  decide (b + n ≤ lim) && (List.range 256).all fun c => c == row || !overlaps b n (s.obj ix sub c 0) (s.obj ix sub c 1)
/-- A context holds a session; a tomb counts (05 R128). -/
def State.holdsSession (s : State) (c : Nat) : Bool := tblAny s.ses.tbl fun _ x => x.ctx == c && (x.state != .free || x.tomb)
/-- A context holds a job, session, region, lease or stream (10 R285). -/
def State.holdsWork (s : State) (c : Nat) : Bool :=
  tblAny s.run.jobs (fun _ j => j.ctx == c) || s.holdsSession c || tblAny s.fab.regions (fun _ r => r.ctx == c)
  || tblAny s.ses.leases (fun k _ => k / 4096 == c) || tblAny s.txt.streams fun _ t => t.ctx == c
/-- 10 R289 for one context. -/
def State.grantOk (s : State) (c : Nat) : Bool :=
  let rs := s.reserve c
  Nat.land rs (s.grant c) == rs && (List.range 256).all fun d => d == c || (Nat.land (s.reserve d) (s.grant c) == 0 && Nat.land rs (s.grant d) == 0)
/-- 12 R362. -/
def State.sealedOk (s : State) : Bool :=
  let cs := s.ctxs
  let len := s.obj 0x7006 1
  cs.all (fun a => cs.all fun b => a == b || Nat.land (s.grant a) (s.grant b) == 0)
  && cs.all (fun c => (List.range len).any fun k => s.obj 0x7006 2 k == c) && s.obj 0x7006 2 0 == 0xFFFF
  && decide (((List.range 256).map (s.obj 0x3102 1)).foldl (· + ·) 0 ≤ 389120)
  && decide (((List.range 256).map (s.obj 0x4101 1)).foldl (· + ·) 0 ≤ 65536)
/-- 15 R434: the cap leaves the reserves and the periodic reservations their quads. -/
def State.capOk (s : State) : Bool :=
  !s.capped || (decide (1100 + s.obj 0x2001 2 ≤ s.obj 0x2101 3) && decide (s.allReserve + s.periodicQuads s.run.nextJob ≤ s.quadLimit))
/-- 10 R293 on a die. -/
def State.hbmOk (s : State) (k : Nat) : Bool := decide (s.obj 0x5005 1 k + s.obj 0x5005 2 k + 480 ≤ 9600)
/-- A die's shadow area takes no slab that a context holds (13 R385). -/
def State.shadowOk (s : State) (d : Nat) : Bool :=
  let n := s.obj 0x8000 1 d
  decide (n ≤ slabsUsable) && !tblAny s.ses.slabs fun k _ => k / slabsPerDie == d && decide (slabsUsable - n ≤ k % slabsPerDie)
/-- The sum of a text quota over all contexts (09 R261). -/
def State.quotaSum (s : State) (ix sub : Nat) : Nat := ((List.range 256).map (s.obj ix sub)).foldl (· + ·) 0
/-- Regions a context holds (07 R231). -/
def State.regionsHeld (s : State) (c : Nat) : Nat := tblCount s.fab.regions fun _ r => r.ctx == c
/-- Some operator key holds ENROLL (14 R394). -/
def State.enrolled (s : State) : Bool := (List.range 16).any fun k => s.obj 0x1201 1 k != 0 && bit (s.obj 0x1201 2 k) 4
/-- Every row of OPKEY_PUB is empty. -/
def State.unclaimed (s : State) : Bool := (List.range 16).all fun k => s.obj 0x1201 1 k == 0

/-- `ok`, or the status. -/
def must (ok : Bool) (st : Nat) : Option Nat := if ok then none else some st

/-- The rule of the owning chapter for element row `row` of an object that the write changes: `s` before it, `t` with
every item staged. -/
def State.ruleOf (s t : State) (ix sub row : Nat) : Option Nat :=
  let v := t.obj ix sub row 0
  match ix, sub with
  | 0x1100, 2 => must (v == 0 || v == 1) stVersion
  | 0x1200, 2 => must (decide (v ≤ 31) || v == 255) stMgmtRange
  | 0x1201, _ => must t.enrolled stMgmtRange
  | 0x2001, 1 => must (v == 0 || (decide (650 ≤ v) && v % 5 == 0)) stMgmtRange
  | 0x2001, 2 => firstBad [(v % 10 == 0, stMgmtRange), (t.capOk, stPowerCap)]
  | 0x2002, 3 => must (decide (t.obj 0x2002 2 + 5 ≤ v)) stMgmtRange
  | 0x2101, 1 => firstBad [(t.capOk, stPowerCap), (v != 2 || t.sealedOk, stSealedConfig)]
  | 0x2101, 3 => firstBad [(v % 100 == 0, stMgmtRange), (t.capOk, stPowerCap)]
  | 0x3101, 1 => firstBad [(t.apart 0x3101 1 row (2 ^ 24), stMgmtRange), (!s.holdsSession row, stSessionState)]
  | 0x3102, 1 => must (!s.holdsSession row) stSessionState
  | 0x3107, 3 => firstBad [(t.apart 0x3107 3 row 4096, stMgmtRange), (!tblAny s.ses.adapters fun k _ => k / 4096 == row, stSessionState)]
  | 0x4101, 1 => must (decide (s.regionsHeld row ≤ v)) stRegionBusy
  | 0x4101, 2 => firstBad [(t.apart 0x4101 2 row 65536, stMgmtRange),
      (s.regionsHeld row == 0 || (v == s.obj 0x4101 2 row 0 && t.obj 0x4101 2 row 1 == s.obj 0x4101 2 row 1), stRegionBusy)]
  | 0x5000, 1 => firstBad [(v == 0 || s.obj 0x5000 1 row == 1 || s.dev.mgmt == 2, stMgmtState), (v == 1 || s.obj 0x5000 1 row == 0 || !s.holdsWork row, stBusy)]
  | 0x5002, 1 => must (t.grantOk row) stQuadGrant
  | 0x5002, 2 => must (t.grantOk row) stQuadGrant
  | 0x5005, _ => must (t.hbmOk row) stHbmShare
  | 0x6001, 1 => must (decide (t.quotaSum 0x6001 1 ≤ 2512)) stTextSpace
  | 0x6001, 2 => must (decide (t.quotaSum 0x6001 2 ≤ 2048)) stTextSpace
  | 0x6005, 1 => must (decide (t.quotaSum 0x6005 1 ≤ 4096)) stTextSpace
  | 0x6003, 1 => firstBad [(decide (v + t.obj 0x6003 1 row 1 ≤ 16384), stMgmtRange), (t.apart 0x6003 1 row 16384, stStream), (!tblAny s.txt.streams fun _ x => x.ctx == row, stStream)]
  | 0x7004, 1 => firstBad [(decide (t.obj 0x7004 1 row 2 ≤ 1), stMgmtRange),
      (t.obj 0x7004 1 row 2 == 0 || (s.ctxOn row && (match tblFind s.sec.ctx row with
        | some c => c.peers.any (fun p => p.1 == v) || decide (c.peers.length < 64) | none => false)), stJoin)]
  | 0x7004, 2 => firstBad [(decide (t.obj 0x7004 2 row 2 ≤ 1), stMgmtRange), (t.obj 0x7004 2 row 2 == 0 || (s.ctxOn row && s.ctxEmpty row), stJoin)]
  | 0x7006, 1 => must (decide (v ∈ ([16, 32, 64, 128, 256] : List Nat))) stMgmtRange
  | 0x7006, 2 => must (v == 0xFFFF || (decide (v < 256) && row != 0)) stMgmtRange
  | 0x8000, 1 => must (t.shadowOk row) stCkptSpace
  | _, _ => none

/-- Objects that R362 reads. -/
def sealedObj (ix sub : Nat) : Bool :=
  decide ((ix, sub) ∈ ([(0x5000, 1), (0x5002, 1), (0x3102, 1), (0x4101, 1), (0x7006, 1), (0x7006, 2)] : List (Nat × Nat)))

/-- The rules for one row, R362 while SEALED is in force included. -/
def State.rowRule (s t : State) (ix sub row : Nat) : Option Nat :=
  (s.ruleOf t ix sub row).orElse fun _ =>
    if t.profile = 2 && sealedObj ix sub && !t.sealedOk then some stSealedConfig else none

/-! ### What writes of stored objects do beside being stored -/

/-- Waiting steps that a lowered cap can never dispatch end with ST_POWER_CAP (15 R434). -/
def State.capWaiting (s : State) : State :=
  if !s.capped then s
  else
    let can := fun (e : Nat × Step) => e.2.ks || decide (descQuads e.2.d + s.allReserve + s.periodicQuads e.2.jobId ≤ s.quadLimit)
    (s.run.steps.filter fun e => e.2.waits && !can e).foldl (fun t e => t.endStep e.1 stPowerCap none) s

/-- HOST_VSET (15 R418): 0 turns the rail off; any other value turns it on, afresh after a fault. -/
def State.hostRailSet (s : State) (v : Nat) : State :=
  if v = 0 then s.hostOff 0
  else if s.dev.hostRail = 2 then s
  else (s.modDev fun d => { d with hostRail := 2 }).modSite fun g => { g with bringing := true, retryAt := none }

/-- A context comes to exist (10 R285; 12 R338, R340; 06 R165). -/
def State.ctxStart (s : State) (c : Nat) : State :=
  let a := s.take1
  let b := a.2.take1
  let ep := (tblGet 0 s.sec.epochs c + 1) % 2 ^ 32
  let t := b.2.modSec fun g => { g with
    epochs := tblIns g.epochs c ep
    ctx := tblIns g.ctx c ⟨Config.fresh a.1 % 2 ^ 256, Config.fresh b.1 % 2 ^ 256, s.fab.ownId, c, ep, []⟩ }
  let r := t.modRun fun g => { g with tokens := (List.range 5).foldl (fun m k => tblDel m (c * 8 + k)) g.tokens }
  match r.unitsAlloc c r.lowDie .lease 32 with
  | some (_, u) => u
  | none => r

/-- A context ceases: a checkpoint or restore in progress ends (13 R380), its keys are overwritten (12 R339), the slabs of
its lease table are freed, and what its memory held can no longer be read (DESIGN CHOICE, log entry 28). -/
def State.ctxStop (s : State) (c : Nat) : State :=
  let k := (s.ckpt c).state
  let s1 := if k = 0 then s else if k = 4 then s.restoreEnd c stCkptAborted none false else s.ckptFail c stCkptAborted true
  let fs := (s1.ses.slabs.filter fun e => e.2.ctx == c).flatMap fun e => e.2.used.map fun o => e.1 * 512 + o
  let s2 := s1.unitsFree fs
  let s3 := (s2.modSec fun g => { g with ctx := tblDel g.ctx c }).modSes fun g => { g with cmem := g.cmem.filter fun e => e.1 / 2 ^ 48 != c }
  s3.each s3.err.marked fun t e => t.retireIdle e.1

/-- An armed row of JOIN_OUT: the record goes as a bulk message (12 R356). -/
def State.joinOut (s : State) (c : Nat) : State :=
  let peer := s.obj 0x7004 1 c 0
  let pc := s.obj 0x7004 1 c 1
  let e := s.fab.map.idEnt peer
  if e.kind = 0 || e.lost then s.joinDone c peer pc stNoRoute
  else s.bulkIssue e.node (bulkMsg 1 c 3 1 (BitVec.ofNat 32 (pc + 256)) 0 128 [] (.join c peer pc))

/-- PORT_ENABLE (17 R468): a disabled port goes down, an enabled one trains. -/
def State.portEnable (s : State) (p v : Nat) : State :=
  if v = 0 then (if (s.port p).up then s.portDown p else s.setPort p portReset).domEnd (domPort p)
  else if (s.port p).state = 0 then s.setPort p { s.port p with state := 1 } else s

/-- What a stored row's write sets going; `s0` is the state before the message. -/
def State.after (s0 s : State) (ix sub row : Nat) : State :=
  let v := s.obj ix sub row 0
  let was := s0.obj ix sub row 0
  match ix, sub with
  | 0x2001, 1 => s.hostRailSet v
  | 0x2101, 1 => s.capWaiting
  | 0x2101, 3 => s.capWaiting
  | 0x2001, 2 => s.capWaiting
  | 0x4002, 1 => s.portEnable row v
  | 0x5000, 1 => if v = 1 && was = 0 then s.ctxStart row else if v = 0 && was = 1 then s.ctxStop row else s
  | 0x7004, 1 => if s.obj 0x7004 1 row 2 = 1 then s.joinOut row else s
  | _, _ => s

end Sys2Proof.Machine
end

