-- ==== Sys2Proof/Machine/Mgmt.lean ====
section
/-! DEFINITION. Management messages (14 R390-R412): authentication, the SEQ window, READ and WRITE, images, and the
objects that act when they are written. -/

namespace Sys2Proof

/-- R390 lists the OP: 0x01 IDENT to 0x05 CLAIM. -/
def MgmtHdr.opListed (m : MgmtHdr) : Bool := decide (1 ≤ m.op.toNat) && decide (m.op.toNat ≤ 5)
/-- The UDP payload is the 64-byte header, BODY_LEN bytes and the 64-byte signature (R390). -/
def MgmtHdr.lenOk (m : MgmtHdr) : Bool := m.payload == 128 + m.bodyLen.toNat
/-- OP, BODY_LEN and the body's layout are well formed (item 2 of R391). -/
def MgmtHdr.bodyOk (m : MgmtHdr) : Bool := m.opListed && m.bodyLen.toNat % 8 == 0 && decide (m.bodyLen.toNat ≤ 1104) && m.layoutOk

end Sys2Proof

namespace Sys2Proof.Machine

/-! ### Messages (R390-R393) -/

/-- The header that the first 64 bytes of a request spell (R390), as a number; `payload` is the length of the UDP payload, `layout` says
that the body is laid out well, and `signer` is the key under which the signature verifies. -/
def decMgmt (v payload : Nat) (layout : Bool) (signer : Option (BitVec 256)) : MgmtHdr :=
  { serial := fld 128 v 384, bootEpoch := fld 16 v 368, seq := fld 48 v 320, keySlot := fld 8 v 288, mver := fld 8 v 0, op := fld 8 v 264
    bodyLen := fld 16 v 272, payload := payload, layoutOk := layout, signer := signer }

/-- The management controller answers: it has power and its image runs, and no activation of kind 0 restarts it. -/
def State.mgmtUp (s : State) : Bool := s.powered && !(s.mg.running.getD 0 []).isEmpty && !s.mg.act.any fun a => a.kind == 0

/-- What a request's own checks say: the reply's STATUS, ITEM and body, and what happens once it is sent. -/
structure MgmtPlan where
  status : Nat
  item   : Nat
  body   : List Byte
  effect : State → State

/-- A request refused at an item, 0xFF for none. -/
def planBad (st item : Nat) : MgmtPlan := ⟨st, item, [], id⟩
/-- A request that is applied. -/
def planOk (f : State → State) : MgmtPlan := ⟨stOk, 0xFF, [], f⟩

/-- Header of a reply (R390): KEY_SLOT 0xFF, MVER 1. -/
def MgmtReply.head (r : MgmtReply) : List Byte :=
  leBytes 64 (1 + r.op % 2 ^ 8 * 2 ^ 264 + r.body.length % 2 ^ 16 * 2 ^ 272 + 0xFF * 2 ^ 288 + r.item % 2 ^ 8 * 2 ^ 296
    + r.status % 2 ^ 16 * 2 ^ 304 + r.seq % 2 ^ 48 * 2 ^ 320 + r.bootEpoch % 2 ^ 16 * 2 ^ 368 + serial * 2 ^ 384)
/-- The UDP payload of a reply: header, body and signature. -/
def MgmtReply.bytes (r : MgmtReply) : List Byte := r.head ++ r.body ++ leBytes 64 r.sig.toNat
/-- Reply to message `m` of operation `op`, signed with the attestation key; one to an OP that R390 does not list echoes that OP. -/
def State.mgmtReply (s : State) (m : MgmtHdr) (op st item : Nat) (body : List Byte) : MgmtReply :=
  let r : MgmtReply := { op := (if m.opListed then op else m.op.toNat) + 0x80, seq := m.seq.toNat, status := st, item := item, bootEpoch := s.dev.bootEpoch, body := body, sig := 0 }
  { r with sig := Config.signature s.akPub (r.head ++ r.body) }
def State.say (s : State) (r : MgmtReply) : State := s.emit (.reply r)

/-- Window of a slot; nothing accepted yet. -/
def winNone : SeqWin := ⟨0, [], []⟩
/-- `seq` lies below the map of a window. -/
def SeqWin.below (w : SeqWin) (seq : Nat) : Bool := decide (seq + 128 ≤ w.high)
/-- The window after `seq` is accepted and answered by `r`. -/
def SeqWin.accept (w : SeqWin) (seq : Nat) (r : MgmtReply) : SeqWin :=
  let h := max w.high seq
  ⟨h, seq :: w.seen.filter (fun x => decide (h < x + 128)), ((seq, r) :: w.replies).take 16⟩

/-- The request is not discarded (item 1 of R391): its signature verifies under the key of its slot. -/
def State.authentic (s : State) (m : MgmtHdr) : Bool :=
  let k := m.keySlot.toNat
  let pub := s.obj 0x1201 1 k
  m.lenOk && m.serial.toNat == serial && decide (k < 16) && pub != 0 && m.signer == some (BitVec.ofNat 256 pub)

/-- A request of operation `op` whose body is laid out well when `form` holds, with the checks of its own in `plan`. -/
def State.mgmtMsg (s : State) (m : MgmtHdr) (op : Nat) (form : Bool) (plan : State → Nat → MgmtPlan) : Res :=
  if !s.mgmtUp then .next s
  else if !s.authentic m then .next (s.count 0x1202 1)
  else
    let k := m.keySlot.toNat
    let seq := m.seq.toNat
    let no := fun (t : State) (st : Nat) => Host.Outcome.next (t.say (t.mgmtReply m op st 0xFF []))
    let w := tblGet winNone s.mg.wins k
    if m.mver != 1 || !m.bodyOk || !form || seq == 0 then no s stMgmtFormat
    else if m.bootEpoch.toNat ≠ s.dev.bootEpoch then no s stMgmtEpoch
    else if s.dev.mgmt = 0 then no s stMgmtState
    else if w.below seq then no (s.count 0x1202 2) stMgmtSeq
    else if decide (seq ∈ w.seen) then
      match tblFind w.replies seq with
      | some r => .next (s.say r)
      | none => no s stDup
    else
      let p := plan s (s.obj 0x1201 2 k)
      let r := s.mgmtReply m op p.status p.item p.body
      .next (p.effect ((s.modMg fun g => { g with wins := tblIns g.wins k (w.accept seq r) }).say r))

/-- IDENT (R393). -/
def execIdent (m : MgmtHdr) (s : State) : Res :=
  if !s.mgmtUp then .next s
  else if !m.lenOk || !(m.serial.toNat == serial || m.serial == 0) then .next (s.count 0x1202 1)
  else
    let b := certBytes idCert ++ certBytes s.akCert ++ leBytes 16 serial ++ leBytes 2 s.dev.bootEpoch ++ leBytes 1 s.dev.mgmt
    .next (s.say (s.mgmtReply m 0x01 stOk 0xFF (b ++ List.replicate (288 - b.length) 0)))

/-- CLAIM (R395): decided by the key table and the state, without a SEQ window. -/
def execClaim (m : MgmtHdr) (key : BitVec 256) (s : State) : Res :=
  if !s.mgmtUp then .next s
  else
    let slot := m.keySlot.toNat
    let own := m.lenOk && m.serial.toNat == serial && m.signer == some key && (slot == 0xFE || s.authentic m)
    let auth := if m.opListed then own else s.authentic m
    let say := fun (t : State) (st : Nat) => Host.Outcome.next (t.say (s.mgmtReply m 0x05 st 0xFF []))
    if !auth then .next (s.count 0x1202 1)
    else if m.mver != 1 || !m.bodyOk || slot != 0xFE || m.seq == 0 then say s stMgmtFormat
    else if m.bootEpoch.toNat ≠ s.dev.bootEpoch then say s stMgmtEpoch
    else if s.unclaimed && s.dev.mgmt == 1 then say ((s.setObj 0x1201 1 0 0 key.toNat).setObj 0x1201 2 0 0 0x3F) stOk
    else say s stMgmtRight

/-! ### READ (R397, R398) -/

/-- Bytes of an item's data, padded to a multiple of 8. -/
def pad8 (n : Nat) : Nat := (n + 7) / 8 * 8
/-- Item header. -/
def itemHdr (i : MgmtItem) (len : Nat) : List Byte :=
  leBytes 16 (i.index.toNat + i.sub.toNat * 2 ^ 16 + i.typ.toNat * 2 ^ 24 + i.row.toNat * 2 ^ 32 + i.rows.toNat * 2 ^ 48 + len * 2 ^ 64)
def itemRow (i : MgmtItem) : Option ObjRow := objRow i.index.toNat i.sub.toNat
/-- Checks 1 and 2 of R398; LEN of a READ is 0. -/
def itemForm (i : MgmtItem) (reading : Bool) : Option Nat :=
  match itemRow i with
  | none => some stMgmtNoObject
  | some r =>
    let k := i.rows.toNat
    firstBad [(decide (1 ≤ k) && decide (i.row.toNat + k ≤ r.rows), stMgmtNoObject),
      (i.typ.toNat == r.typ && i.len.toNat == (if reading then 0 else k * r.rowBytes), stMgmtType)]
/-- Bytes an item of a READ takes in the reply. -/
def itemSize (i : MgmtItem) : Nat := 16 + pad8 (((itemRow i).map (·.rowBytes)).getD 0 * i.rows.toNat)
/-- The first item that fails `f`, with its index. -/
def firstFail (f : MgmtItem → Option Nat) (items : List MgmtItem) : Option (Nat × Nat) :=
  items.zipIdx.findSome? fun e => (f e.1).map fun st => (st, e.2)
/-- An item with its data. -/
def State.itemBody (s : State) (n : Nat) (i : MgmtItem) : List Byte :=
  match itemRow i with
  | none => []
  | some r =>
    let b := s.elems r n i.row.toNat i.rows.toNat
    itemHdr i b.length ++ b ++ List.replicate (pad8 b.length - b.length) 0
/-- What a READ does to the peak of PIN_W (15 R435): PIN_W raises it, PIN_PEAK_W takes it back to 0; `n` numbers the readings. -/
def State.notePeak (s : State) (n ix sub : Nat) : State :=
  if ix = 0x2000 ∧ sub = 2 then s.modDev fun d => { d with pinPeak := max d.pinPeak (meter n 0 4) }
  else if ix = 0x2000 ∧ sub = 3 then s.modDev fun d => { d with pinPeak := 0 }
  else s

/-- An RC object that was read counts from 0 again. -/
def State.itemClear (s0 : State) (i : MgmtItem) : State :=
  let s := s0.notePeak (s0.freeCtr - 1) i.index.toNat i.sub.toNat
  match itemRow i with
  | none => s
  | some r => if r.acc ≠ 4 then s else (span i.row.toNat i.rows.toNat).foldl (fun t k =>
      (List.range r.cols.length).foldl (fun u c => u.setObj r.ix r.sub k c 0) t) s

/-- A READ that holds the right READ. -/
def State.readPlan (s : State) (items : List MgmtItem) (rights : Nat) : MgmtPlan :=
  if !bit rights 0 then planBad stMgmtRight 0xFF
  else match firstFail (itemForm · true) items with
    | some e => planBad e.1 e.2
    | none =>
      if 1104 < (items.map itemSize).foldl (· + ·) 0 then planBad stMgmtRange 0xFF
      else ⟨stOk, 0xFF, items.flatMap (s.itemBody s.freeCtr), fun t => items.foldl State.itemClear t.take1.2⟩

/-- READ. -/
def execRead (m : MgmtHdr) (items : List MgmtItem) (s : State) : Res :=
  s.mgmtMsg m 0x02 (decide (1 ≤ items.length) && decide (items.length ≤ 16)) fun t r => t.readPlan items r

/-! ### Objects that act when written -/

/-- MGMT_CMD (R400). -/
def State.cmdRule (s t : State) (v : Nat) : Option Nat :=
  match v, s.dev.mgmt with
  | 1, 2 => must t.ctxs.isEmpty stMgmtState
  | 2, 1 => must (!s.mg.untested) stUntested
  | 3, 1 => none
  | 4, 3 => must (!s.mg.untested) stUntested
  | _, _ => some stMgmtState

/-- State that MGMT_CMD leads to. -/
def cmdState : Nat → Nat
  | 2 => 2
  | 3 => 3
  | _ => 1

/-- RESET_CMD (15 R423, R436). -/
def State.resetRule (s : State) (v : Nat) : Option Nat :=
  let acts := fun (kind u : Nat) => s.mg.act.any fun a => a.kind == kind && (kind == 1 || a.current == some u)
  if s.dev.mgmt = 4 && v ≠ 1 then some stMgmtState
  else if v = 1 then none
  else if v = 2 then must (!s.quiescing && !acts 1 0) stBusy
  else if 0x10 ≤ v ∧ v < 0x14 then must (!s.dieInReset (v - 0x10) && !acts 2 (v - 0x10)) stBusy
  else if 0x20 ≤ v ∧ v < 0x32 then must (!s.portInReset (v - 0x20) && !acts 3 (v - 0x20)) stBusy
  else some stMgmtRange

def State.resetDo (s : State) (v : Nat) : State :=
  if v = 1 then s.resetDevice
  else if v = 2 then s.resetPlinth false
  else if v < 0x20 then s.resetDie (v - 0x10)
  else s.resetPort (v - 0x20)

/-- CKPT_CMD (13 R372, R380, R381). -/
def State.ckptRule (t : State) (c v : Nat) : Option Nat :=
  if v = 1 then (match t.ckptStart c 0 with | .ok _ => none | .error st => some st)
  else if v = 2 then (match t.restoreStart c with | .ok _ => none | .error st => some st)
  else none
def State.ckptDo (s : State) (c v : Nat) : State :=
  let k := (s.ckpt c).state
  if v = 1 then (match s.ckptStart c 0 with | .ok t => t | .error st => s.ckptResult c st)
  else if v = 2 then (match s.restoreStart c with | .ok t => t | .error _ => s)
  else if k = 0 then s
  else if k = 4 then s.restoreEnd c stCkptAborted none false
  else s.ckptFail c stCkptAborted true

/-- IMG_ACTIVATE (R409): the set that would run. -/
def State.actSet (s : State) (k : Nat) : List (List Byte) := s.mg.running.set k (s.mg.stage.getD k ⟨0, [], 0⟩).bytes
def State.activateRule (s : State) (k : Nat) : Option Nat :=
  let l := s.actSet k
  firstBad
    [((s.mg.stage.getD k ⟨0, [], 0⟩).state == 2 && s.mg.act.isNone && (k != 1 || !s.quiescing), stImageBusy),
     (k != 1 || (List.range 256).all fun c => (s.ckpt c).state == 0, stImageBusy),
     (setFits l, stImage), ((List.range 4).all fun i => s.levelOk (setImg l i), stVersion),
     (setListed l || (s.dev.mgmt == 3 && s.setAllowed l), stUntested)]
def State.activateDo (s : State) (k : Nat) : State :=
  let a : Activation := ⟨k, if k = 2 then List.range 4 else if k = 3 then (List.range 18).filter fun p => (s.port p).up else [], none, none⟩
  if k = 4 then s.activated a
  else
    let t := s.modMg fun g => { g with act := some a }
    if k = 1 then t.resetPlinth true else t

/-- A kind that an activation is switching (DEDUCED, log entry 29). -/
def State.activating (s : State) (k : Nat) : Bool := s.mg.act.any fun a => a.kind == k

/-- IMG_COMMIT (R411). -/
def State.commitRule (s : State) : Option Nat :=
  firstBad [(setListed (s.bankSet s.mg.boot.cur), stUntested), (s.mg.act.isNone, stImageBusy)]
def State.commitDo (s : State) : State :=
  let l := s.bankSet s.mg.boot.cur
  s.modMg fun g => { g with
    boot := { g.boot with lkg := g.boot.cur, trial := false }, floors := g.floors.mapIdx fun k f => max f (imgSec k (setImg l k)) }

/-- What an object that acts demands of a write of `v` to row `row` (R398 item 4). -/
def State.actRule (s t : State) (ix sub row v : Nat) : Option Nat :=
  match ix, sub with
  | 0x1203, 2 => s.cmdRule t v
  | 0x2100, 1 => s.resetRule v
  | 0x8002, 1 => t.ckptRule row v
  | 0x9003, 2 => must ((List.range 4).all fun d => !s.dieFenced d && !s.dieInReset d) stFenced
  | 0xA002, 1 => s.activateRule v
  | 0xA002, 2 => must (!s.activating v) stImageBusy
  | 0xA002, 3 => if v = 0 then none else s.commitRule
  | _, _ => none

/-- What it does. -/
def State.actDo (s : State) (ix sub row v : Nat) : State :=
  match ix, sub with
  | 0x1203, 2 => s.modDev fun d => { d with mgmt := cmdState v }
  | 0x2100, 1 => s.resetDo v
  | 0x7001, 1 => s.modSec fun g => { g with quote := some (s.mkQuote (BitVec.ofNat 256 v)) }
  | 0x8002, 1 => s.ckptDo row v
  | 0x9001, 2 => if v = 0 then s else s.modErr fun g => { g with fatal := [] }
  | 0x9003, 2 => s.fenceDie v
  | 0xA002, 1 => s.activateDo v
  | 0xA002, 2 => s.modMg fun g => { g with stage := g.stage.set v ⟨0, [], 0⟩ }
  | 0xA002, 3 => if v = 0 then s else s.commitDo
  | _, _ => s

/-! ### WRITE (R397-R399) -/

/-- Bit of the right a write needs (R394). -/
def writeRight (ix sub : Nat) : Nat :=
  if ix = 0x1203 ∧ sub = 2 then 2
  else if (0xA000 ≤ ix ∧ ix ≤ 0xA003) ∨ ix = 0xA005 then 3
  else if ix = 0x1201 then 4
  else if ix = 0xA004 then 5
  else 1

/-- The access and state rules of R397 for a write. -/
def State.accessRule (s : State) (r : ObjRow) : Option Nat :=
  firstBad
    [(r.acc != 0 && r.acc != 4, stMgmtAccess), (s.dev.mgmt != 4 || r.ix == 0x2100, stMgmtState),
     (r.acc != 2 || s.dev.mgmt == 1 || s.dev.mgmt == 3, stMgmtState), (r.ix != 0xA004 || s.dev.mgmt == 3, stMgmtState)]

/-- An item's elements stored, where its object is a stored one. -/
def State.stageItem (s : State) (i : MgmtItem) : State :=
  match itemRow i with
  | none => s
  | some r =>
    if r.acc ≠ 1 ∧ r.acc ≠ 2 then s
    else (List.range i.rows.toNat).foldl (fun t k =>
      (List.range r.cols.length).foldl (fun u c => u.setObj r.ix r.sub (i.row.toNat + k) c (itemElem r i.data k c)) t) s

/-- The state in which row `k` of a CKPT_CMD item is checked: the rows before it have had their effect (13 R372). -/
def State.ckptBefore (t : State) (i : MgmtItem) (k : Nat) : State :=
  match itemRow i with
  | some r => if r.ix = 0x8002 ∧ r.sub = 1 then
      (List.range k).foldl (fun u j => u.ckptDo (i.row.toNat + j) (itemElem r i.data j 0)) t else t
  | none => t

/-- The first failing check of an item of a WRITE: `t` is the state with every item staged. -/
def State.itemRule (s t : State) (rights : Nat) (i : MgmtItem) : Option Nat :=
  (itemForm i false).orElse fun _ => match itemRow i with
    | none => none
    | some r =>
      (s.accessRule r).orElse fun _ =>
      (must (bit rights (writeRight r.ix r.sub)) stMgmtRight).orElse fun _ =>
      (must (inRange r i.data i.rows.toNat) stMgmtRange).orElse fun _ =>
        (List.range i.rows.toNat).findSome? fun k =>
          (s.rowRule t r.ix r.sub (i.row.toNat + k)).orElse fun _ => s.actRule (t.ckptBefore i k) r.ix r.sub (i.row.toNat + k) (itemElem r i.data k 0)

/-- What an item sets going, once every item is stored. -/
def State.itemDo (s0 : State) (t : State) (i : MgmtItem) : State :=
  match itemRow i with
  | none => t
  | some r => (List.range i.rows.toNat).foldl (fun u k =>
      (s0.after u r.ix r.sub (i.row.toNat + k)).actDo r.ix r.sub (i.row.toNat + k) (itemElem r i.data k 0)) t

/-- The row of a CKPT_CMD item whose trigger fails its checks; `t` is the state with every item staged. -/
def State.ckptFailing (t : State) (i : MgmtItem) : Option Nat :=
  match itemRow i with
  | some r => ((List.range i.rows.toNat).find? fun k =>
      ((t.ckptBefore i k).ckptRule (i.row.toNat + k) (itemElem r i.data k 0)).isSome && itemElem r i.data k 0 == 1).map (i.row.toNat + ·)
  | none => none

/-- A commanded trigger that fails its checks sets CKPT_RESULT of its context (13 R372); one refused as busy changes nothing. -/
def State.ckptRefused (t : State) (i : MgmtItem) (st : Nat) (s : State) : State :=
  if i.index = 0x8002 && i.sub = 1 && (st = stCkptManifest || st = stCkptSpace) then
    match t.ckptFailing i with
    | some c => s.ckptResult c st
    | none => s
  else s

/-- A WRITE: every item is applied, or none. -/
def State.writePlan (s : State) (items : List MgmtItem) (rights : Nat) : MgmtPlan :=
  let t := items.foldl State.stageItem s
  match firstFail (s.itemRule t rights) items with
  | some (st, k) => ⟨st, k, [], match items[k]? with | some i => t.ckptRefused i st | none => id⟩
  | none => planOk fun u => items.foldl s.itemDo ((items.foldl State.stageItem u).count 0x1202 3)

/-- WRITE. -/
def execWrite (m : MgmtHdr) (items : List MgmtItem) (s : State) : Res :=
  s.mgmtMsg m 0x03 (decide (1 ≤ items.length) && decide (items.length ≤ 16)) fun t r => t.writePlan items r

/-- One row of an object, written alone. -/
def item1 (ix sub row data : Nat) : MgmtItem :=
  { index := BitVec.ofNat 16 ix, sub := BitVec.ofNat 8 sub, typ := BitVec.ofNat 8 (((objRow ix sub).map (·.typ)).getD 0),
    row := BitVec.ofNat 16 row, rows := 1, len := BitVec.ofNat 16 (((objRow ix sub).map (·.rowBytes)).getD 0), data := data }
/-- A WRITE of one row of one object. -/
def State.write1 (s : State) (m : MgmtHdr) (ix sub row data : Nat) : Res :=
  s.mgmtMsg m 0x03 true fun t r => t.writePlan [item1 ix sub row data] r

/-- MGMT_STOP. -/
def execMgmtStop (m : MgmtHdr) (s : State) : Res := s.write1 m 0x1203 2 0 1
/-- MGMT_START. -/
def execMgmtStart (m : MgmtHdr) (s : State) : Res := s.write1 m 0x1203 2 0 2
/-- MGMT_SERVICE. -/
def execMgmtService (m : MgmtHdr) (s : State) : Res := s.write1 m 0x1203 2 0 3
/-- MGMT_LEAVE_SERVICE. -/
def execMgmtLeaveService (m : MgmtHdr) (s : State) : Res := s.write1 m 0x1203 2 0 4
/-- CTX_ENABLE (10 R285). -/
def execCtxEnable (m : MgmtHdr) (ctx : BitVec 8) (value : BitVec 8) (s : State) : Res := s.write1 m 0x5000 1 ctx.toNat value.toNat
/-- QUOTE_NONCE (12 R348). -/
def execQuoteNonce (m : MgmtHdr) (nonce : BitVec 256) (s : State) : Res := s.write1 m 0x7001 1 0 nonce.toNat
/-- JOIN_OUT (12 R356). -/
def execJoinOut (m : MgmtHdr) (ctx : BitVec 8) (peerId : BitVec 16) (peerCtx : BitVec 8) (armed : Bool) (s : State) : Res :=
  s.write1 m 0x7004 1 ctx.toNat (peerId.toNat + peerCtx.toNat * 2 ^ 16 + b2n armed * 2 ^ 24)
/-- CKPT_CHECKPOINT (13 R372). -/
def execCkptCheckpoint (m : MgmtHdr) (ctx : BitVec 8) (s : State) : Res := s.write1 m 0x8002 1 ctx.toNat 1
/-- CKPT_RESTORE (13 R381). -/
def execCkptRestore (m : MgmtHdr) (ctx : BitVec 8) (s : State) : Res := s.write1 m 0x8002 1 ctx.toNat 2
/-- CKPT_ABORT (13 R380). -/
def execCkptAbort (m : MgmtHdr) (ctx : BitVec 8) (s : State) : Res := s.write1 m 0x8002 1 ctx.toNat 3
/-- POWER_CAP_W (15 R434). -/
def execPowerCapW (m : MgmtHdr) (watts : BitVec 16) (s : State) : Res := s.write1 m 0x2101 3 0 watts.toNat
/-- HOST_VSET (15 R418). -/
def execHostVset (m : MgmtHdr) (mv : BitVec 16) (s : State) : Res := s.write1 m 0x2001 1 0 mv.toNat
/-- FENCE_DIE (16 R450). -/
def execFenceDie (m : MgmtHdr) (die : BitVec 8) (s : State) : Res := s.write1 m 0x9003 2 0 die.toNat
/-- FATAL_CLEAR (16 R442). -/
def execFatalClear (m : MgmtHdr) (value : BitVec 8) (s : State) : Res := s.write1 m 0x9001 2 0 value.toNat
/-- DEVICE_RESET (15 R422). -/
def execDeviceReset (m : MgmtHdr) (s : State) : Res := s.write1 m 0x2100 1 0 1
/-- PLINTH_PARTIAL_RESET (15 R424). -/
def execPlinthPartialReset (m : MgmtHdr) (s : State) : Res := s.write1 m 0x2100 1 0 2
/-- DIE_PARTIAL_RESET (15 R425). -/
def execDiePartialReset (m : MgmtHdr) (die : Nat) (s : State) : Res :=
  s.write1 m 0x2100 1 0 (0x10 + min die 15)
/-- PORT_PARTIAL_RESET (15 R426). -/
def execPortPartialReset (m : MgmtHdr) (port : Nat) (s : State) : Res :=
  s.write1 m 0x2100 1 0 (0x20 + min port 31)

/-! ### Images (R408-R411) -/

/-- Every byte that the header of a received image names has come. -/
def imgComplete (k : Nat) (b : List Byte) : Bool := decide ((if k = 4 then 64 else 256) ≤ b.length) && decide (imgBytes k b ≤ b.length)

/-- Bytes so far of an image being received; the inactive bank holds them too. -/
def State.imgStore (s : State) (k : Nat) (b : List Byte) : State :=
  s.modMg fun g => { g with
    stage := g.stage.set k ⟨1, b, 0⟩, banks := tblIns g.banks (2 * k + b2n (!(g.runBanks.getD k false))) b }

/-- A chunk (items 1 and 2 of R408). -/
def State.imgPlan (s : State) (k off : Nat) (data : List Byte) (rights : Nat) : MgmtPlan :=
  let st := s.mg.stage.getD k ⟨0, [], 0⟩
  let n := st.bytes.length
  if !bit rights 3 then planBad stMgmtRight 0xFF
  else if s.dev.mgmt = 4 then planBad stMgmtState 0xFF
  else if s.activating k then planBad stImageBusy 0xFF
  else if off = 0 then planOk fun t => t.imgStore k data
  else if off < n then planBad stDup 0xFF
  else if n < off || st.state != 1 || imgComplete k st.bytes || decide (imgMax k < off + data.length) then planBad stImage 0xFF
  else planOk fun t => t.imgStore k (st.bytes ++ data)

/-- IMG_DATA. -/
def execImgData (m : MgmtHdr) (kind : BitVec 8) (offset : W32) (data : List Byte) (s : State) : Res :=
  s.mgmtMsg m 0x04 (decide (kind.toNat ≤ 4) && offset.toNat % 1024 == 0 && decide (1 ≤ data.length) && decide (data.length ≤ 1024))
    fun t r => t.imgPlan kind.toNat offset.toNat data r

/-- IMAGE_VERIFIED (items 3 and 4 of R408). -/
def execImageVerified (kind : Nat) (s : State) : Res :=
  if 5 ≤ kind then .next s
  else
    let st := s.mg.stage.getD kind ⟨0, [], 0⟩
    if !s.powered || st.state != 1 || !imgComplete kind st.bytes then .next s
    else
      let r := if !s.imgOk kind st.bytes then stImage else if kind < 4 && !s.levelOk st.bytes then stVersion else stOk
      .next (s.modMg fun g => { g with stage := g.stage.set kind ⟨if r = stOk then 2 else 3, st.bytes, r⟩ })

/-- IMG_ACTIVATE. -/
def execImgActivate (m : MgmtHdr) (kind : BitVec 8) (s : State) : Res := s.write1 m 0xA002 1 0 kind.toNat
/-- IMG_DISCARD. -/
def execImgDiscard (m : MgmtHdr) (kind : BitVec 8) (s : State) : Res := s.write1 m 0xA002 2 0 kind.toNat
/-- IMG_COMMIT. -/
def execImgCommit (m : MgmtHdr) (value : BitVec 8) (s : State) : Res := s.write1 m 0xA002 3 0 value.toNat

/-- ACTIVATION_DONE: every die or port runs the new image, or the plinth units have been released, or the management
controller runs again. -/
def execActivationDone (s : State) : Res :=
  match s.mg.act with
  | some a => if s.live && a.todo.isEmpty && a.current.isNone && (a.kind != 1 || !s.quiescing) then .next (s.activated a) else .next s
  | none => .next s

/-- ACTIVATION_DRAIN_EXPIRY: steps that still hold quads of the die being drained end with ST_FENCED. -/
def execActivationDrainExpiry (s : State) : Res :=
  match s.mg.act with
  | some a => match a.current, a.drainTill with
    | some d, some t =>
      if s.live && a.kind == 2 && decide (t ≤ s.tick) then .next ((s.run.steps.filter fun e => !e.2.waits && e.2.quads.any fun q => q / 64 == d).foldl
        (fun u e => u.endStep e.1 stFenced none) s).actStep
      else .next s
    | _, _ => .next s
  | none => .next s

end Sys2Proof.Machine
end

