-- ==== Sys2Proof/Machine/CkptCmds.lean ====
section
/-! DEFINITION. Meanings of the checkpoint's events (13 R371-R377). -/

namespace Sys2Proof.Machine

/-- CKPT_NOTICE: trigger 4, from the fabric manager. -/
def execCkptNotice (s : State) : Res := .next (if s.fabricUp then s.warn 4 else s)

/-- CUT_INSTANT (R374): no step of the context runs; the mark is read, CKPT_SEQ counts, covered frames become uncopied. -/
def execCutInstant (ctx : Nat) (s : State) : Res :=
  let k := s.ckpt ctx
  match k.man with
  | some m =>
    if !s.live || k.state ≠ 1 || s.ctxRuns ctx then .next s
    else
      let q := (k.seq + 1) % 2 ^ 32
      .next ((s.setCkpt ctx { k with state := 2, seq := q, step := s.cnum ctx m.mark 8, uncopied := coverOf ctx k.shards }).ckptEvent
        ctx 0x0030 stOk q 0)
  | none => .next s

/-- CKPT_HOLD_EXPIRY (R373). -/
def execCkptHoldExpiry (ctx : Nat) (s : State) : Res :=
  let k := s.ckpt ctx
  if s.live && k.state = 1 && s.ctxRuns ctx && decide (k.since + s.obj 0x8004 2 * ticksPerUs ≤ s.tick) then
    .next ((s.ckptIdle ctx).ckptResult ctx stCkptHold)
  else .next s

/-- On a die on which context `ctx` has frames to copy, the copy unit first serves another context's frames on which writes are held,
and a lower context (R372, R375). -/
def State.cutWaits (s : State) (ctx : Nat) : Bool :=
  let dies := (s.ckpt ctx).uncopied.map frameDie
  s.cks.tbl.any fun e => e.1 != ctx && e.2.state == 2 && e.2.uncopied.any fun f =>
    decide (frameDie f ∈ dies) && (decide (e.1 < ctx) || (tblFind s.cks.held f).isSome)

/-- CUT_COMPLETE (R375): the last covered frames are copied, in ascending order, and the drain begins. -/
def execCutComplete (ctx : Nat) (s : State) : Res :=
  let k := s.ckpt ctx
  if !s.live || k.state ≠ 2 || s.cutWaits ctx then .next s
  else
    let t := k.uncopied.foldl (fun u f => u.copyFrame ctx f) s
    .next (t.setCkpt ctx { t.ckpt ctx with state := 3, part := 0, placed := 0 })

/-- CBW_RELEASE (R376): the frame on which a write is held has been copied. -/
def execCbwRelease (ctx frame : Nat) (s : State) : Res :=
  let f := ctx * 2 ^ 36 + frame
  if s.live && (s.ckpt ctx).state = 2 && decide (f ∈ (s.ckpt ctx).uncopied) && (tblFind s.cks.held f).isSome then .next (s.copyFrame ctx f)
  else .next s

end Sys2Proof.Machine
end

