-- ==== Sys2Proof/Machine/HostSite.lean ====
section
/-! DEFINITION. Meanings of the host site's commands and events (11). -/

namespace Sys2Proof.Machine

/-- A host transaction arrives (11 R313): the link is up and the module that carries it is. -/
def State.carries (s : State) (m : Nat) : Bool := s.site.linkUp && (s.site.modules.getD m ⟨0, 0, false⟩).up

/-- A flit of module `m` got through: its replays end (DESIGN CHOICE, log entry 12). -/
def State.flitOk (s : State) (m : Nat) : State :=
  s.modSite fun g => { g with modules := g.modules.set m { g.modules.getD m ⟨0, 0, false⟩ with replays := 0 } }

/-- The link has come up (R314): every pair disabled, its rings and spill empty, DEV_RDY low; both directions number their
transactions from 0 (DESIGN CHOICE, log entry 12). -/
def State.pairsOff (s : State) : State :=
  s.modSite fun g => { g with
    qps := g.qps.map fun p => { qpReset with cqInSite := p.cqInSite, cqLog2 := p.cqLog2, cqBase := p.cqBase,
                                             dbErr := p.dbErr, overflow := p.overflow },
    ks := { g.ks with latch := none }, hostSeq := 0, hostHeld := [], devSeq := 0 }

/-- SITE_LINK_BRINGUP (R314): `widths` is the width code each module trains to. -/
def execSiteLinkBringup (widths : List Nat) (s : State) : Res :=
  if !s.dev.locked || !s.site.bringing || s.dev.hostRail != 2 || widths.length != 4 || widths.any (fun w => decide (3 < w)) then
    .next s
  else if widths.all (· == 0) then
    .next ((s.record { sev := 1, code := 0x000F, source := 0x0A, unit := 0 }).modSite fun g =>
      { g with bringing := false, modules := List.replicate 4 ⟨0, 0, false⟩, retryAt := some (s.tick + 100 * ticksPerMs) })
  else
    .next (s.pairsOff.modSite fun g =>
      { g with bringing := false, linkUp := true, retryAt := none, modules := widths.map fun w => ⟨w, 0, false⟩,
               resetting := s.plinthDown })

/-- SITE_BRINGUP_RETRY (R314). -/
def execSiteBringupRetry (s : State) : Res :=
  match s.site.retryAt with
  | some t =>
    if s.dev.locked && s.dev.hostRail == 2 && !s.site.linkUp && decide (t ≤ s.tick) then
      .next (s.modSite fun g => { g with bringing := true, retryAt := none })
    else .next s
  | none => .next s

/-- UCIE_FLIT_REPLAY (R313): the eighth replay of a flit makes its module retrain. The link goes on after a FATAL error (R331). -/
def execUcieFlitReplay (module_ : Nat) (s : State) : Res :=
  if 4 ≤ module_ then .next s
  else
    let m := s.site.modules.getD module_ ⟨0, 0, false⟩
    if !s.dev.locked || !s.carries module_ then .next s
    else
      let re := decide (8 ≤ m.replays + 1)
      .next ((s.record { sev := 0, code := 0x000F, source := 0x0A, unit := module_, shared := re }).modSite fun g =>
        { g with modules := g.modules.set module_ (if re then ⟨m.width, 0, true⟩ else ⟨m.width, m.replays + 1, false⟩) })

/-- UCIE_RETRAIN_DONE (R313): the module comes back with width code `width`, 0 for down. -/
def execUcieRetrainDone (module_ width : Nat) (s : State) : Res :=
  if 4 ≤ module_ then .next s
  else
    let m := s.site.modules.getD module_ ⟨0, 0, false⟩
    if !s.dev.locked || !m.retraining || 3 < width then .next s
    else
      let s1 := s.modSite fun g => { g with modules := g.modules.set module_ ⟨width, 0, false⟩ }
      let s2 :=
        if width = 0 then s1.record { sev := 1, code := 0x000F, source := 0x0A, unit := module_, shared := true }
        else if width < 3 then s1.record { sev := 0, code := 0x000F, source := 0x0A, unit := module_, shared := true }
        else s1
      if s2.site.modules.all (fun m => m.width == 0) then
        .next (s2.modSite fun g => { g with linkUp := false, retryAt := some (s2.tick + 100 * ticksPerMs) })
      else .next s2

/-! ### Registers -/

/-- The submission ring's new tail (R320); a ring that is not enabled has none. -/
def State.setTail (s : State) (ring tail : Nat) : State :=
  if ring = 64 then
    if s.site.ks.enable then s.modSite fun g => { g with
      ks := { g.ks with sqTail := tail % 512 }
      ksDoors := (span g.ks.sqTail ((tail + 512 - g.ks.sqTail) % 512)).foldl (fun t i => tblIns t (i % 512) s.dev.nclk) g.ksDoors }
    else s
  else if (s.qp ring).enabled then s.setQp ring { s.qp ring with sqTail := tail % 512 } else s

/-- Completion slots before `head` are freed (R320); a head beyond CQ_TAIL sets DB_ERR. On a full ring a head
equal to CQ_TAIL frees it all (DEDUCED, log entry 13). -/
def State.freeSlots (s : State) (q head : Nat) : State :=
  let p := s.qp q
  if !p.enabled then s
  else
    let n := p.cap
    let freed := if head = p.cqTail ∧ p.cqCount = n then n else (head + n - p.cqHead) % n
    if n ≤ head ∨ p.cqCount < freed then s.setQp q { p with dbErr := true }
    else s.setQp q { p with cqHead := head, cqCount := p.cqCount - freed }

/-- ENABLE is written set (R319): a ring of a size out of range, or outside one window of its pair, is not
enabled (DESIGN CHOICE, log entry 14). -/
def State.enablePair (s : State) (q : Nat) : State :=
  let p := { s.qp q with want := true }
  if p.enabled then s.setQp q p
  else if decide (4 ≤ p.cqLog2) && decide (p.cqLog2 ≤ (if p.cqInSite then 9 else 16))
      && (p.cqInSite || s.hostOk q p.cqBase.toNat (128 * p.cap)) then
    (if p.cqInSite then s.modSite fun g => { g with cqMem := memZero g.cqMem (0x600000 + 0x10000 * q) 0x10000 } else s).setQp q
      { qpReset with want := true, enabled := true, cqInSite := p.cqInSite, cqLog2 := p.cqLog2, cqBase := p.cqBase,
                     dbErr := p.dbErr, overflow := p.overflow, latch := p.latch }
  else s.setQp q p

/-- Work of pair `q` not yet written (R319). -/
def State.pairBusy (s : State) (q : Nat) : Bool :=
  let p := s.qp q
  decide (0 < p.work) || decide (0 < p.resv) || decide (0 < p.resvKs) || !p.spill.isEmpty
  || s.site.qps.any fun r => r.spill.any fun e => e.sqId == q

/-- ENABLE is written clear (R319): refused, and ENABLE stays set, while work of the pair is not yet written. -/
def State.disablePair (s : State) (q : Nat) : State :=
  let p := s.qp q
  let keep := p.enabled && s.pairBusy q
  s.setQp q { p with want := keep, enabled := keep }

/-- A 64-bit write to QP_CFG. -/
def State.writeCfg (s : State) (q v : Nat) : State :=
  let p := s.qp q
  let s1 := if p.enabled then s else s.setQp q { p with cqInSite := bit v 62, cqLog2 := bits v 52 48 }
  if bit v 63 then s1.enablePair q else s1.disablePair q

/-- A write to a host window entry (R318), whole: ignored for a window of an enabled pair. -/
def State.writeWin (s : State) (i v : Nat) : State :=
  let w := tblGet ⟨false, 0, 0, 0⟩ s.site.wins i
  let w' : HostWin := ⟨bit v 127, bits v 119 112, bits v 103 64, bits v 63 0⟩
  if (w.valid && (s.qp w.qp).enabled) || (w'.valid && (s.qp w'.qp).enabled) then s
  else s.modSite fun g => { g with wins := tblPut ⟨false, 0, 0, 0⟩ g.wins i w' }

/-- A 64-bit write to the doorbell of a ring (R320). -/
def State.doorbell (s : State) (ring v : Nat) : State :=
  let s1 := if bit v 32 then s.setTail ring (bits v 8 0) else s
  if bit v 33 && ring != 64 then s1.freeSlots ring (bits v 31 16) else s1

/-- A 64-bit write to a register of the site window; registers that are read only keep their value. -/
def State.writeReg (s : State) (off v : Nat) : State :=
  if 0x1000 ≤ off ∧ off < 0x2000 then
    let q := (off - 0x1000) / 64
    if off % 64 = 0 then s.writeCfg q v
    else if off % 64 = 8 && !(s.qp q).enabled then s.setQp q { s.qp q with cqBase := BitVec.ofNat 64 v }
    else s
  else if off = 0x3000 then
    s.modSite fun g =>
      let fresh := bit v 63 && !g.ks.enable
      { g with ks := { g.ks with enable := bit v 63, fallback := bits v 5 0, sqHead := if fresh then 0 else g.ks.sqHead,
                                 sqTail := if fresh then 0 else g.ks.sqTail } }
  else if 0x10000 ≤ off ∧ off < 0x11000 then (if off % 64 = 0 then s.doorbell ((off - 0x10000) / 64) v else s)
  else if off = 0x11000 then s.doorbell 64 v
  else s

/-- The parts of the site window map (R317) as start and length, those without a gap between them joined. -/
def siteMap : List (Nat × Nat) :=
  [(0, 0x20), (0x1000, 0x2040), (0x10000, 0x1010), (0x100000, 0x410000), (0x600000, 0x400000)]

/-- A write of one 16-byte unit to registers of the site window: a host window entry whole (R318), of other registers the lower
one first (DESIGN CHOICE, log entry 14). -/
def State.writeUnit (s : State) (off v : Nat) : State :=
  if 0x2000 ≤ off ∧ off < 0x3000 then s.writeWin ((off - 0x2000) / 16) v
  else (s.writeReg off (bits v 63 0)).writeReg (off + 8) (bits v 127 64)

/-- The 16-byte units of a byte string, each with its offset. -/
def siteUnits (off : Nat) (data : List Byte) : List (Nat × Nat) :=
  (List.range (data.length / 16)).map fun i => (off + 16 * i, leNat ((data.drop (16 * i)).take 16))

/-- A host write (R316); one outside the map, misaligned or of a size no HWR has is discarded and counted. A write of a
whole submission entry mends it. -/
def State.hostWrite (s : State) (offset : Nat) (data : List Byte) : State :=
  let n := data.length
  if offset % 16 != 0 || n == 0 || n % 16 != 0 || decide (4096 < n) || !siteMap.any (fun r => within offset n r.1 r.2) then
    s.modSite fun g => { g with discards := (g.discards + 1) % 2 ^ 16 }
  else if 0x600000 ≤ offset then s.modSite fun g => { g with cqMem := memWrite g.cqMem offset data }
  else if 0x100000 ≤ offset then s.modSite fun g => { g with
    rings := memWrite g.rings offset data
    badEntries := tblKeep g.badEntries fun k _ => !within (0x100000 + 128 * k) 128 offset n }
  else s.each (siteUnits offset data) fun t u => t.writeUnit u.1 u.2

/-! ### Host reads (R315, R317) -/

/-- SITE_STATUS (R317). -/
def State.siteStatus (s : State) : Nat :=
  ((s.site.modules.mapIdx fun i m => m.width % 4 * 4 ^ i).foldl (· + ·) 0) % 2 ^ 8 + b2n s.devRdy * 2 ^ 8
    + s.site.discards % 2 ^ 16 * 2 ^ 32 + b2n s.site.resetting * 2 ^ 62 + b2n s.dev.siteFatal * 2 ^ 63

/-- A ready latch after a read of it in cycle `c` of NCLK: one set in the same cycle stays set (R330). -/
def latchRead (c : Nat) (l : Option Nat) : Option Nat := l.filter (· == c)

/-- QP_CFG. -/
def Qp.cfg (p : Qp) : Nat := p.cqLog2 % 2 ^ 5 * 2 ^ 48 + b2n p.cqInSite * 2 ^ 62 + b2n p.want * 2 ^ 63

/-- QP_STATUS. -/
def Qp.status (p : Qp) : Nat :=
  b2n p.enabled + b2n p.overflow * 2 + b2n p.dbErr * 4 + p.spill.length % 2 ^ 9 * 2 ^ 7 + p.cqTail % 2 ^ 16 * 2 ^ 16
    + p.sqHead % 2 ^ 9 * 2 ^ 32

/-- One half of a host window entry (R318). -/
def HostWin.half (w : HostWin) (high : Bool) : Nat :=
  if high then w.len % 2 ^ 40 + w.qp % 2 ^ 8 * 2 ^ 48 + b2n w.valid * 2 ^ 63 else w.base % 2 ^ 64

/-- A read of a register block of queue pair `q`: RC bits of QP_STATUS are cleared (R319). -/
def State.readQp (s : State) (q o : Nat) : Nat × State :=
  let p := s.qp q
  if o = 0 then (p.cfg, s)
  else if o = 8 then (p.cqBase.toNat, s)
  else if o = 16 then (p.status, s.setQp q { p with dbErr := false, overflow := false })
  else (0, s)

/-- A 64-bit read of a register: its value, and the state after RC fields are cleared. A register that is written only, and an
offset of the map that holds none, reads 0. -/
def State.readReg (s : State) (off : Nat) : Nat × State :=
  if off = 0 then (s.siteStatus, s.modSite fun g => { g with discards := 0 })
  else if off = 8 then (s.site.late, s.modSite fun g => { g with late := 0 })
  else if off = 0x10 then
    ((s.site.qps.mapIdx fun i p => if p.latch.isSome then 2 ^ i else 0).foldl (· + ·) 0,
     s.modSite fun g => { g with qps := g.qps.map fun p => { p with latch := latchRead s.dev.nclk p.latch } })
  else if off = 0x18 then
    (b2n s.site.ks.latch.isSome, s.modSite fun g => { g with ks := { g.ks with latch := latchRead s.dev.nclk g.ks.latch } })
  else if 0x1000 ≤ off ∧ off < 0x2000 then s.readQp ((off - 0x1000) / 64) (off % 64)
  else if 0x2000 ≤ off ∧ off < 0x3000 then
    ((tblGet ⟨false, 0, 0, 0⟩ s.site.wins ((off - 0x2000) / 16)).half (off % 16 == 8), s)
  else if off = 0x3000 then (s.site.ks.fallback % 64 + b2n s.site.ks.enable * 2 ^ 63, s)
  else if off = 0x3008 then (s.site.ks.sqHead % 2 ^ 9 * 2 ^ 32, s)
  else (0, s)

/-- `n` registers from `off`, ascending; after a FATAL error every register but SITE_STATUS reads 0 (R331). -/
def State.readRegs (s : State) (off : Nat) : Nat → List Byte × State
  | 0 => ([], s)
  | n + 1 =>
    let r := if s.dev.siteFatal && off != 0 then (0, s) else s.readReg off
    let rest := r.2.readRegs (off + 8) n
    (leBytes 8 r.1 ++ rest.1, rest.2)

/-- The data of a read: of registers, or of the rings in plinth SRAM. -/
def State.readData (s : State) (off n : Nat) : List Byte × State :=
  if off < 0x100000 then s.readRegs off (n / 8)
  else if s.dev.siteFatal then (leBytes n 0, s)
  else (memRead (if 0x600000 ≤ off then s.site.cqMem else s.site.rings) off n, s)

/-- A host read and its HRDR (R315). The data of one that is answered ST_HOST_WINDOW is free (log entry 12), but 0 after a FATAL
error (R331). -/
def State.hostRead (s : State) (off tag n : Nat) : State :=
  let ok := off % 16 == 0 && siteMap.any fun r => within off n r.1 r.2
  let a := s.take1
  let r :=
    if ok then s.readData off n
    else if s.dev.siteFatal then (leBytes n 0, s)
    else ((List.range n).map (Config.freeByte a.1), a.2)
  (r.2.emit (.hrdr r.2.site.devSeq tag (if ok then stOk else stHostWindow) r.1)).modSite fun g =>
    { g with devSeq := (g.devSeq + 1) % 4096 }

/-! ### Host transactions in SEQ order (R316) -/

/-- A host transaction is applied: after a FATAL error an HWR is discarded (R331). -/
def State.hostOp (s : State) : HostOp → State
  | .read off tag lenM1 => s.hostRead off tag.toNat (16 * (lenM1.toNat + 1))
  | .write off data => if !s.live then s else s.hostWrite off data
  | .sqTail ring tail => if !s.live then s else s.setTail ring tail.toNat
  | .cqHead q head => if !s.live then s else s.freeSlots q head.toNat
  | .enable q => if !s.live then s else s.enablePair q
  | .disable q => if !s.live then s else s.disablePair q

/-- The next transaction in SEQ order is applied. -/
def State.hostNext (s : State) (o : HostOp) : State :=
  (s.modSite fun g => { g with hostHeld := tblDel g.hostHeld g.hostSeq, hostSeq := (g.hostSeq + 1) % 4096 }).hostOp o

/-- Transactions held whose turn has come; at most `n` of them. -/
def State.hostRun (s : State) : Nat → State
  | 0 => s
  | n + 1 => match tblFind s.site.hostHeld s.site.hostSeq with
    | some o => (s.hostNext o).hostRun n
    | none => s

/-- A host transaction arrives: applied in its turn, held while one of a lower SEQ is missing, and dropped where its SEQ was
applied (DESIGN CHOICE, log entry 12: a SEQ more than half the numbers ahead was). -/
def State.hostTake (s : State) (h : SiteHdr) (o : HostOp) : State :=
  if !s.carries h.module_ then s
  else
    let t := s.flitOk h.module_
    let d := (h.seq.toNat + 4096 - s.site.hostSeq) % 4096
    if d = 0 then (t.hostNext o).hostRun t.site.hostHeld.length
    else if 2048 ≤ d ∨ (tblFind t.site.hostHeld h.seq.toNat).isSome then t
    else t.modSite fun g => { g with hostHeld := tblIns g.hostHeld h.seq.toNat o }

/-- SITE_REGISTER_WRITE (R316): an HWR. -/
def execSiteRegisterWrite (x : SiteRef) (data : List Byte) (s : State) : Res :=
  .next (s.hostTake x.hdr (.write x.n data))

/-- DOORBELL_SQ_TAIL (R320, R321). -/
def execDoorbellSqTail (x : SiteRef) (tail : BitVec 9) (s : State) : Res :=
  if 64 < x.n then .next s else .next (s.hostTake x.hdr (.sqTail x.n tail))

/-- DOORBELL_CQ_HEAD (R320). -/
def execDoorbellCqHead (x : SiteRef) (head : BitVec 16) (s : State) : Res :=
  if 64 ≤ x.n then .next s else .next (s.hostTake x.hdr (.cqHead x.n head))

/-- QP_ENABLE (R319). -/
def execQpEnable (x : SiteRef) (s : State) : Res :=
  if 64 ≤ x.n then .next s else .next (s.hostTake x.hdr (.enable x.n))

/-- QP_DISABLE (R319). -/
def execQpDisable (x : SiteRef) (s : State) : Res :=
  if 64 ≤ x.n then .next s else .next (s.hostTake x.hdr (.disable x.n))

/-- RDY_PEND_READ (R330): an HRD (R315). One that covers 0x10 returns and clears the ready latches; the table has no row for other
reads of the site window, so this row carries them too (DESIGN CHOICE, log entry 12). -/
def execRdyPendRead (rd : SiteRead) (s : State) : Res :=
  .next (s.hostTake rd.hdr (.read rd.offset rd.tag rd.lenM1))

/-- COMPLETION_SPILL_WRITE (R324): the oldest entry of a spill goes to a ring slot that is free. -/
def execCompletionSpillWrite (qp : Nat) (s : State) : Res :=
  if 64 ≤ qp then .next s
  else
    let p := s.qp qp
    match p.spill with
    | [] => .next s
    | e :: es =>
      if !s.live || !p.enabled || decide (p.cap ≤ p.cqCount) then .next s
      else .next ((s.setQp qp { p with spill := es }).writeEntry qp e)

/-- UNKNOWN_COMMAND_ENTRY (R322): rejected with ST_COMMAND. -/
def execUnknownCommandEntry (sq : Nat) (typ : BitVec 8) (s : State) : Res :=
  if 64 < sq then .next s
  else
    match s.headEntry sq with
    | some (.unknown t h) =>
      let e := Entry.unknown t h
      if t ≠ typ.toNat || !s.mayTake sq e then .next s
      else
        let q := s.target sq e
        let u := s.takeEntry sq q
        .next (u.cmdDone sq q (s.qctx q) (u.sqHeadOf sq) h.tag t stCommand 0)
    | _ => .next s

end Sys2Proof.Machine
end

