-- ==== Sys2Proof/Machine/Dispatch.lean ====
section
/-! DEFINITION. One arm per command: a call of its meaning, or a refusal by name. -/

namespace Sys2Proof.Machine

def exec (i : Instr) (s : State) : Host.Outcome State Fault Refusal :=
  match i with
  | .nop core => Sys2Proof.Machine.execNop core s
  | .setp core f => Sys2Proof.Machine.execSetp core f s
  | .addp core f => Sys2Proof.Machine.execAddp core f s
  | .setc core f => Sys2Proof.Machine.execSetc core f s
  | .ldc core f => Sys2Proof.Machine.execLdc core f s
  | .setk core f => Sys2Proof.Machine.execSetk core f s
  | .loop core f => Sys2Proof.Machine.execLoop core f s
  | .brc core f => Sys2Proof.Machine.execBrc core f s
  | .jmp core f => Sys2Proof.Machine.execJmp core f s
  | .endProg core => Sys2Proof.Machine.execEndProg core s
  | .engMm step sig bad => Sys2Proof.Machine.execEngMm step sig bad s
  | .engAts step sig bad => Sys2Proof.Machine.execEngAts step sig bad s
  | .engAtv step sig bad => Sys2Proof.Machine.execEngAtv step sig bad s
  | .vec core f => Sys2Proof.Machine.execVec core f s
  | .cvt core f => Sys2Proof.Machine.execCvt core f s
  | .dmaLs core f => Sys2Proof.Machine.execDmaLs core f s
  | .dmaCs core f => Sys2Proof.Machine.execDmaCs core f s
  | .strRd core f => Sys2Proof.Machine.execStrRd core f s
  | .strWr core f => Sys2Proof.Machine.execStrWr core f s
  | .strSpread core f => Sys2Proof.Machine.execStrSpread core f s
  | .strPage core f => Sys2Proof.Machine.execStrPage core f s
  | .streamRequestComplete core ue => Sys2Proof.Machine.execStreamRequestComplete core ue s
  | .put core f => Sys2Proof.Machine.execPut core f s
  | .addput core f => Sys2Proof.Machine.execAddput core f s
  | .signal core f => Sys2Proof.Machine.execSignal core f s
  | .messageDeliver step src dst => Sys2Proof.Machine.execMessageDeliver step src dst s
  | .signalApply step src dst => Sys2Proof.Machine.execSignalApply step src dst s
  | .wait core f => Sys2Proof.Machine.execWait core f s
  | .waitMet core => Sys2Proof.Machine.execWaitMet core s
  | .waitBoundExpiry core => Sys2Proof.Machine.execWaitBoundExpiry core s
  | .get core f => Sys2Proof.Machine.execGet core f s
  | .atom core f => Sys2Proof.Machine.execAtom core f s
  | .barrier core => Sys2Proof.Machine.execBarrier core s
  | .barrierRelease step => Sys2Proof.Machine.execBarrierRelease step s
  | .ppoint core f => Sys2Proof.Machine.execPpoint core f s
  | .ppointRelease step => Sys2Proof.Machine.execPpointRelease step s
  | .courseRealign step => Sys2Proof.Machine.execCourseRealign step s
  | .apndWrite core f => Sys2Proof.Machine.execApndWrite core f s
  | .apndArm core f => Sys2Proof.Machine.execApndArm core f s
  | .post core f => Sys2Proof.Machine.execPost core f s
  | .wcetOverrun step => Sys2Proof.Machine.execWcetOverrun step s
  | .stepDeadline step => Sys2Proof.Machine.execStepDeadline step s
  | .streamStall step => Sys2Proof.Machine.execStreamStall step s
  | .ppGapExpiry step => Sys2Proof.Machine.execPpGapExpiry step s
  | .stepDescriptor sq d => Sys2Proof.Machine.execStepDescriptor sq d s
  | .stepDispatch step => Sys2Proof.Machine.execStepDispatch step s
  | .courseRestoreDone step => Sys2Proof.Machine.execCourseRestoreDone step s
  | .periodicRelease ctx job => Sys2Proof.Machine.execPeriodicRelease ctx job s
  | .tokenRefill => Sys2Proof.Machine.execTokenRefill s
  | .keystoneArm sq h hold => Sys2Proof.Machine.execKeystoneArm sq h hold s
  | .keystoneDisarm sq h => Sys2Proof.Machine.execKeystoneDisarm sq h s
  | .keystoneArmExpiry ctx => Sys2Proof.Machine.execKeystoneArmExpiry ctx s
  | .sessionCreate sq h handle binding homeDie eventCq => Sys2Proof.Machine.execSessionCreate sq h handle binding homeDie eventCq s
  | .sessionDrop sq h handle => Sys2Proof.Machine.execSessionDrop sq h handle s
  | .sessionTruncate sq h handle n => Sys2Proof.Machine.execSessionTruncate sq h handle n s
  | .sessionRelease sq h handle => Sys2Proof.Machine.execSessionRelease sq h handle s
  | .sessionPin sq h handle set first count => Sys2Proof.Machine.execSessionPin sq h handle set first count s
  | .sessionQuery sq h handle dest => Sys2Proof.Machine.execSessionQuery sq h handle dest s
  | .bindInstall sq h binding rcd => Sys2Proof.Machine.execBindInstall sq h binding rcd s
  | .bindRemove sq h binding => Sys2Proof.Machine.execBindRemove sq h binding s
  | .adapterInstall sq h eventCq rcd => Sys2Proof.Machine.execAdapterInstall sq h eventCq rcd s
  | .adapterRemove sq h adapter => Sys2Proof.Machine.execAdapterRemove sq h adapter s
  | .park sq h handle pfmt lease expiry dual dirOut ttlMs => Sys2Proof.Machine.execPark sq h handle pfmt lease expiry dual dirOut ttlMs s
  | .parkPendStart handle => Sys2Proof.Machine.execParkPendStart handle s
  | .revive sq h handle narrow => Sys2Proof.Machine.execRevive sq h handle narrow s
  | .reviveHint sq h handle narrow => Sys2Proof.Machine.execReviveHint sq h handle narrow s
  | .hintLapse handle => Sys2Proof.Machine.execHintLapse handle s
  | .ttlSet sq h handle expiry ttlMs => Sys2Proof.Machine.execTtlSet sq h handle expiry ttlMs s
  | .ttlExpiry handle => Sys2Proof.Machine.execTtlExpiry handle s
  | .pageMoverStart mover ue => Sys2Proof.Machine.execPageMoverStart mover ue s
  | .pageLand mover => Sys2Proof.Machine.execPageLand mover s
  | .migrate sq h handle peerDev peerHandle => Sys2Proof.Machine.execMigrate sq h handle peerDev peerHandle s
  | .migrateIn sq h handle srcDev eventCq srcHandle => Sys2Proof.Machine.execMigrateIn sq h handle srcDev eventCq srcHandle s
  | .migrateInCancel sq h handle srcDev eventCq srcHandle => Sys2Proof.Machine.execMigrateInCancel sq h handle srcDev eventCq srcHandle s
  | .offer o => Sys2Proof.Machine.execOffer o s
  | .accept handle => Sys2Proof.Machine.execAccept handle s
  | .refuse handle status => Sys2Proof.Machine.execRefuse handle status s
  | .ready handle => Sys2Proof.Machine.execReady handle s
  | .release handle => Sys2Proof.Machine.execRelease handle s
  | .abort handle => Sys2Proof.Machine.execAbort handle s
  | .migrateReadyTimeout handle => Sys2Proof.Machine.execMigrateReadyTimeout handle s
  | .migratePeerTimeout handle => Sys2Proof.Machine.execMigratePeerTimeout handle s
  | .leaseSet sq h lease eventCq rcd => Sys2Proof.Machine.execLeaseSet sq h lease eventCq rcd s
  | .leaseClear sq h lease => Sys2Proof.Machine.execLeaseClear sq h lease s
  | .leaseLost sq h lease => Sys2Proof.Machine.execLeaseLost sq h lease s
  | .lossSweep handle => Sys2Proof.Machine.execLossSweep handle s
  | .frameScrub frame => Sys2Proof.Machine.execFrameScrub frame s
  | .patrolRead line ecc => Sys2Proof.Machine.execPatrolRead line ecc s
  | .vocabLoad sq h vocab addr imageLen => Sys2Proof.Machine.execVocabLoad sq h vocab addr imageLen s
  | .vocabRemove sq h vocab => Sys2Proof.Machine.execVocabRemove sq h vocab s
  | .stopsetSet sq h stopset countM1 addr lens => Sys2Proof.Machine.execStopsetSet sq h stopset countM1 addr lens s
  | .streamOpen sq h stream vocab stopset includeStop eventCq => Sys2Proof.Machine.execStreamOpen sq h stream vocab stopset includeStop eventCq s
  | .streamClose sq h stream => Sys2Proof.Machine.execStreamClose sq h stream s
  | .tokenize sq h stream last inAddr len outAddr outCap => Sys2Proof.Machine.execTokenize sq h stream last inAddr len outAddr outCap s
  | .tokenizeDone stream => Sys2Proof.Machine.execTokenizeDone stream s
  | .tokenEvent stream => Sys2Proof.Machine.execTokenEvent stream s
  | .grammarLoad sq h grammar addr => Sys2Proof.Machine.execGrammarLoad sq h grammar addr s
  | .grammarRemove sq h grammar => Sys2Proof.Machine.execGrammarRemove sq h grammar s
  | .grammarBind sq h stream grammar escape maskAddr => Sys2Proof.Machine.execGrammarBind sq h stream grammar escape maskAddr s
  | .grammarUnbind sq h stream => Sys2Proof.Machine.execGrammarUnbind sq h stream s
  | .regionSet sq h first rcd => Sys2Proof.Machine.execRegionSet sq h first rcd s
  | .regionClear sq h first => Sys2Proof.Machine.execRegionClear sq h first s
  | .regionClearDone first => Sys2Proof.Machine.execRegionClearDone first s
  | .linkFrameReceive port fr => Sys2Proof.Machine.execLinkFrameReceive port fr s
  | .lineRequestSend txn => Sys2Proof.Machine.execLineRequestSend txn s
  | .lineRequestReceive port q => Sys2Proof.Machine.execLineRequestReceive port q s
  | .lineResponseReceive port r => Sys2Proof.Machine.execLineResponseReceive port r s
  | .lineTimeout txn => Sys2Proof.Machine.execLineTimeout txn s
  | .epochWaitReplay txn => Sys2Proof.Machine.execEpochWaitReplay txn s
  | .gatewayBusyReplay txn => Sys2Proof.Machine.execGatewayBusyReplay txn s
  | .portBringup node id => Sys2Proof.Machine.execPortBringup node id s
  | .mapBegin epoch idBytes extBytes gwBytes => Sys2Proof.Machine.execMapBegin epoch idBytes extBytes gwBytes s
  | .mapData offset data => Sys2Proof.Machine.execMapData offset data s
  | .mapCommit epoch crc => Sys2Proof.Machine.execMapCommit epoch crc s
  | .mapAckSend => Sys2Proof.Machine.execMapAckSend s
  | .ckptNotice => Sys2Proof.Machine.execCkptNotice s
  | .bulkPacketSend node => Sys2Proof.Machine.execBulkPacketSend node s
  | .bulkPacketReceive port p => Sys2Proof.Machine.execBulkPacketReceive port p s
  | .bulkAckReceive port a => Sys2Proof.Machine.execBulkAckReceive port a s
  | .flushSend node => Sys2Proof.Machine.execFlushSend node s
  | .placedSend node => Sys2Proof.Machine.execPlacedSend node s
  | .bulkPlacedReceive port a => Sys2Proof.Machine.execBulkPlacedReceive port a s
  | .bulkRetxTimeout node seq offset => Sys2Proof.Machine.execBulkRetxTimeout node seq offset s
  | .bulkMessageHorizon node seq => Sys2Proof.Machine.execBulkMessageHorizon node seq s
  | .getDataSend node seq => Sys2Proof.Machine.execGetDataSend node seq s
  | .getTimeout node seq => Sys2Proof.Machine.execGetTimeout node seq s
  | .lwRecordDiscard node => Sys2Proof.Machine.execLwRecordDiscard node s
  | .gatewayRelay port p waitNs => Sys2Proof.Machine.execGatewayRelay port p waitNs s
  | .gatewayRelayDrop port p => Sys2Proof.Machine.execGatewayRelayDrop port p s
  | .gwBatchClose far => Sys2Proof.Machine.execGwBatchClose far s
  | .keyxReceive port k => Sys2Proof.Machine.execKeyxReceive port k s
  | .quarantineEnd node first => Sys2Proof.Machine.execQuarantineEnd node first s
  | .ringBufferRelease step => Sys2Proof.Machine.execRingBufferRelease step s
  | .siteLinkBringup widths => Sys2Proof.Machine.execSiteLinkBringup widths s
  | .siteBringupRetry => Sys2Proof.Machine.execSiteBringupRetry s
  | .ucieFlitReplay module_ => Sys2Proof.Machine.execUcieFlitReplay module_ s
  | .siteRegisterWrite offset data => Sys2Proof.Machine.execSiteRegisterWrite offset data s
  | .doorbellSqTail ring tail => Sys2Proof.Machine.execDoorbellSqTail ring tail s
  | .doorbellCqHead qp head => Sys2Proof.Machine.execDoorbellCqHead qp head s
  | .qpEnable qp => Sys2Proof.Machine.execQpEnable qp s
  | .qpDisable qp => Sys2Proof.Machine.execQpDisable qp s
  | .rdyPendRead rd => Sys2Proof.Machine.execRdyPendRead rd s
  | .completionSpillWrite qp => Sys2Proof.Machine.execCompletionSpillWrite qp s
  | .ident m => Sys2Proof.Machine.execIdent m s
  | .read m items => Sys2Proof.Machine.execRead m items s
  | .write m items => Sys2Proof.Machine.execWrite m items s
  | .claim m key => Sys2Proof.Machine.execClaim m key s
  | .imgData m kind offset data => Sys2Proof.Machine.execImgData m kind offset data s
  | .imageVerified kind => Sys2Proof.Machine.execImageVerified kind s
  | .imgActivate m kind => Sys2Proof.Machine.execImgActivate m kind s
  | .activationDone => Sys2Proof.Machine.execActivationDone s
  | .activationDrainExpiry => Sys2Proof.Machine.execActivationDrainExpiry s
  | .imgDiscard m kind => Sys2Proof.Machine.execImgDiscard m kind s
  | .imgCommit m value => Sys2Proof.Machine.execImgCommit m value s
  | .mgmtStop m => Sys2Proof.Machine.execMgmtStop m s
  | .mgmtStart m => Sys2Proof.Machine.execMgmtStart m s
  | .mgmtService m => Sys2Proof.Machine.execMgmtService m s
  | .mgmtLeaveService m => Sys2Proof.Machine.execMgmtLeaveService m s
  | .ctxEnable m ctx value => Sys2Proof.Machine.execCtxEnable m ctx value s
  | .quoteNonce m nonce => Sys2Proof.Machine.execQuoteNonce m nonce s
  | .joinOut m ctx peerId peerCtx armed => Sys2Proof.Machine.execJoinOut m ctx peerId peerCtx armed s
  | .ckptCheckpoint m ctx => Sys2Proof.Machine.execCkptCheckpoint m ctx s
  | .ckptRestore m ctx => Sys2Proof.Machine.execCkptRestore m ctx s
  | .ckptAbort m ctx => Sys2Proof.Machine.execCkptAbort m ctx s
  | .cutInstant ctx => Sys2Proof.Machine.execCutInstant ctx s
  | .ckptHoldExpiry ctx => Sys2Proof.Machine.execCkptHoldExpiry ctx s
  | .cutComplete ctx => Sys2Proof.Machine.execCutComplete ctx s
  | .cbwRelease ctx frame => Sys2Proof.Machine.execCbwRelease ctx frame s
  | .powerCapW m watts => Sys2Proof.Machine.execPowerCapW m watts s
  | .hostVset m mv => Sys2Proof.Machine.execHostVset m mv s
  | .fenceDie m die => Sys2Proof.Machine.execFenceDie m die s
  | .fatalClear m value => Sys2Proof.Machine.execFatalClear m value s
  | .deviceReset m => Sys2Proof.Machine.execDeviceReset m s
  | .plinthPartialReset m => Sys2Proof.Machine.execPlinthPartialReset m s
  | .diePartialReset m die => Sys2Proof.Machine.execDiePartialReset m die s
  | .portPartialReset m port => Sys2Proof.Machine.execPortPartialReset m port s
  | .plinthResetEnding => Sys2Proof.Machine.execPlinthResetEnding s
  | .plinthResetPhase3 => Sys2Proof.Machine.execPlinthResetPhase3 s
  | .plinthResetRelease => Sys2Proof.Machine.execPlinthResetRelease s
  | .dieResetRelease die => Sys2Proof.Machine.execDieResetRelease die s
  | .dieResetTimeout die => Sys2Proof.Machine.execDieResetTimeout die s
  | .powerOn mv phySel claimClr rstLow => Sys2Proof.Machine.execPowerOn mv phySel claimClr rstLow s
  | .startUpComplete badStacks failedRow => Sys2Proof.Machine.execStartUpComplete badStacks failedRow s
  | .supplyLevelChange mv => Sys2Proof.Machine.execSupplyLevelChange mv s
  | .supplyWarningClear => Sys2Proof.Machine.execSupplyWarningClear s
  | .hostRailFault => Sys2Proof.Machine.execHostRailFault s
  | .sensorRead temps => Sys2Proof.Machine.execSensorRead temps s
  | .rootLockLoss => Sys2Proof.Machine.execRootLockLoss s
  | .rstNAssert => Sys2Proof.Machine.execRstNAssert s
  | .rstNRelease => Sys2Proof.Machine.execRstNRelease s
  | .serviceDegradedClear => Sys2Proof.Machine.execServiceDegradedClear s
  | .unlistedOpcode core op => Sys2Proof.Machine.execUnlistedOpcode core op s
  | .unknownCommandEntry sq typ => Sys2Proof.Machine.execUnknownCommandEntry sq typ s
  | .portLaneLoss port lanes => Sys2Proof.Machine.execPortLaneLoss port lanes s
  | .portTrainingDone port width => Sys2Proof.Machine.execPortTrainingDone port width s
  | .ucieRetrainDone module_ width => Sys2Proof.Machine.execUcieRetrainDone module_ width s
  | .memoryIslandFailure die => Sys2Proof.Machine.execMemoryIslandFailure die s
  | .dieSequencerOrRailFault die rail => Sys2Proof.Machine.execDieSequencerOrRailFault die rail s

end Sys2Proof.Machine
end

