-- ==== Sys2Proof/Machine/Upsets.lean ====
section
/-! DEFINITION. Errors that no command brings (16 R443, R475): HBM lines that fail, SRAM and mortar errors, the security controller's
self-check. What fails, and when, is a free value (log entry 68). -/

namespace Sys2Proof.Machine

/-- A kind of error and two free numbers that say where it falls; numbers above 13 are nothing. -/
abbrev Upset := Nat × Nat × Nat

/-- A corrected error of an SRAM (code 0x0006): row of SRAM_CE, and the unit's SOURCE, UNIT and ADDR. -/
def State.sramCe (s : State) (row source unit addr : Nat) : State :=
  (s.count 0x9002 2 row).record { sev := 0, code := 0x0006, source := source, unit := unit, addr := addr }

/-- A core that runs a step reads an SRAM word that fails (code 0x0007): its step ends with ST_SRAM_UE, and the event counts toward
fencing. -/
def State.sramUe (s : State) (k : Nat) (c : Core) (source unit addr : Nat) : State :=
  let ctx := ((s.running c.step).map Step.ctx).getD 0xFF
  ((s.record { sev := 2, code := 0x0007, source := source, unit := unit, status := stSramUe, ctx := ctx, addr := addr }).coreFault
    c stSramUe).dieFault (k / 256)

/-- The running core of least number among `l`. -/
def State.firstRunning (s : State) (l : List Nat) : Option (Nat × Core) :=
  l.findSome? fun k => ((s.core k).filter fun c => (s.running c.step).isSome).map fun c => (k, c)

/-- A word that one of the cores `l` reads fails; where none runs, nothing reads it. -/
def State.sramUeAt (s : State) (l : List Nat) (source unit addr : Nat) : State :=
  match s.firstRunning l with
  | some (k, c) => s.sramUe k c source unit addr
  | none => s

/-- The record of an image block that fails (code 0x0009). -/
def imageRec (ctx addr : Nat) : ErrIn :=
  { sev := 2, code := 0x0009, source := 0x07, unit := 1, status := stSramUe, ctx := ctx, addr := addr }

/-- A block of the `i`-th vocabulary image fails: it is marked damaged until it is loaded again. -/
def State.vocUe (s : State) (i addr : Nat) : State :=
  match s.txt.vocabs[i % max 1 s.txt.vocabs.length]? with
  | some (k, v) => (s.record (imageRec (k / 16) addr)).modTxt fun g => { g with vocabs := tblIns g.vocabs k { v with damaged := true } }
  | none => s

/-- A block of the `i`-th grammar image fails. -/
def State.gramUe (s : State) (i addr : Nat) : State :=
  match s.txt.grammars[i % max 1 s.txt.grammars.length]? with
  | some (k, v) => (s.record (imageRec (k / 64) addr)).modTxt fun g => { g with grammars := tblIns g.grammars k { v with damaged := true } }
  | none => s

/-- What has failed takes effect. -/
def State.upsetAct (s : State) : Upset → State
  | (0, a, _) => s.modErr fun g => { g with failed := tblIns g.failed (a % hbmLines) () }
  | (1, a, _) => s.hbmCe (a % hbmLines)
  | (2, a, b) => s.sramCe (a % 1024 / 256) 0x02 (a % 1024) b
  | (3, a, b) => s.sramCe (a % 64 / 16) 0x03 (a % 64) b
  | (4, a, _) => s.sramCe (a % 4) 0x05 (a % 4) 0
  | (5, a, b) => s.sramCe 4 0x07 (a % 4) b
  | (6, a, b) => s.sramUeAt [a % 1024] 0x02 (a % 1024) b
  | (7, a, b) => s.sramUeAt ((List.range 16).map (16 * (a % 64) + ·)) 0x03 (a % 64) b
  | (8, a, _) => s.sramUeAt ((List.range 256).map (256 * (a % 4) + ·)) 0x05 (a % 4) 0
  | (9, a, b) => if b % 2 = 0 then s.vocUe a (b / 2) else s.gramUe a (b / 2)
  | (10, a, b) => s.modSite fun g => { g with badEntries := tblIns g.badEntries (a % 65 * 512 + b % 512) () }
  | (11, a, b) => s.fatal 0x000B 0x07 (a % 4) b
  | (12, a, _) => (s.count 0x9002 3 (a % 4)).record { sev := 0, code := 0x000C, source := 0x06, unit := a % 4 }
  | (13, a, _) => if a % 5 = 4 then s.fatal 0x0016 0x0E 0 0 else s.fatal 0x000D 0x06 (a % 5) 0
  | _ => s

/-- What was drawn in the last cycle fails now, and what fails in the next one is drawn. -/
def State.upsets (s : State) : State :=
  let t := match s.err.upset with | some u => s.upsetAct u | none => s
  let r := t.take1
  r.2.modErr fun g => { g with upset := Config.upset r.1 }

/-- A submission entry that an error has damaged comes to the head of its ring (code 0x000A): it is rejected with ST_SRAM_UE in its
pair's completion ring, that of the KEYSTONE ring in FALLBACK_CQ. What is read of it is a free value (log entry 68). -/
def State.rejectBad (s : State) (sq : Nat) : State :=
  let q := if sq = 64 then s.site.ks.fallback else sq
  if !(s.headBad sq && s.taking && (s.qp q).room (sq == 64)) then s
  else
    let r := s.take1
    let t := (r.2.takeEntry sq q).record { sev := 2, code := 0x000A, source := 0x07, unit := 2, status := stSramUe, ctx := s.qctx q,
                                           addr := ringOff sq - 0x100000 + 128 * s.sqHeadOf sq }
    match decodeEntry (Config.reading r.1) with
    | .step d => t.stepEntry sq q (s.qctx q) d stSramUe 0 0 none (t.sqHeadOf sq)
    | .cmd h c => t.cmdDone sq q (s.qctx q) (t.sqHeadOf sq) h.tag (cmdCode c) stSramUe 0
    | .unknown c h => t.cmdDone sq q (s.qctx q) (t.sqHeadOf sq) h.tag c stSramUe 0

/-- Damaged entries at the heads of their rings are rejected. -/
def State.rejectsBad (s : State) : State := if s.site.badEntries.isEmpty then s else s.each (List.range 65) State.rejectBad

end Sys2Proof.Machine
end

