-- ==== Sys2Proof/Machine/Tick.lean ====
section
/-! DEFINITION. One cycle of NCLK, which a step on an empty queue is (DESIGN CHOICE, log entry 4): the counters advance, and what the
device does by itself without a row of its own happens: posts leave (03 R95), running steps count cycles (R100; 10 R297),
ring members send (04 R124), an activation goes on (14 R409), checkpoint trigger 1 (13 R371), and what fails of itself (16 R443). -/

namespace Sys2Proof.Machine

/-- The core has an outstanding request for a page that was not resident at admission, past its bound (03 R100). -/
def Core.lateAbsent (c : Core) (t : Nat) : Bool := c.queue.any fun r => r.absent && decide (r.bound < t)

/-- The oldest request of the core is a write held by the cut (13 R376, R377). -/
def State.writeHeld (s : State) (ctx : Nat) (c : Core) : Bool :=
  match c.queue.head? with
  | some r => r.kind == .wr && (s.uncopied ctx r.caddr r.len).any fun f => (tblFind s.cks.held f).isSome
  | none => false

/-- The core waits for its stream requests: a WAIT on a stream count, a full queue, a PPOINT. -/
def Core.awaitsStream (c : Core) : Bool :=
  match c.ph with
  | .waiting f _ => f.sel == 1
  | .strFull | .atPpoint _ => true
  | _ => false

/-- The core is held on arrival (03 R100). -/
def Core.onArrival (c : Core) (t : Nat) : Bool := c.ph == .apndHold || (c.awaitsStream && c.lateAbsent t)

/-- A running step as a cycle of ACLK ends: the cycle counts for R100, where the program had started, and for R297, or is
excluded (R100; 13 R377): where a core, or the end of the step when every core has reached END, waits for a write that a cut holds. -/
def State.cycleStep (s : State) (p : Step) : Step :=
  if p.ph != .running then p
  else
    let cs := s.cores p
    let done := cs.all fun e => e.2.ph == .ended
    let cut := cs.any fun e => (e.2.awaitsStream || done) && s.writeHeld p.ctx e.2
    let arr := cs.any fun e => e.2.onArrival s.aclk
    { p with executed := if cut || arr || s.aclk ≤ p.started then p.executed else p.executed + 1,
             gap := if cut then p.gap else p.gap + 1 }

/-- The oldest unsent post of each step is sent (03 R95). -/
def State.sendPosts (s : State) : State :=
  s.each s.run.steps fun t e => match e.2.posts with
    | [] => t
    | q :: l => (t.updStp e.1 fun p => { p with posts := l }).sendPost e.2 q

/-- The ring members among the running steps send what they can (04 R124). -/
def State.pumpRings (s : State) : State :=
  s.each (s.run.steps.filter fun e => e.2.ring.isSome && e.2.ph == .running) fun t e => (t.ringPump e.1 ringBatch).finish e.1

/-- Checkpoint trigger 1: corrected errors above the limit within 0.1 s (13 R371). -/
def State.ceTrigger (s : State) : State :=
  if s.obj 0x8004 1 < s.err.trigCe.length then (s.ckptWarn 1).modErr fun g => { g with trigCe := [] } else s

/-- The busy time of the page movers is kept (06 R195). -/
def State.noteMovers (s : State) : State :=
  s.modSes fun g => { g with meters := (List.range 16).foldl (fun m i =>
    tblPut ⟨none, []⟩ m i ((tblGet ⟨none, []⟩ m i).note s.dev.nclk (tblFind g.movers i).isSome)) g.meters }

/-- What the ports do of themselves: what waited in a buffer is taken, late relays are discarded, credits and acknowledgments go back
(07 R201-R206; 08 R254; 12 R349). -/
def State.fabricTick (s : State) : State := ((((s.inDrain).bulkDrain).dropLate).takeMgt).keyxOut.refreshPorts.idleFrames

/-- A park that waits for nothing more, its last pages having been pinned, is placed (05 R139; 06 R173). -/
def State.parksPlaced (s : State) : State := s.each s.ses.tbl fun t e => t.parkCheck e.1

/-- Pages that a session in use lands again are requested (16 R446). -/
def State.relands (s : State) : State :=
  s.each s.ses.tbl fun t e =>
    if !e.2.reland.isEmpty && e.2.pdir.isSome && !e.2.move.suspended && decide (e.2.state ∈ [.idle, .active]) then t.requestPages e.1 else t

/-- Expiries that fall after an arrival has settled their operation are counted (11 R332). -/
def State.lateDue (s : State) : State :=
  let n := ((s.fab.expiries ++ s.bulk.expiries).filter s.past).length
  if n = 0 then s
  else ((s.modFab fun g => { g with expiries := g.expiries.filter fun d => !s.past d }).modBulk fun g => { g with
    expiries := g.expiries.filter fun d => !s.past d }).modSite fun g => { g with late := (g.late + n) % 2 ^ 64 }

/-- What happens of itself in one cycle of NCLK. -/
def State.background (s : State) : State :=
  let s1 := if s.dev.nclk % 2 = 0 then (s.modRun fun g => { g with steps := tblMap g.steps fun _ p => s.cycleStep p }).endFailed else s
  ((((((s1.sendPosts.pumpRings).fabricTick).parksPlaced).relands.lateDue.noteMovers).laneTick).actStep).ceTrigger.rejectsBad.upsets

/-- One cycle of NCLK: nothing advances before root lock; after a FATAL error the counters alone do (16 R453). -/
def State.cycle (s : State) : State :=
  if !s.dev.locked then s
  else
    let w := if s.live then s.modRun fun g => { g with steps := tblMap g.steps fun n p => s.timeWaits n p } else s
    let t := w.modDev fun d => { d with nclk := d.nclk + 1 }
    if t.live then t.background else t

end Sys2Proof.Machine
end

