-- ==== Sys2Proof/Machine/Step.lean ====
section
/-! DEFINITION. One step: the command at the front of the queue, or one cycle of NCLK when none waits (DESIGN CHOICE, log entry 4). -/

namespace Sys2Proof.Machine

/-- The machine with the rest of its queue. -/
def State.withPending (s : State) (l : List Instr) : State := { s with pending := l }

/-- One step of the block. -/
def step (s : State) : Host.Outcome State Fault Refusal :=
  match s.pending with
  | [] => .next s.cycle
  | c :: l => exec c (s.withPending l)

/-- The command that a word of the table spells goes to the front of the queue. No row of the table gives bits. -/
def State.withFetchWord (s : State) (nbits w : Nat) : State :=
  match decodeTableWord nbits w with
  | some c => s.withPending (c :: s.pending)
  | none => s

end Sys2Proof.Machine
end

