-- ==== Sys2Proof/WellFormed.lean ====
section
/-! DEFINITION. A command is well formed when every unit it names exists: cores (01_architecture.md R20), submission rings
with 64 for the KEYSTONE queue (11_host_site.md R319, R321), page movers (01_architecture.md), Octica ports (07 R200), UCIe modules
(11 R312), dies (01 R19), image kinds (14 R401) and HBM lines (01 R25). A command that is not well formed changes nothing (DESIGN
CHOICE, log entry 6). -/

namespace Sys2Proof

def Instr.wf : Instr → Bool
  | .nop core => decide (core < 1024)
  | .setp core _ => decide (core < 1024)
  | .addp core _ => decide (core < 1024)
  | .setc core _ => decide (core < 1024)
  | .ldc core _ => decide (core < 1024)
  | .setk core _ => decide (core < 1024)
  | .loop core _ => decide (core < 1024)
  | .brc core _ => decide (core < 1024)
  | .jmp core _ => decide (core < 1024)
  | .endProg core => decide (core < 1024)
  | .engMm _ _ _ => true
  | .engAts _ _ _ => true
  | .engAtv _ _ _ => true
  | .vec core _ => decide (core < 1024)
  | .cvt core _ => decide (core < 1024)
  | .dmaLs core _ => decide (core < 1024)
  | .dmaCs core _ => decide (core < 1024)
  | .strRd core _ => decide (core < 1024)
  | .strWr core _ => decide (core < 1024)
  | .strSpread core _ => decide (core < 1024)
  | .strPage core _ => decide (core < 1024)
  | .streamRequestComplete core _ => decide (core < 1024)
  | .put core _ => decide (core < 1024)
  | .addput core _ => decide (core < 1024)
  | .signal core _ => decide (core < 1024)
  | .messageDeliver _ _ _ => true
  | .signalApply _ _ _ => true
  | .wait core _ => decide (core < 1024)
  | .waitMet core => decide (core < 1024)
  | .waitBoundExpiry core => decide (core < 1024)
  | .get core _ => decide (core < 1024)
  | .atom core _ => decide (core < 1024)
  | .barrier core => decide (core < 1024)
  | .barrierRelease _ => true
  | .ppoint core _ => decide (core < 1024)
  | .ppointRelease _ => true
  | .courseRealign _ => true
  | .apndWrite core _ => decide (core < 1024)
  | .apndArm core _ => decide (core < 1024)
  | .post core _ => decide (core < 1024)
  | .wcetOverrun _ => true
  | .stepDeadline _ => true
  | .streamStall _ => true
  | .ppGapExpiry _ => true
  | .stepDescriptor sq _ => decide (sq ≤ 64)
  | .stepDispatch _ => true
  | .courseRestoreDone _ => true
  | .periodicRelease _ _ => true
  | .tokenRefill => true
  | .keystoneArm sq _ _ => decide (sq ≤ 64)
  | .keystoneDisarm sq _ => decide (sq ≤ 64)
  | .keystoneArmExpiry _ => true
  | .sessionCreate sq _ _ _ _ _ => decide (sq ≤ 64)
  | .sessionDrop sq _ _ => decide (sq ≤ 64)
  | .sessionTruncate sq _ _ _ => decide (sq ≤ 64)
  | .sessionRelease sq _ _ => decide (sq ≤ 64)
  | .sessionPin sq _ _ _ _ _ => decide (sq ≤ 64)
  | .sessionQuery sq _ _ _ => decide (sq ≤ 64)
  | .bindInstall sq _ _ _ => decide (sq ≤ 64)
  | .bindRemove sq _ _ => decide (sq ≤ 64)
  | .adapterInstall sq _ _ _ => decide (sq ≤ 64)
  | .adapterRemove sq _ _ => decide (sq ≤ 64)
  | .park sq _ _ _ _ _ _ _ _ => decide (sq ≤ 64)
  | .parkPendStart _ => true
  | .revive sq _ _ _ => decide (sq ≤ 64)
  | .reviveHint sq _ _ _ => decide (sq ≤ 64)
  | .hintLapse _ => true
  | .ttlSet sq _ _ _ _ => decide (sq ≤ 64)
  | .ttlExpiry _ => true
  | .pageMoverStart mover _ => decide (mover < 16)
  | .pageLand mover => decide (mover < 16)
  | .migrate sq _ _ _ _ => decide (sq ≤ 64)
  | .migrateIn sq _ _ _ _ _ => decide (sq ≤ 64)
  | .migrateInCancel sq _ _ _ _ _ => decide (sq ≤ 64)
  | .offer _ => true
  | .accept _ => true
  | .refuse _ _ => true
  | .ready _ => true
  | .release _ => true
  | .abort _ => true
  | .migrateReadyTimeout _ => true
  | .migratePeerTimeout _ => true
  | .leaseSet sq _ _ _ _ => decide (sq ≤ 64)
  | .leaseClear sq _ _ => decide (sq ≤ 64)
  | .leaseLost sq _ _ => decide (sq ≤ 64)
  | .lossSweep _ => true
  | .frameScrub _ => true
  | .patrolRead line _ => decide (line < 4 * 98304 * 32768)
  | .vocabLoad sq _ _ _ _ => decide (sq ≤ 64)
  | .vocabRemove sq _ _ => decide (sq ≤ 64)
  | .stopsetSet sq _ _ _ _ _ => decide (sq ≤ 64)
  | .streamOpen sq _ _ _ _ _ _ => decide (sq ≤ 64)
  | .streamClose sq _ _ => decide (sq ≤ 64)
  | .tokenize sq _ _ _ _ _ _ _ => decide (sq ≤ 64)
  | .tokenizeDone _ => true
  | .tokenEvent _ => true
  | .grammarLoad sq _ _ _ => decide (sq ≤ 64)
  | .grammarRemove sq _ _ => decide (sq ≤ 64)
  | .grammarBind sq _ _ _ _ _ => decide (sq ≤ 64)
  | .grammarUnbind sq _ _ => decide (sq ≤ 64)
  | .regionSet sq _ _ _ => decide (sq ≤ 64)
  | .regionClear sq _ _ => decide (sq ≤ 64)
  | .regionClearDone _ => true
  | .linkFrameReceive port _ => decide (port < 18)
  | .lineRequestSend _ => true
  | .lineRequestReceive port _ => decide (port < 18)
  | .lineResponseReceive port _ => decide (port < 18)
  | .lineTimeout _ => true
  | .epochWaitReplay _ => true
  | .gatewayBusyReplay _ => true
  | .portBringup _ _ => true
  | .mapBegin _ _ _ _ => true
  | .mapData _ _ => true
  | .mapCommit _ _ => true
  | .mapAckSend => true
  | .ckptNotice => true
  | .bulkPacketSend _ => true
  | .bulkPacketReceive port _ => decide (port < 18)
  | .bulkAckReceive port _ => decide (port < 18)
  | .flushSend _ => true
  | .placedSend _ => true
  | .bulkPlacedReceive port _ => decide (port < 18)
  | .bulkRetxTimeout _ _ _ => true
  | .bulkMessageHorizon _ _ => true
  | .getDataSend _ _ => true
  | .getTimeout _ _ => true
  | .lwRecordDiscard _ => true
  | .gatewayRelay port _ _ => decide (port < 18)
  | .gatewayRelayDrop port _ => decide (port < 18)
  | .gwBatchClose _ => true
  | .keyxReceive port _ => decide (port < 18)
  | .quarantineEnd _ _ => true
  | .ringBufferRelease _ => true
  | .siteLinkBringup _ => true
  | .siteBringupRetry => true
  | .ucieFlitReplay module_ => decide (module_ < 4)
  | .siteRegisterWrite x _ => decide (x.hdr.module_ < 4)
  | .doorbellSqTail x _ => decide (x.hdr.module_ < 4) && decide (x.n ≤ 64)
  | .doorbellCqHead x _ => decide (x.hdr.module_ < 4) && decide (x.n < 64)
  | .qpEnable x => decide (x.hdr.module_ < 4) && decide (x.n < 64)
  | .qpDisable x => decide (x.hdr.module_ < 4) && decide (x.n < 64)
  | .rdyPendRead x => decide (x.hdr.module_ < 4)
  | .completionSpillWrite qp => decide (qp < 64)
  | .ident _ => true
  | .read _ _ => true
  | .write _ _ => true
  | .claim _ _ => true
  | .imgData _ _ _ _ => true
  | .imageVerified kind => decide (kind < 5)
  | .imgActivate _ _ => true
  | .activationDone => true
  | .activationDrainExpiry => true
  | .imgDiscard _ _ => true
  | .imgCommit _ _ => true
  | .mgmtStop _ => true
  | .mgmtStart _ => true
  | .mgmtService _ => true
  | .mgmtLeaveService _ => true
  | .ctxEnable _ _ _ => true
  | .quoteNonce _ _ => true
  | .joinOut _ _ _ _ _ => true
  | .ckptCheckpoint _ _ => true
  | .ckptRestore _ _ => true
  | .ckptAbort _ _ => true
  | .cutInstant _ => true
  | .ckptHoldExpiry _ => true
  | .cutComplete _ => true
  | .cbwRelease _ _ => true
  | .powerCapW _ _ => true
  | .hostVset _ _ => true
  | .fenceDie _ _ => true
  | .fatalClear _ _ => true
  | .deviceReset _ => true
  | .plinthPartialReset _ => true
  | .diePartialReset _ die => decide (die < 4)
  | .portPartialReset _ port => decide (port < 18)
  | .plinthResetEnding => true
  | .plinthResetPhase3 => true
  | .plinthResetRelease => true
  | .dieResetRelease die => decide (die < 4)
  | .dieResetTimeout die => decide (die < 4)
  | .powerOn _ _ _ _ => true
  | .startUpComplete _ _ => true
  | .supplyLevelChange _ => true
  | .supplyWarningClear => true
  | .hostRailFault => true
  | .sensorRead _ => true
  | .rootLockLoss => true
  | .rstNAssert => true
  | .rstNRelease => true
  | .serviceDegradedClear => true
  | .unlistedOpcode core _ => decide (core < 1024)
  | .unknownCommandEntry sq _ => decide (sq ≤ 64)
  | .portLaneLoss port _ => decide (port < 18)
  | .portTrainingDone port _ => decide (port < 18)
  | .ucieRetrainDone module_ _ => decide (module_ < 4)
  | .memoryIslandFailure die => decide (die < 4)
  | .dieSequencerOrRailFault die _ => decide (die < 4)

end Sys2Proof
end

