-- ==== Sys2Proof/Safety.lean ====
section
/-! DEFINITION. What counts as a safe run: every step goes on, and every state keeps its memories in canonical form and its
unit lists at the device's numbers. -/

namespace Sys2Proof.Machine

/-- The memories are in canonical form: HBM frames, context memory, submission and completion rings. -/
def State.memOk (s : State) : Bool := memWf s.ses.hbm && memWf s.ses.cmem && memWf s.site.rings && memWf s.site.cqMem

/-- The device has 64 queue pairs (11 R319), 4 UCIe modules (R312), 18 ports (07 R200), 4 dies, 12 stacks and 17
sensors (15 R429). -/
def State.unitsOk (s : State) : Bool :=
  s.site.qps.length == 64 && s.site.modules.length == 4 && s.fab.ports.length == 18 && s.dev.dies.length == 4
    && s.dev.hbmSt.length == 12 && s.dev.temps.length == 17

/-- The step goes on, to a state that keeps both. -/
def safeStep (s t : State) : Prop := step s = .next t ∧ t.memOk = true ∧ t.unitsOk = true

/-- Every waiting command names units the device has; one that names another changes nothing (DESIGN CHOICE, log entry 6). -/
def State.queueWf (s : State) : Bool := s.pending.all Instr.wf

/-- `k` steps run safely. -/
def safeRun : Nat → State → Prop
  | 0, _ => True
  | k + 1, s => ∃ t, safeStep s t ∧ safeRun k t

end Sys2Proof.Machine
end

