-- ==== Sys2Proof/Certificates/Slice0/Obligations.lean ====
section
/-! DEFINITION. The statements for the provers, and the small predicates they are written with. -/

namespace Sys2Proof.Machine

/-- Core `k` of the running step `p` stands at instruction `i`, may execute it now, and `i` is not the program's last. -/
abbrev AtCore (s : State) (k : Nat) (i : Isn) (c : Core) (p : Step) : Prop :=
  s.atIsn k i = some (c, p) ∧ c.ip + 1 < c.istore.length

/-- Core `k` holds `c`, moved on by one instruction that costs `cost` cycles; nothing else differs from `s`. -/
def retired (s : State) (k : Nat) (c : Core) (cost : Nat) : State :=
  s.setCore k { c with ip := c.ip + 1, busyUntil := s.aclk + cost, ph := .run }

/-- Core `k` holds `c`, moved to index `target` by a branch of 2 cycles. -/
def branched (s : State) (k : Nat) (c : Core) (target : Nat) : State :=
  s.setCore k { c with ip := target, busyUntil := s.aclk + 2, ph := .run }

/-- Core `c` fails with `st` at its instruction index: it issues nothing more, and its step ends as the cycle does (03 R98). -/
def stopped (s : State) (c : Core) (st : Nat) : State := s.stepFail c.step c.pos c.ip st

/-- `P[r]` plus a signed 32-bit offset, modulo 2^64. -/
def padd (c : Core) (r : BitVec 4) (off : W32) : W64 := c.p.getD r.toNat 0 + off.signExtend 64

/-- Every byte of [a, a+n) of the store reads as `f` says, and every byte outside as before. -/
def storeSet (m m' : Store) (a n : Nat) (f : Nat → Byte) : Prop :=
  (∀ i, i < n → m'.get (a + i) = f i) ∧ ∀ x, x < a ∨ a + n ≤ x → m'.get x = m.get x

end Sys2Proof.Machine

open Sys2Proof Sys2Proof.Machine

/-! ### The block -/

/-- A step with a command at the front of the queue is that command on the rest. -/
def Obligations.StepRunsFrontCommand : Prop :=
  ∀ (c : Instr) (l : List Instr) (s : State), step (s.withPending (c :: l)) = exec c (s.withPending l)

/-- On an empty queue a step is one cycle of NCLK (the model's choice, DESIGN CHOICE, log entry 4): before root lock nothing changes,
after it the cycle count rises by one and, unless a FATAL error stopped the device, what happens of itself follows. -/
def Obligations.EmptyQueueAdvancesTheClock : Prop :=
  ∀ s : State, s.pending = [] →
    step s = .next s.cycle
    ∧ (s.dev.locked = false → step s = .next s)
    ∧ (s.dev.locked = true → s.dev.siteFatal = true → step s = .next (s.modDev fun d => { d with nclk := d.nclk + 1 }))

/-- No command stops the run: whatever it names, and in every state, it has an outcome that goes on. A command whose subject is absent (a
core with no course, a ring with no such entry) changes nothing (DESIGN CHOICE, log entry 6). -/
def Obligations.EveryCommandGoesOn : Prop :=
  ∀ (i : Instr) (s : State), ∃ t, exec i s = .next t

/-! ### Core instructions (03) -/

/-- 03 R74 (its instruction table): NOP, SETP, ADDP, SETC and SETK write what they name and cost one cycle. Completes: NOP, SETP, ADDP, SETC, SETK. -/
def Obligations.PointerAndCounterWrites : Prop :=
  ∀ (s : State) (k : Nat) (f : FmtC) (c : Core) (p : Step),
    (AtCore s k .nop c p → exec (.nop k) s = .next (retired s k c 1))
    ∧ (AtCore s k (.setp f) c p → exec (.setp k f) s = .next (retired s k { c with p := c.p.set f.dst.toNat f.imm64 } 1))
    ∧ (AtCore s k (.addp f) c p →
        exec (.addp k f) s = .next (retired s k { c with p := c.p.set f.dst.toNat (padd c f.src f.imm32) } 1))
    ∧ (AtCore s k (.setc f) c p → f.dst.toNat < 8 →
        exec (.setc k f) s = .next (retired s k { c with c := c.c.set f.dst.toNat f.imm32 } 1))
    ∧ (AtCore s k (.setk f) c p → f.dst.toNat < 4 →
        exec (.setk k f) s = .next (retired s k { c with k := c.k.set f.dst.toNat f.imm32 } 1))

/-- 03 R74: LDC, LOOP, BRC and JMP. Completes: LDC, LOOP, BRC, JMP. -/
def Obligations.CountersAndBranches : Prop :=
  ∀ (s : State) (k : Nat) (f : FmtC) (c : Core) (p : Step),
    (∀ a, AtCore s k (.ldc f) c p → f.dst.toNat < 8 → a = (c.p.getD f.src.toNat 0 + (f.imm64.setWidth 21).setWidth 64).toNat →
        a % 64 = 0 → a + 4 ≤ 0x180000 → leNat (c.ls.read a 4) ≤ f.imm32.toNat →
        exec (.ldc k f) s = .next (retired s k { c with c := c.c.set f.dst.toNat (BitVec.ofNat 32 (leNat (c.ls.read a 4))) } 4))
    ∧ (∀ v, AtCore s k (.loop f) c p → f.dst.toNat < 8 → v = c.c.getD f.dst.toNat 0 - 1 → v = 0 →
        exec (.loop k f) s = .next (retired s k { c with c := c.c.set f.dst.toNat v } 2))
    ∧ (∀ v, AtCore s k (.loop f) c p → f.dst.toNat < 8 → v = c.c.getD f.dst.toNat 0 - 1 → v ≠ 0 →
        f.imm64.toNat % 2048 < c.istore.length →
        exec (.loop k f) s = .next (branched s k { c with c := c.c.set f.dst.toNat v } (f.imm64.toNat % 2048)))
    ∧ (∀ b, AtCore s k (.brc f) c p → f.dst.toNat < 8 → cmpOf f.cmp (c.c.getD f.dst.toNat 0) f.imm32 = some b →
        f.imm64.toNat % 2048 < c.istore.length →
        exec (.brc k f) s = .next (if b then branched s k c (f.imm64.toNat % 2048) else retired s k c 2))
    ∧ (AtCore s k (.jmp f) c p → f.imm64.toNat % 2048 < c.istore.length →
        exec (.jmp k f) s = .next (branched s k c (f.imm64.toNat % 2048)))

/-- 03 R74, R72, R101's codes: a counter or key register that does not exist, a reserved comparison, a counter above its
maximum, a branch at or beyond PROG_LEN, and an opcode that is not listed end the step. -/
def Sys2Proof.Parts.SequencerFaults : Prop :=
  ∀ (s : State) (k : Nat) (f : FmtC) (c : Core) (p : Step) (op : BitVec 8),
    (AtCore s k (.unlisted op) c p → exec (.unlistedOpcode k op) s = .next (stopped s c stInstr))
    ∧ (AtCore s k (.setc f) c p → 8 ≤ f.dst.toNat → exec (.setc k f) s = .next (stopped s c stInstr))
    ∧ (AtCore s k (.setk f) c p → 4 ≤ f.dst.toNat → exec (.setk k f) s = .next (stopped s c stInstr))
    ∧ (AtCore s k (.brc f) c p → 4 ≤ f.cmp.toNat → exec (.brc k f) s = .next (stopped s c stInstr))
    ∧ (AtCore s k (.jmp f) c p → c.istore.length ≤ f.imm64.toNat % 2048 → exec (.jmp k f) s = .next (stopped s c stInstr))
    ∧ (∀ a, AtCore s k (.ldc f) c p → f.dst.toNat < 8 → a = (c.p.getD f.src.toNat 0 + (f.imm64.setWidth 21).setWidth 64).toNat →
        a % 64 = 0 → a + 4 ≤ 0x180000 → f.imm32.toNat < leNat (c.ls.read a 4) →
        exec (.ldc k f) s = .next (stopped s c stCounterBound))

/-- Running past the last instruction ends the step (03 R72): NOP, SETP and ADDP at the last index. -/
def Sys2Proof.Parts.RunningPastTheEndStops : Prop :=
  ∀ (s : State) (k : Nat) (f : FmtC) (c : Core) (p : Step), c.istore.length ≤ c.ip + 1 →
    (s.atIsn k .nop = some (c, p) → exec (.nop k) s = .next (stopped s c stInstr))
    ∧ (s.atIsn k (.setp f) = some (c, p) → exec (.setp k f) s = .next (stopped s c stInstr))
    ∧ (s.atIsn k (.addp f) = some (c, p) → exec (.addp k f) s = .next (stopped s c stInstr))

/-- 03 R98: a core that fails is noted with its position and index, of several in one cycle of ACLK the lowest position, and stands still;
in the next cycle of ACLK its step ends with that status and place. -/
def Sys2Proof.Parts.FailuresEndTheStep : Prop :=
  ∀ (s : State) (n pos ip st : Nat) (p : Step), tblWf s.run.steps = true → s.stp n = some p →
    (∃ q, (s.stepFail n pos ip st).stp n = some q
      ∧ ((∀ o, p.fail = some o → o.at_ = s.aclk ∧ pos < o.pos) → q.fail = some ⟨st, pos, ip, s.aclk⟩)
      ∧ (∀ o, p.fail = some o → ¬(o.at_ = s.aclk ∧ pos < o.pos) → q.fail = some o))
    ∧ (∀ k c, p.cores[pos]? = some k → tblWf s.run.cores = true → s.core k = some c → c.step = n →
        (s.stepFail n pos ip st).core k = some { c with ph := .failed })
    ∧ (∀ f, s.run.steps = [(n, p)] → p.fail = some f → f.at_ < s.aclk → s.endFailed = s.endStep n f.status (some (f.pos, f.ip)))

/-- 03 R72, R74, R98: what ends a step in the sequencer. The model's choices: a counter register above 7 and a key register above 3 end with
ST_INSTR (DEDUCED, log entry 31); the step is stopped when the last instruction of a program without END retires, and a failure is settled as the
next cycle of ACLK begins (log entry 8). Completes: UNLISTED_OPCODE. -/
def Obligations.SequencerStops : Prop :=
  Sys2Proof.Parts.SequencerFaults ∧ Sys2Proof.Parts.RunningPastTheEndStops ∧ Sys2Proof.Parts.FailuresEndTheStep

/-- The frame of the instructions that act on their own core: a core that has retired or branched differs from before in
nothing but itself: no other core, step, byte of HBM or context memory, queue pair or session. -/
def Obligations.RetiringChangesOnlyItsCore : Prop :=
  ∀ (s t : State) (k : Nat) (c : Core) (n : Nat), t = retired s k c n ∨ t = branched s k c n →
    (∀ j, j ≠ k → t.core j = s.core j) ∧ (t.core k).map (fun x => (x.p, x.c, x.k, x.sg, x.q, x.liens)) = some (c.p, c.c, c.k, c.sg, c.q, c.liens)
    ∧ (∀ m, t.stp m = s.stp m) ∧ (∀ ctx a m, t.cread ctx a m = s.cread ctx a m) ∧ (∀ a, memGet t.ses.hbm a = memGet s.ses.hbm a)
    ∧ (∀ q, t.qp q = s.qp q) ∧ (∀ h, t.sess h = s.sess h) ∧ t.out = s.out ∧ t.pending = s.pending ∧ t.fab = s.fab ∧ t.dev = s.dev

/-- END (03 R74, R69): the core is done; the step ends, with ST_OK or ST_SPARSE_META, once every core is done (and, in a ring, every page it owes has
gone on), and not before. Its outstanding writes perform as it ends (DEDUCED, log entry 41). Completes: END. -/
def Obligations.EndOfAProgram : Prop :=
  (∀ (s : State) (k : Nat) (c : Core) (p : Step) (l : List SyncEv), s.atIsn k .endProg = some (c, p) → s.reach p c .fin = some l →
      exec (.endProg k) s = .next (((s.setCore k { c with ph := .ended, nsync := c.nsync + 1, busyUntil := s.aclk + 1 }).updStp c.step
        fun q => { q with sync := l }).finish c.step))
  ∧ (∀ (s : State) (k : Nat) (c : Core) (p : Step), s.atIsn k .endProg = some (c, p) →
      s.reach p c .fin = none → exec (.endProg k) s = .next (stopped s c stCourseSkew))
  ∧ (∀ (s : State) (n : Nat) (p : Step), s.stp n = some p → p.ph = .running → p.cores ≠ [] → p.ringDone = true → p.fail = none →
      (∀ e ∈ s.cores p, e.2.ph = .ended ∧ ∀ r ∈ e.2.queue, r.kind = .wr → s.uncopied p.ctx r.caddr r.len = []) →
      s.finish n = (((s.cores p).foldl (fun t e => t.performWrites p.ctx e.2) s).setStp n { p with executed := p.executed + 1 }).endStep n
        (if p.sparseBad then stSparseMeta else stOk) none)
  ∧ (∀ (s : State) (n : Nat) (p : Step), s.stp n = some p → (∃ e ∈ s.cores p, e.2.ph ≠ .ended) → s.finish n = s)

/-- DMA.LS (03 R74): the bytes of the source as they stood before are at the destination, every other byte of the local
store reads as before, and nothing outside the core's local store and place in the program differs. -/
def Sys2Proof.Parts.LocalStoreCopy : Prop :=
  ∀ (s : State) (k : Nat) (f : FmtT) (c : Core) (p : Step), AtCore s k (.dmaLs f) c p → memWf c.ls.mem = true →
    let n := f.len.toNat
    let a := (padd c f.ps f.soff).toNat
    let b := (padd c f.pd f.doff).toNat
    n % 64 = 0 → 64 ≤ n → n ≤ 1572864 → a % 64 = 0 → b % 64 = 0 → a + n ≤ 0x180000 → b + n ≤ 0x180000 →
    ∃ m', exec (.dmaLs k f) s = .next (retired s k { c with ls := m' } (8 + n / 64))
      ∧ storeSet c.ls m' b n (fun i => c.ls.get (a + i))

/-- DMA.CS (03 R74, R70): between the local store and the core's own slice of cluster store, in either direction. -/
def Sys2Proof.Parts.ClusterStoreCopy : Prop :=
  ∀ (s : State) (k : Nat) (f : FmtT) (c : Core) (p : Step), AtCore s k (.dmaCs f) c p → memWf c.ls.mem = true → memWf c.cs.mem = true →
    let n := f.len.toNat
    let a := (padd c f.ps f.soff).toNat
    let b := (padd c f.pd f.doff).toNat
    let sl := 0x40000 * (k % 16)
    let top := sl + (if p.d.jclass = 0 then 0x28000 else 0x40000)
    n % 64 = 0 → 64 ≤ n → n ≤ 1572864 →
    (p.d.wholeCl = false → exec (.dmaCs k f) s = .next (stopped s c stInstr))
    ∧ (p.d.wholeCl = true → f.dir = true → b % 64 = 0 → sl ≤ a → a + n ≤ top → b + n ≤ 0x180000 →
        ∃ m', exec (.dmaCs k f) s = .next (retired s k { c with ls := m' } (8 + n / 64))
          ∧ storeSet c.ls m' b n (fun i => c.cs.get (a - sl + i)))
    ∧ (p.d.wholeCl = true → f.dir = false → a % 64 = 0 → a + n ≤ 0x180000 → sl ≤ b → b + n ≤ top →
        ∃ m', exec (.dmaCs k f) s = .next (retired s k { c with cs := m' } (8 + n / 64))
          ∧ storeSet c.cs m' (b - sl) n (fun i => c.ls.get (a + i)))

/-- DMA.LS and DMA.CS (03 R70, R74). The model's choices: a copy that overlaps itself delivers the source as it stood before (DEDUCED, log entry
34); a core's own slice of cluster store starts at 0x40000 times k mod 16 (DEDUCED, log entry 33). The limit 0x28000 on a KEYSTONE step's own slice
is 10 R300's. Completes: DMA_LS, DMA_CS. -/
def Obligations.StoreCopies : Prop :=
  Sys2Proof.Parts.LocalStoreCopy ∧ Sys2Proof.Parts.ClusterStoreCopy

/-- An operand outside local store or not on a 64-byte boundary ends the step with ST_ADDR_FAULT, and the instruction has no
effect (03 R76): VEC, CVT and DMA.LS. -/
def Obligations.BadOperandAddressStops : Prop :=
  ∀ (s : State) (k : Nat) (c : Core) (p : Step),
    (∀ f : FmtT, AtCore s k (.dmaLs f) c p → f.len.toNat % 64 = 0 → 64 ≤ f.len.toNat → f.len.toNat ≤ 1572864 →
        lsOk (padd c f.ps f.soff).toNat f.len.toNat = false → exec (.dmaLs k f) s = .next (stopped s c stAddrFault))
    ∧ (∀ f : FmtV, AtCore s k (.vec f) c p → f.func.toNat ≤ 13 → lsOk (c.addr f.pa f.aoff.toNat) (4 * elems f.n) = false →
        exec (.vec k f) s = .next (stopped s c stAddrFault))
    ∧ (∀ f : FmtX, AtCore s k (.cvt f) c p → f.fromF.toNat ≤ 5 → f.toF.toNat ≤ 5 → f.rnd.toNat ≤ 1 →
        lsOk (c.addr f.pa f.aoff.toNat) (cvtBytes f.fromF.toNat (elems f.n)) = false →
        exec (.cvt k f) s = .next (stopped s c stAddrFault))

/-- VEC (03 R74; 02 R38): the results of the function named go to D; nothing else changes. -/
def Sys2Proof.Parts.VectorResult : Prop :=
  ∀ (s : State) (k : Nat) (f : FmtV) (c : Core) (p : Step) (vs : List Sys2Proof.Machine.Num), AtCore s k (.vec f) c p →
    let n := elems f.n
    let fn := f.func.toNat
    let a := c.addr f.pa f.aoff.toNat
    let b := c.addr f.pb f.boff.toNat
    let d := c.addr f.pd f.doff.toNat
    let rd := fun (x m : Nat) => (List.range m).map fun i => c.ls.f32 (x + 4 * i)
    fn ≤ 13 → lsOk a (4 * n) = true → (vecB fn n = 0 ∨ lsOk b (4 * vecB fn n) = true) → lsOk d (4 * vecD fn n) = true →
    vecFunc fn (rd a n) (rd b (vecB fn n)) (if fn = 3 then rd d n else []) = some vs →
    exec (.vec k f) s = .next (retired s k { c with ls := c.ls.write d (f32Bytes vs) } (vecCost fn n))

/-- CVT (03 R74, R77; 02 R42): conversion to a format, and the stochastic ordinal rises by N exactly where RND is 2. -/
def Sys2Proof.Parts.ConversionResult : Prop :=
  ∀ (s : State) (k : Nat) (f : FmtX) (c : Core) (p : Step), AtCore s k (.cvt f) c p →
    let n := elems f.n
    let a := c.addr f.pa f.aoff.toNat
    let d := c.addr f.pd f.doff.toNat
    let src := f.fromF.toNat
    let tgt := f.toF.toNat
    let vs := srcVals src n (c.ls.rd a)
    src ≤ 12 → tgt ≤ 12 → f.rnd.toNat < 3 → (f.rnd.toNat = 2 → isMx tgt = true) →
    ((6 ≤ src ∨ 6 ≤ tgt) → n % 32 = 0) → lsOk a (cvtBytes src n) = true → lsOk d (cvtBytes tgt n) = true →
    ∃ bs, exec (.cvt k f) s = .next (retired s k
        { c with ls := c.ls.write d bs, srOrd := if f.rnd.toNat = 2 then c.srOrd + n else c.srOrd } (4 + (n + 63) / 64))
      ∧ (tgt = 0 → bs = vs.zipIdx.flatMap fun v => leBytes 4 (elemEnc .fp32 (cvtMode p c f.rnd v.2) v.1))
      ∧ (tgt ≠ 0 → bs = encodeArray tgt (cvtMode p c f.rnd) vs)

/-- VEC and CVT (03 R74, R77; 02 R38, R42). Completes: VEC, CVT. -/
def Obligations.VectorAndConversionResults : Prop :=
  Sys2Proof.Parts.VectorResult ∧ Sys2Proof.Parts.ConversionResult

/-! ### Engine operations (03 R67, R68, R77) -/

namespace Sys2Proof.Machine

/-- Every core of the running step `n` stands at the engine instruction (op, sig), none of them drifted. -/
abbrev EngReady (s : State) (n op : Nat) (sig : EngSig) (p : Step) : Prop :=
  s.running n = some p ∧ s.engSkew p = none ∧ s.cores p ≠ []
  ∧ ∀ e ∈ s.cores p, e.2.engAt s.aclk = some (.eng op sig) ∧ e.2.drift = false ∧ e.2.ip + 1 < e.2.istore.length

/-- Every core's part of an operation succeeds, with no bad index nibble and no failed check, and every page an armed append writes
to is there. -/
def engParts (s : State) (p : Step) (run : Core → FmtE → Except Nat EngRes) : Prop :=
  ∀ e ∈ s.cores p, ∀ f, e.2.fmtE = some f →
    (∃ r, run e.2 f = .ok r ∧ r.bad = false ∧ r.fails = none) ∧ (f.append = true → ∀ g, e.2.arm = some g → s.apndWait p g = none)

/-- The parts of all cores take effect together, in order of position. -/
def engDone (s : State) (n : Nat) (p : Step) (run : Core → FmtE → Except Nat EngRes) : State :=
  ((s.cores p).foldl (fun t e => match e.2.fmtE with
    | some f => match run e.2 f with
      | .ok r => t.engCommit n p e.1 e.2 f r
      | .error _ => t
    | none => t) s).syncClear n

end Sys2Proof.Machine

/-- 03 R67, R77: an engine operation runs on every core of the course at once; each core's result goes to its own local store
or append port, and the core is busy for 18 cycles and the operation's beats. -/
def Sys2Proof.Parts.EngineOperationRunsOnTheCourse : Prop :=
  ∀ (s : State) (n : Nat) (sig : EngSig) (p : Step),
    (EngReady s n 0x10 sig p → engParts s p (fun c f => mmRun s s.checksOn p c f none) →
        exec (.engMm n sig none) s = .next (engDone s n p (fun c f => mmRun s s.checksOn p c f none)))
    ∧ (EngReady s n 0x11 (tagged sig) p → engParts s p (fun c f => atsRun s.checksOn p c f none) →
        exec (.engAts n sig none) s = .next (engDone s n p (fun c f => atsRun s.checksOn p c f none)))
    ∧ (EngReady s n 0x12 (tagged sig) p → engParts s p (fun c f => atvRun s.checksOn p c f none) →
        exec (.engAtv n sig none) s = .next (engDone s n p (fun c f => atvRun s.checksOn p c f none)))

/-- 03 R67: what one core's part leaves, when it sends nothing to the append port: its local store, its place in the program. -/
def Sys2Proof.Parts.EnginePartOfACore : Prop :=
  ∀ (s : State) (n k : Nat) (p : Step) (c : Core) (f : FmtE) (r : EngRes), f.append = false →
    s.engCommit n p k c f r
      = s.setCore k { c with ls := r.ls, ip := c.ip + 1, ph := .run, busyUntil := s.aclk + 18 + r.beats }

/-- 02 R61, R62: in every profile but THROUGHPUT the result checks run; they lengthen an operation by a beat for every 32 begun, and change
nothing else of its result; an operation that no fault disturbs never fails its check. -/
def Sys2Proof.Parts.CheckBeats : Prop :=
  (∀ s : State, s.checksOn = true ↔ s.profile ≠ 1)
  ∧ (∀ (e : Elem) (k : Nat) (sparse : Bool), beats e k sparse true = beats e k sparse false + (beats e k sparse false + 31) / 32)
  ∧ ∀ (s : State) (p : Step) (c : Core) (f : FmtE) (r : EngRes),
      (mmRun s false p c f none = .ok r → ∃ b, mmRun s true p c f none = .ok { r with beats := b, fails := none } ∧ b = r.beats + (r.beats + 31) / 32)
      ∧ (atsRun false p c f none = .ok r → ∃ b, atsRun true p c f none = .ok { r with beats := b, fails := none } ∧ b = r.beats + (r.beats + 31) / 32)
      ∧ (atvRun false p c f none = .ok r → ∃ b, atvRun true p c f none = .ok { r with beats := b, fails := none } ∧ b = r.beats + (r.beats + 31) / 32)

/-- 02 R62, R63: a fault in one cell is found when the column that holds it exceeds the bound of R62; the step ends with
ST_RESULT_CHECK, and nothing of the operation takes effect. -/
def Sys2Proof.Parts.FailedCheckEndsTheStep : Prop :=
  ∀ (s : State) (n k g : Nat) (sig : EngSig) (q : EngFault) (p : Step) (c : Core) (f : FmtE) (r : EngRes),
    EngReady s n 0x10 sig p → s.cores p = [(k, c)] → c.fmtE = some f → f.append = false → q.pos = c.pos →
    mmRun s s.checksOn p c f (some q) = .ok r → r.fails = some g →
    exec (.engMm n sig (some q)) s = .next (s.checkFail k c p g)

/-- Engine operations on a course (03 R67, R77), the beats of their result check (02 R61) and what a failed check does (R62, R63). The model's
choices: the operand that names a cell fault, which disturbs one result of one core (DESIGN CHOICE, log entries 8 and 56), and the exact sums by
which a column's check fails (DESIGN CHOICE, log entry 56). Completes: ENG_MM, ENG_ATS, ENG_ATV. -/
def Obligations.EngineOperations : Prop :=
  Sys2Proof.Parts.EngineOperationRunsOnTheCourse ∧ Sys2Proof.Parts.EnginePartOfACore ∧ Sys2Proof.Parts.CheckBeats
    ∧ Sys2Proof.Parts.FailedCheckEndsTheStep

/-- 03 R69: cores that differ in issue signature end the step with ST_COURSE_SKEW, whatever engine row is commanded. -/
def Sys2Proof.Parts.CourseSkewEndsTheStep : Prop :=
  ∀ (s : State) (n : Nat) (sig : EngSig) (bad : Option EngFault) (p : Step) (c : Core), s.running n = some p → s.engSkew p = some c →
    exec (.engMm n sig bad) s = .next (stopped s c stCourseSkew) ∧ exec (.engAts n sig bad) s = .next (stopped s c stCourseSkew)
    ∧ exec (.engAtv n sig bad) s = .next (stopped s c stCourseSkew) ∧ exec (.courseRealign n) s = .next (stopped s c stCourseSkew)

/-- 03 R68: realignment holds every core until the operation starts, 4 cycles on, or 44 across dies, and no core is drifted. -/
def Sys2Proof.Parts.Realignment : Prop :=
  ∀ (s : State) (n : Nat) (p : Step), s.running n = some p → s.engSkew p = none →
    (∀ e ∈ s.cores p, (e.2.engAt s.aclk).isSome = true) → (∃ e ∈ s.cores p, e.2.drift = true) →
    exec (.courseRealign n) s = .next (s.modRun fun g => { g with
      cores := tblMap g.cores fun _ c =>
        if c.step = n then { c with drift := false, busyUntil := s.aclk + (if p.spansDies then 44 else 4) } else c })

/-- 03 R68, R69: cores that differ, and cores that have drifted. Completes: COURSE_REALIGN. -/
def Obligations.CourseSkewAndRealignment : Prop :=
  Sys2Proof.Parts.CourseSkewEndsTheStep ∧ Sys2Proof.Parts.Realignment

/-! ### Stream requests (03 R81-R84) -/

namespace Sys2Proof.Machine

/-- Core `k` after request `r` entered its queue: Q[SQ] counts it, and its bytes are ahead of the next request's until its bound. -/
def issued (s : State) (k : Nat) (c : Core) (r : StreamReq) (cost : Nat) : State :=
  retired s k { c with queue := c.queue ++ [r], q := c.q.set r.sq (c.q.getD r.sq 0 + 1), ahead := c.aheadAt s.aclk ++ [(r.bound, r.len)] } cost

/-- What a request for context memory holds. -/
def ctxReqIs (r : StreamReq) (kind : StreamKind) (f : FmtT) (la xa : Nat) (c : Core) : Prop :=
  r.kind = kind ∧ r.sq = f.sq.toNat ∧ r.laddr = la ∧ r.caddr = xa ∧ r.len = f.len.toNat ∧ r.ip = c.ip ∧ r.absent = false

/-- LEN is a multiple of 64 from 64 to 1,572,864. -/
abbrev lenGood (f : FmtT) : Prop := f.len.toNat % 64 = 0 ∧ 64 ≤ f.len.toNat ∧ f.len.toNat ≤ 1572864

/-- What a page request holds. -/
def pageReqIs (r : StreamReq) (f : FmtP) (c : Core) (absent : Bool) : Prop :=
  r.kind = .page ∧ r.sq = f.sq.toNat ∧ r.laddr = c.addr f.pd f.doff.toNat ∧ r.len = 64 * f.len64.toNat ∧ r.tag = f.tag.toNat
  ∧ r.seqi = f.seq.toNat ∧ r.lg = f.lg.toNat ∧ r.page = f.page.toNat ∧ r.poff = f.poff.toNat ∧ r.absent = absent ∧ r.ip = c.ip

/-- The fields of an STR.PAGE name a page of the step (03 R84). -/
abbrev pageFields (f : FmtP) (p : Step) : Prop :=
  f.seq.toNat < p.d.seqCount.toNat ∧ f.lg.toNat < p.d.lgCount.toNat
  ∧ f.page.toNat < (p.seqs.getD f.seq.toNat (decSeq 0)).sweepPages
  ∧ 1 ≤ f.len64.toNat ∧ f.len64.toNat ≤ 32768 ∧ f.poff.toNat % 64 = 0

/-- The window of 04 R119 admits the request: its page lies not below the segment's last and less than 8 above its lowest outstanding. -/
def windowGood (s : State) (c : Core) (p : Step) (f : FmtP) (pg : PageAt) : Prop :=
  ∀ k, segKey p f.seq.toNat f.lg.toNat pg = some k →
    (∀ m, tblFind c.seg k = some m → m ≤ f.page.toNat)
    ∧ f.page.toNat < 8 + ((c.queue.filter fun r => r.kind == .page && segKey p r.seqi r.lg (s.pageNamed p r.seqi r.lg r.page) == some k).foldl
        (fun m r => min m r.page) f.page.toNat)

end Sys2Proof.Machine

/-- 03 R81: a stream request that finds room enters the core's queue and counts in Q[SQ]; STR.SPREAD asks in addition for whole
clusters (R70) and the same source and length as the other cores (R83). -/
def Sys2Proof.Parts.StreamRequestsEnterTheQueue : Prop :=
  ∀ (s : State) (k : Nat) (f : FmtT) (c : Core) (p : Step), c.queue.length < 8 → lenGood f →
    let a := (padd c f.ps f.soff).toNat
    let b := (padd c f.pd f.doff).toNat
    let n := f.len.toNat
    (AtCore s k (.strRd f) c p → lsOk b n = true → a + n ≤ 2 ^ 48 →
        ∃ r, exec (.strRd k f) s = .next (issued s k c r 2) ∧ ctxReqIs r .rd f b a c)
    ∧ (AtCore s k (.strWr f) c p → lsOk a n = true → b + n ≤ 2 ^ 48 →
        ∃ r, exec (.strWr k f) s = .next (issued s k c r 2) ∧ ctxReqIs r .wr f a b c)
    ∧ (AtCore s k (.strSpread f) c p → p.d.wholeCl = true → lsOk b n = true → a + n ≤ 2 ^ 48 →
        (∀ e ∈ s.clusterCores k, e.1 ≠ k → e.2.step = c.step → ∀ r, e.2.spreads[c.spreads.length]? = some r → r.caddr = a ∧ r.len = n ∧ r.laddr = b) →
        ∃ r, exec (.strSpread k f) s = .next (issued s k c r 6) ∧ ctxReqIs r .spread f b a c)

/-- 03 R84: STR.PAGE of a page of the step's own session, there or still arriving in a streaming sequence, and of a visiting
page of a ring. -/
def Sys2Proof.Parts.PageRequestsEnterTheQueue : Prop :=
  ∀ (s : State) (k : Nat) (f : FmtP) (c : Core) (p : Step), AtCore s k (.strPage f) c p → c.queue.length < 8 → pageFields f p →
    let pg := s.pageNamed p f.seq.toNat f.lg.toNat f.page.toNat
    let n := 64 * f.len64.toNat
    lsOk (c.addr f.pd f.doff.toNat) n = true → windowGood s c p f pg →
    (∀ h m e, pg = .own h m e → e.lost = false → e.valid = true → f.poff.toNat + n ≤ pageBytes (s.stepBind p) e.fmt →
        (e.landed = true ∨ (p.seqs.getD f.seq.toNat (decSeq 0)).stream = true) →
        ∃ r sg, exec (.strPage k f) s = .next (issued s k { c with seg := sg } r 2) ∧ pageReqIs r f c (decide ((f.seq.toNat, m) ∈ p.absent)))
    ∧ (∀ m v, pg = .visiting m v → (∀ w, v = some w → f.poff.toNat + n ≤ pageBytes (s.stepBind p) w.fmt) →
        ∃ r sg, exec (.strPage k f) s = .next (issued s k { c with seg := sg } r 2) ∧ pageReqIs r f c true)

/-- 03 R81, R68: a stream request that finds the queue full waits, and its core is drifted. -/
def Sys2Proof.Parts.FullQueueHoldsTheCore : Prop :=
  ∀ (s : State) (k : Nat) (c : Core) (p : Step), 8 ≤ c.queue.length →
    let held := s.setCore k { c with ph := .strFull, drift := true }
    (∀ f : FmtT, lenGood f →
      let a := (padd c f.ps f.soff).toNat
      let b := (padd c f.pd f.doff).toNat
      let n := f.len.toNat
      (AtCore s k (.strRd f) c p → lsOk b n = true → a + n ≤ 2 ^ 48 → exec (.strRd k f) s = .next held)
      ∧ (AtCore s k (.strWr f) c p → lsOk a n = true → b + n ≤ 2 ^ 48 → exec (.strWr k f) s = .next held)
      ∧ (AtCore s k (.strSpread f) c p → p.d.wholeCl = true → lsOk b n = true → a + n ≤ 2 ^ 48 → exec (.strSpread k f) s = .next held))
    ∧ (∀ (f : FmtP) (h m : Nat) (e : Pte), AtCore s k (.strPage f) c p → pageFields f p →
        s.pageNamed p f.seq.toNat f.lg.toNat f.page.toNat = .own h m e → e.lost = false → e.valid = true → e.landed = true →
        f.poff.toNat + 64 * f.len64.toNat ≤ pageBytes (s.stepBind p) e.fmt → lsOk (c.addr f.pd f.doff.toNat) (64 * f.len64.toNat) = true →
        exec (.strPage k f) s = .next held)

namespace Sys2Proof.Machine

/-- The oldest request of core `k` is `r`, of a running step; in SEALED the slot is its context's (12 R361). -/
abbrev AtRequest (s : State) (k : Nat) (c : Core) (p : Step) (r : StreamReq) : Prop :=
  s.core k = some c ∧ s.running c.step = some p ∧ c.queue.head? = some r ∧ s.slotOk p.ctx = true

end Sys2Proof.Machine

/-- 03 R81, R83, R84: what the oldest request of a core does when it completes: a read brings the bytes of context memory, a
write takes those of local store to it, a page request brings the page's bytes and its tag, a spread writes every core of
the cluster. -/
def Sys2Proof.Parts.StreamRequestsComplete : Prop :=
  ∀ (s : State) (k : Nat) (c : Core) (p : Step) (r : StreamReq), AtRequest s k c p r →
    (r.kind = .rd → s.cbad p.ctx r.caddr r.len = none →
        exec (.streamRequestComplete k none) s = .next (((s.setCore k
          { (c.popReq s.aclk) with ls := c.ls.write r.laddr (s.cread p.ctx r.caddr r.len) }).dispatched c.step p r).finish c.step))
    ∧ (r.kind = .wr → s.uncopied p.ctx r.caddr r.len = [] →
        exec (.streamRequestComplete k none) s = .next (((s.cwrite p.ctx r.caddr (c.ls.read r.laddr r.len)).setCore k
          (c.popReq s.aclk)).finish c.step))
    ∧ (r.kind = .page → ∀ h n e, s.pageNamed p r.seqi r.lg r.page = .own h n e → e.lost = false → e.landed = true →
        s.hbad e.frame r.poff r.len = none →
        exec (.streamRequestComplete k none) s
          = .next (((s.pageDone k c p r e.fmt (s.hread e.frame r.poff r.len)).dispatched c.step p r).finish c.step))
    ∧ (r.kind = .spread → (s.clusterCores k).length = 16 →
        (∀ e ∈ s.clusterCores k, e.2.step = c.step ∧ (e.2.queue.head?.map (·.kind)) = some .spread) →
        s.cbad p.ctx r.caddr r.len = none →
        exec (.streamRequestComplete k none) s = .next ((((s.clusterCores k).foldl (fun t e => t.setCore e.1
          { (e.2.popReq s.aclk) with
            ls := e.2.ls.write ((e.2.queue.head?.map (·.laddr)).getD 0) (s.cread p.ctx r.caddr r.len) }) s).dispatched c.step p r).finish c.step))

/-- 03 R81: a request that completes leaves the queue and Q[SQ]; a core that had found the queue full goes on. -/
def Sys2Proof.Parts.CompletionDecrementsQ : Prop :=
  ∀ (c : Core) (r : StreamReq) (l : List StreamReq) (t : Nat), c.queue = r :: l →
    (c.popReq t).queue = l ∧ (c.popReq t).q = c.q.set r.sq (c.q.getD r.sq 0 - 1)
    ∧ (c.ph = .strFull → (c.popReq t).ph = .run ∧ (c.popReq t).busyUntil = t)
    ∧ (c.ph ≠ .strFull → (c.popReq t).ph = c.ph ∧ (c.popReq t).busyUntil = c.busyUntil)

/-- 03 R81: the stream queue of a core: issue, the full queue, completion in issue order, Q[SQ]. What each kind of request does rests on 03 R81,
R83, R84 and 04 R119. The model's choices: STR.WR takes the bytes of local store when it completes, and the cores of a spread must name one
destination (DEDUCED, log entry 34); the order of STR.PAGE's checks (DEDUCED, log entry 60). Completes: STR_RD, STR_WR, STR_SPREAD, STR_PAGE,
STREAM_REQUEST_COMPLETE. -/
def Obligations.StreamQueueOfACore : Prop :=
  Sys2Proof.Parts.StreamRequestsEnterTheQueue ∧ Sys2Proof.Parts.PageRequestsEnterTheQueue ∧ Sys2Proof.Parts.FullQueueHoldsTheCore ∧ Sys2Proof.Parts.StreamRequestsComplete ∧ Sys2Proof.Parts.CompletionDecrementsQ

/-- 16 R444: a read that meets an uncorrectable line ends the step with ST_HBM_UE (a line that the environment reports in
`ue`, or a poisoned one), with the position of the core and the request's own instruction. -/
def Sys2Proof.Parts.UncorrectableReadEndsTheStep : Prop :=
  ∀ (s : State) (k : Nat) (c : Core) (p : Step) (r : StreamReq) (o : Nat), AtRequest s k c p r → r.kind = .rd → o < r.len →
    let l := ctxLine (ckey p.ctx (r.caddr + o))
    exec (.streamRequestComplete k (some o)) s
      = .next (((s.ueRead l p.ctx none).stepFail c.step c.pos r.ip stHbmUe).lineBad l)

/-- 13 R376: a write to a frame that the cut has not copied is held: neither memory nor the queue changes. -/
def Sys2Proof.Parts.UncopiedFrameHoldsAWrite : Prop :=
  ∀ (s : State) (k : Nat) (c : Core) (p : Step) (r : StreamReq), AtRequest s k c p r → r.kind = .wr →
    s.uncopied p.ctx r.caddr r.len ≠ [] →
    ∃ t, exec (.streamRequestComplete k none) s = .next t ∧ t.ses = s.ses ∧ t.run = s.run
      ∧ ∀ f ∈ s.uncopied p.ctx r.caddr r.len, (tblFind t.cks.held f).isSome = true

/-- 16 R444 and 13 R376: a request that meets a bad line, and one that a cut holds. -/
def Obligations.StreamRequestsThatDoNotComplete : Prop :=
  Sys2Proof.Parts.UncorrectableReadEndsTheStep ∧ Sys2Proof.Parts.UncopiedFrameHoldsAWrite

/-! ### Messages and remote operations (03 R85-R90) -/

/-- 03 R85-R87: PUT, ADDPUT and SIGNAL inside a course put one message on the path to the target; PUT and ADDPUT carry the
bytes of local store. -/
def Sys2Proof.Parts.CourseMessagesAreSent : Prop :=
  ∀ (s : State) (k : Nat) (f : FmtM) (c : Core) (p : Step), f.tpos.toNat < p.cores.length →
    let a := (padd c f.ps f.soff).toNat
    let b := (padd c f.pt f.toff).toNat
    let n := 64 * f.len64.toNat
    let sent := fun (m : MsgBody) => s.updStp c.step fun q => { q with msgs := q.msgs ++ [⟨c.pos, f.tpos.toNat, m⟩] }
    (AtCore s k (.put f) c p → f.remote = false → f.len64.toNat ≠ 0 → lsOk a n = true → lsOk b n = true →
        exec (.put k f) s = .next (retired (sent (.put b (c.ls.read a n))) k c (2 + f.len64.toNat)))
    ∧ (AtCore s k (.addput f) c p → f.width.toNat < 2 → f.len64.toNat ≠ 0 → lsOk a n = true → lsOk b n = true →
        exec (.addput k f) s = .next (retired (sent (.add b (f.width == 1) (c.ls.read a n))) k c (2 + f.len64.toNat)))
    ∧ (AtCore s k (.signal f) c p → f.remote = false →
        exec (.signal k f) s = .next (retired (sent (.signal f.sig.toNat f.inc.toNat)) k c 2))

namespace Sys2Proof.Machine

/-- Core `k` has issued the remote operation `r` (but for its TXN) of line operation `op`: one lien and one transaction
that presents key `key`, with one item for each line, its address `addr`, and its operand and payload `what`. -/
def remoteIssued (s t : State) (k : Nat) (c : Core) (p : Step) (kind : RemKind) (op n : Nat) (key : W32) (addr : Nat → W64)
    (what : Nat → W64 × List Byte) (cost : Nat) : Prop :=
  ∃ x r v, s.coreTxn k = some x ∧ s.txnFree x = true ∧ r.id = x ∧ r.kind = kind ∧ r.left = n ∧ r.settled = none ∧ r.ip = c.ip
    ∧ v.owner = .core k x ∧ v.ctx = p.ctx ∧ v.op = op ∧ v.key = key ∧ v.todo.length = n
    ∧ (∀ i, i < n → (v.todo[i]?).map (·.addr) = some (addr i) ∧ (v.todo[i]?).map (fun l => (l.operand, l.payload)) = some (what i))
    ∧ t = retired (s.modFab fun g => { g with txns := tblIns g.txns x v, nextOrder := g.nextOrder + 1 }) k
        { c with liens := c.liens + 1, rem := c.rem ++ [r] } cost

end Sys2Proof.Machine

/-- 03 R89: with REMOTE set PUT becomes line writes of the bytes of local store, every byte enabled, and SIGNAL a fetch-add of INC; GET
becomes line reads and ATOM performs AOP, with the operand that lies in local store, or for CAS both its words. Each takes one lien and
presents K[KSEL] at the hall address P[PT] + TOFF. -/
def Sys2Proof.Parts.RemoteOperationsAreIssued : Prop :=
  ∀ (s : State) (k x : Nat) (f : FmtM) (c : Core) (p : Step), c.liens < 16 → s.coreTxn k = some x →
    let a := (padd c f.ps f.soff).toNat
    let n := f.len64.toNat
    let key := c.k.getD f.ksel.toNat 0
    let at_ := fun (i : Nat) => padd c f.pt f.toff + BitVec.ofNat 64 (64 * i)
    (AtCore s k (.put f) c p → f.remote = true → n ≠ 0 → lsOk a (64 * n) = true →
        ∃ t, exec (.put k f) s = .next t ∧ remoteIssued s t k c p .put 0x02 n key at_ (fun i => (-1, c.ls.read (a + 64 * i) 64)) (2 + n))
    ∧ (AtCore s k (.get f) c p → n ≠ 0 → n ≤ 64 → lsOk a (64 * n) = true →
        ∃ t, exec (.get k f) s = .next t ∧ remoteIssued s t k c p .get 0x01 n key at_ (fun _ => (0, [])) (2 + n))
    ∧ (AtCore s k (.signal f) c p → f.remote = true →
        ∃ t, exec (.signal k f) s = .next t ∧ remoteIssued s t k c p .signal 0x10 1 key at_ (fun _ => (BitVec.ofNat 64 f.inc.toNat, [])) 2)
    ∧ (AtCore s k (.atom f) c p → f.aop.toNat ≤ 4 → lsOk a 16 = true →
        ∃ t, exec (.atom k f) s = .next t ∧ remoteIssued s t k c p .atom (0x10 + f.aop.toNat) 1 key at_
          (fun _ => if f.aop = 4 then (0, c.ls.read a 16 ++ List.replicate 48 0) else (BitVec.ofNat 64 (leNat (c.ls.read a 8)), [])) 2)

/-- 03 R89: a remote instruction issued while 16 remote operations are outstanding ends the step with ST_LIEN_LIMIT. -/
def Sys2Proof.Parts.SeventeenthLienStops : Prop :=
  ∀ (s : State) (k : Nat) (f : FmtM) (c : Core) (p : Step), 16 ≤ c.liens →
    let a := (padd c f.ps f.soff).toNat
    let n := f.len64.toNat
    (AtCore s k (.put f) c p → f.remote = true → n ≠ 0 → lsOk a (64 * n) = true → exec (.put k f) s = .next (stopped s c stLienLimit))
    ∧ (AtCore s k (.get f) c p → n ≠ 0 → n ≤ 64 → lsOk a (64 * n) = true → exec (.get k f) s = .next (stopped s c stLienLimit))
    ∧ (AtCore s k (.signal f) c p → f.remote = true → exec (.signal k f) s = .next (stopped s c stLienLimit))
    ∧ (AtCore s k (.atom f) c p → f.aop.toNat ≤ 4 → lsOk a 16 = true → exec (.atom k f) s = .next (stopped s c stLienLimit))

/-- 03 R89: remote operations and the lien limit. Completes: GET, ATOM. -/
def Obligations.RemoteOperations : Prop :=
  Sys2Proof.Parts.RemoteOperationsAreIssued ∧ Sys2Proof.Parts.SeventeenthLienStops

/-- 03 R85-R87: the oldest message from one core to another takes effect at its target: a PUT's bytes are there, an ADDPUT's
elements are added, a SIGNAL's counter rises; a SIGNAL is applied by SIGNAL_APPLY, the others by MESSAGE_DELIVER. -/
def Sys2Proof.Parts.MessagesTakeEffectInOrder : Prop :=
  ∀ (s : State) (n src dst k : Nat) (p : Step) (m : Msg) (l : List Msg) (c : Core), s.running n = some p →
    takeMsg src dst p.msgs = some (m, l) → p.cores[dst]? = some k → s.core k = some c →
    let t := (s.modRun fun g => { g with cores := tblMod g.cores k fun c => c.receive m.body }).updStp n fun q => { q with msgs := l }
    (m.body.isSignal = false → exec (.messageDeliver n src dst) s = .next t)
    ∧ (m.body.isSignal = true → exec (.signalApply n src dst) s = .next t)
    ∧ (tblWf s.run.cores = true → t.core k = some (c.receive m.body) ∧ ∀ j, j ≠ k → t.core j = s.core j)
    ∧ (∀ a bs, m.body = .put a bs → memWf c.ls.mem = true → storeSet c.ls (c.receive m.body).ls a bs.length fun i => bs.getD i 0)
    ∧ (∀ a wide bs, m.body = .add a wide bs → memWf c.ls.mem = true → bs.length % 8 = 0 →
        storeSet c.ls (c.receive m.body).ls a bs.length fun i => (addElems (if wide then 8 else 4) (c.ls.read a bs.length) bs).getD i 0)
    ∧ (∀ j v, m.body = .signal j v → j < c.sg.length → (c.receive m.body).sg.getD j 0 = c.sg.getD j 0 + BitVec.ofNat 32 v)

/-- 03 R85-R87: messages inside a course, from issue to effect. Completes: PUT, ADDPUT, SIGNAL, MESSAGE_DELIVER, SIGNAL_APPLY. -/
def Obligations.CourseMessages : Prop :=
  Sys2Proof.Parts.CourseMessagesAreSent ∧ Sys2Proof.Parts.MessagesTakeEffectInOrder

/-- 03 R88: WAIT goes on where its condition holds, and waits with a bound where it does not; WAIT_MET ends the wait;
WAIT_BOUND_EXPIRY ends the step with ST_WAIT_BOUND. -/
def Sys2Proof.Parts.WaitsAndTheirBounds : Prop :=
  ∀ (s : State) (k : Nat) (f : FmtW) (c : Core) (p : Step),
    (∀ c', AtCore s k (.wait f) c p → f.sel.toNat ≠ 3 → f.bound.toNat ≠ 0 → c.met f = some c' →
        exec (.wait k f) s = .next (retired s k c' 2))
    ∧ (AtCore s k (.wait f) c p → f.sel.toNat ≠ 3 → f.bound.toNat ≠ 0 → c.met f = none →
        exec (.wait k f) s = .next (s.setCore k { c with ph := .waiting f (s.aclk + f.bound.toNat), drift := true }))
    ∧ (∀ c' till, s.core k = some c → s.running c.step = some p → c.ph = .waiting f till → c.met f = some c' →
        c.ip + 1 < c.istore.length → exec (.waitMet k) s = .next (retired s k c' 2))
    ∧ (∀ till, s.core k = some c → s.running c.step = some p → c.ph = .waiting f till → c.met f = none → s.pastA till = true →
        exec (.waitBoundExpiry k) s = .next (stopped s c stWaitBound))

/-- 03 R88: what the condition of a WAIT is and takes: a signal count, which falls by the value, a stream count, the liens. -/
def Sys2Proof.Parts.WaitConditions : Prop :=
  ∀ (c : Core) (f : FmtW),
    (f.sel.toNat = 0 → f.value.toNat ≤ (c.sg.getD f.idx.toNat 0).toNat →
        c.met f = some { c with sg := c.sg.set f.idx.toNat (c.sg.getD f.idx.toNat 0 - f.value) })
    ∧ (f.sel.toNat = 0 → (c.sg.getD f.idx.toNat 0).toNat < f.value.toNat → c.met f = none)
    ∧ (f.sel.toNat = 1 → (c.met f = some c ↔ (c.q.getD f.idx.toNat 0).toNat ≤ f.value.toNat))
    ∧ (f.sel.toNat = 2 → (c.met f = some c ↔ c.liens ≤ f.value.toNat))

/-- 03 R88: WAIT, its conditions, its bound. Completes: WAIT, WAIT_MET, WAIT_BOUND_EXPIRY. -/
def Obligations.Waits : Prop :=
  Sys2Proof.Parts.WaitsAndTheirBounds ∧ Sys2Proof.Parts.WaitConditions

/-! ### Common points, appends, posts (03 R91-R95) -/

namespace Sys2Proof.Machine

/-- Every core of step `n` leaves its common point in the same cycle, and the course counts its points anew; the appends made before
the point are seen by the requests issued after it (03 R94). -/
def left (s : State) (n : Nat) (p : Step) : State :=
  (((s.updStp n fun q => { q with sync := [] }).modRun fun g => { g with
    cores := tblMap g.cores fun _ c => if c.step = n then { c with nsync := 0 } else c }).updStp n fun q => { q with bars := q.bars + 1 }).modRun fun g => { g with
    cores := tblMap g.cores fun _ c =>
      if c.step = n then { c with ph := .run, ip := c.ip + 1, busyUntil := s.aclk + (if p.spansDies then 46 else 6) } else c }

/-- Every core of `p` stands at a common point of the kind `q` names, with an instruction after it; no message waits. -/
def allAt (s : State) (p : Step) (q : CorePh → Prop) : Prop :=
  s.cores p ≠ [] ∧ p.msgs = [] ∧ ∀ e ∈ s.cores p, q e.2.ph ∧ e.2.ip + 1 < e.2.istore.length

end Sys2Proof.Machine

/-- 03 R91, R68: a core that reaches a BARRIER or a PPOINT waits there, drifted; BARRIER_RELEASE lets every core of the course go in the same cycle, 6
cycles on, or 46 across dies, once all have come and every message has been written. Completes: BARRIER, PPOINT, BARRIER_RELEASE. -/
def Obligations.BarriersHoldAndRelease : Prop :=
  ∀ (s : State) (k : Nat) (c : Core) (p : Step) (l : List SyncEv),
    (AtCore s k .barrier c p → s.reach p c .barrier = some l →
        exec (.barrier k) s = .next ((s.setCore k { c with ph := .atBarrier, drift := true, nsync := c.nsync + 1 }).updStp c.step
          fun q => { q with sync := l }))
    ∧ (∀ f, AtCore s k (.ppoint f) c p → rangesOk (liveRanges f) = true → s.reach p c .ppoint = some l →
        exec (.ppoint k f) s = .next ((s.setCore k { c with ph := .atPpoint f, drift := true, nsync := c.nsync + 1 }).updStp c.step
          fun q => { q with sync := l }))
    ∧ (∀ f, AtCore s k (.ppoint f) c p → rangesOk (liveRanges f) = false → exec (.ppoint k f) s = .next (stopped s c stInstr))
    ∧ (∀ n, s.running n = some p → allAt s p (· = .atBarrier) → exec (.barrierRelease n) s = .next (left s n p))
    ∧ (∀ n, s.running n = some p → (p.msgs ≠ [] ∨ ∃ e ∈ s.cores p, e.2.ph ≠ .atBarrier) → exec (.barrierRelease n) s = .next s)

/-- 03 R92; 10 R297, R298: at the release of a PPOINT every written bit outside the declared ranges, and of the whole
cluster-store slice, is cleared, the count toward PP_GAP starts anew; a lent course that a waiting KEYSTONE step has collected is
pre-empted, and one whose context has an arm in force is held. -/
def Sys2Proof.Parts.PreemptionPointReleases : Prop :=
  ∀ (s : State) (n : Nat) (p : Step), s.running n = some p → allAt s p (fun h => ∃ f, h = .atPpoint f) →
    (∀ e ∈ s.cores p, e.2.queue = [] ∧ e.2.getOutside = false) →
    let cleared := s.modRun fun g => { g with cores := tblMap g.cores fun _ c => if c.step = n then c.clearLines else c }
    let free := (left cleared n p).updStp n fun q => { q with gap := 0 }
    exec (.ppointRelease n) s = .next
      (if p.lent = true ∧ free.noticed p.ctx n = true then free.preempt n
       else if p.lent = true ∧ free.armed p.ctx = true then free.updStp n fun q => { q with ph := .held } else free)

/-- 03 R92: after the release of a PPOINT a byte of a line outside the declared ranges reads as zero, and so does every byte of
the cluster-store slice; bytes of declared lines are kept. -/
def Sys2Proof.Parts.UndeclaredLinesReadZero : Prop :=
  ∀ (c : Core) (f : FmtPp) (a : Nat), c.ph = .atPpoint f →
    (inRanges (liveRanges f) (a / 256) = false → c.clearLines.ls.get a = 0)
    ∧ (inRanges (liveRanges f) (a / 256) = true → c.clearLines.ls.get a = c.ls.get a)
    ∧ c.clearLines.cs.get a = 0

/-- 03 R92; 10 R297, R298: the release of a PPOINT and what it clears. Completes: PPOINT_RELEASE. -/
def Obligations.PreemptionPoints : Prop :=
  Sys2Proof.Parts.PreemptionPointReleases ∧ Sys2Proof.Parts.UndeclaredLinesReadZero

/-- 03 R93, R95: APND in arm mode records its target, in write mode converts its rows into their slots once every page is
there; a POST is queued, or discarded and counted when 16 are unsent. -/
def Sys2Proof.Parts.AppendsAndPostsTakeEffect : Prop :=
  ∀ (s : State) (k : Nat) (c : Core) (p : Step),
    (∀ f, AtCore s k (.apndArm f) c p → s.apndBad p f = none → exec (.apndArm k f) s = .next (retired s k { c with arm := some f } 2))
    ∧ (∀ f, AtCore s k (.apndWrite f) c p → s.apndBad p f = none →
        lsOk (c.addr f.ps f.soff.toNat) (4 * f.nch.toNat * f.rows.toNat) = true → s.apndWait p f = none →
        exec (.apndWrite k f) s = .next (retired ((apndRows f).foldl (fun t r => t.apndRow c.step c.pos p f r f.cbase.toNat
          ((List.range f.nch.toNat).map fun i => c.ls.f32 (c.addr f.ps f.soff.toNat + 4 * (r * f.nch.toNat + i)))) s) k c
          (4 + (f.rows.toNat * f.nch.toNat + 15) / 16)))
    ∧ (∀ f, AtCore s k (.post f) c p → p.posts.length < 16 →
        exec (.post k f) s = .next (retired (s.updStp c.step fun q => { q with posts := q.posts ++ [⟨c.pos, f.event.toNat, f.payload⟩] })
          k c 4))
    ∧ (∀ f, AtCore s k (.post f) c p → 16 ≤ p.posts.length →
        exec (.post k f) s = .next (retired (s.updStp c.step fun q => { q with discarded := q.discarded + 1 }) k c 4))

/-- 03 R93: a misused append ends the step with ST_INSTR and writes nothing. -/
def Sys2Proof.Parts.BadAppendStops : Prop :=
  ∀ (s : State) (k st : Nat) (f : FmtA) (c : Core) (p : Step), s.apndBad p f = some st →
    (AtCore s k (.apndArm f) c p → exec (.apndArm k f) s = .next (stopped s c st))
    ∧ (AtCore s k (.apndWrite f) c p → exec (.apndWrite k f) s = .next (stopped s c st))
    ∧ (f.rows.toNat = 0 ∨ 16 < f.rows.toNat ∨ f.nch.toNat = 0 ∨ f.nch.toNat % 16 ≠ 0 → st = stInstr)

/-- 03 R93, R95: APND and POST. The model's choice: ROWS above 16 and an NCH that is no multiple of 16 end with ST_INSTR, which R93's own list does
not hold (DEDUCED, log entry 31). Completes: APND_WRITE, APND_ARM, POST. -/
def Obligations.AppendsAndPosts : Prop :=
  Sys2Proof.Parts.AppendsAndPostsTakeEffect ∧ Sys2Proof.Parts.BadAppendStops

/-! ### Time limits of a step -/

/-- 03 R100; 04 R120; 10 R295, R297: a step that reaches its WCET, its deadline, its stall limit or, on lent quads, its PP_GAP is ended
with the status of each. -/
def Sys2Proof.Parts.TimeLimitsEndAStep : Prop :=
  ∀ (s : State) (n : Nat) (p : Step), s.live = true → s.stp n = some p →
    (p.ph = .running → s.pastCount p.d.wcet.toNat p.executed = true → exec (.wcetOverrun n) s = .next (s.endStep n stWcetOverrun none))
    ∧ (p.d.deadline.toNat ≠ 0 → s.past (p.release + p.d.deadline.toNat) = true →
        exec (.stepDeadline n) s = .next (s.endStep n stDeadline none))
    ∧ (p.lent = true → p.ph = .running → s.pastCount p.d.ppGap.toNat p.gap = true → exec (.ppGapExpiry n) s = .next (s.endStep n stPpGap none))
    ∧ (∀ i c ip since, p.ph = .running → s.waitsOn p = [(i, c, ip)] → tblFind p.stall i = some since → p.stallMs i ≠ 0 →
        s.past (since + p.stallMs i * 625000) = true → exec (.streamStall n) s = .next (s.stepFail c.step c.pos ip stStreamStall))
    ∧ (∀ since, p.ph = .running → s.waitsOn p = [] → p.awaitsCredit = true → tblFind p.stall creditKey = some since →
        p.stallMs creditKey ≠ 0 → s.past (since + p.stallMs creditKey * 625000) = true →
        exec (.streamStall n) s = .next (s.endStep n stStreamStall none))

/-- 03 R98, R99: a step that has ended is gone, with every core it held and its quads. -/
def Sys2Proof.Parts.AnEndedStepIsGone : Prop :=
  ∀ (s : State) (n st : Nat) (p : Step) (a : Option (Nat × Nat)), tblWf s.run.steps = true → s.stp n = some p →
    (s.endStep n st a).stp n = none ∧ ∀ k c, (s.endStep n st a).core k = some c → c.step ≠ n

/-- 03 R98-R100; 04 R120; 10 R295, R297: the limits that end a step, and what is left of it. Completes: WCET_OVERRUN, STEP_DEADLINE, STREAM_STALL,
PP_GAP_EXPIRY. -/
def Obligations.StepsEnd : Prop :=
  Sys2Proof.Parts.TimeLimitsEndAStep ∧ Sys2Proof.Parts.AnEndedStepIsGone

/-! ### Scheduling (03 R96, R97; 10) -/

namespace Sys2Proof.Machine

/-- The entry `e` may be taken from ring `sq` and names a ring of its own context: `q` is where it completes, `t` the machine once
it is taken. -/
abbrev Taken (s t : State) (sq q : Nat) (e : Entry) : Prop :=
  s.mayTake sq e = true ∧ s.cqOk sq e = true ∧ q = s.target sq e ∧ t = s.takeEntry sq q

end Sys2Proof.Machine

/-- 03 R97; 11 R324, R327: a descriptor that passes its checks becomes a waiting step and completes later; one that fails is rejected
with the status of the first check that fails, and none of its effects; its record holds SQ_HEAD once the entry is taken. -/
def Sys2Proof.Parts.DescriptorsAreAdmittedOrRejected : Prop :=
  ∀ (s t : State) (sq q : Nat) (d : StepDesc), Taken s t sq q (.step d) →
    let u := t.sweepNamed d
    (∀ v, d.dver.toNat = 1 → u.admission sq d (u.ctxOk sq d.ctx.toNat) = .ok v →
        exec (.stepDescriptor sq d) s = .next (v.ringStart s.run.nextStep))
    ∧ (d.dver.toNat ≠ 1 → exec (.stepDescriptor sq d) s = .next (t.stepEntry sq q (s.qctx q) d stVersion 0 0 none (t.sqHeadOf sq)))
    ∧ (∀ st, d.dver.toNat = 1 → u.admission sq d (u.ctxOk sq d.ctx.toNat) = .error (st, false) →
        exec (.stepDescriptor sq d) s = .next (u.stepEntry sq q (s.qctx q) d st 0 0 none (u.sqHeadOf sq)))
    ∧ (∀ st, d.dver.toNat = 1 → u.admission sq d (u.ctxOk sq d.ctx.toNat) = .error (st, true) →
        exec (.stepDescriptor sq d) s
          = .next ((u.count 0x3108 1).stepEntry sq q (s.qctx q) d st 0 0 none ((u.count 0x3108 1).sqHeadOf sq)))

/-- 03 R97: the order of the descriptor's first checks: version, then context, then QUADS, then the field ranges. -/
def Sys2Proof.Parts.FirstFailingCheckDecides : Prop :=
  ∀ (s : State) (sq : Nat) (d : StepDesc),
    (d.dver.toNat ≠ 1 → ∀ b, s.admission sq d b = .error (stVersion, false))
    ∧ (d.dver.toNat = 1 → s.admission sq d false = .error (stDescField, false))
    ∧ (d.dver.toNat = 1 → d.wholeCl = true → descQuads d % 4 ≠ 0 → s.admission sq d true = .error (stCoreset, false))
    ∧ (d.dver.toNat = 1 → (d.wholeCl = true → descQuads d % 4 = 0) → descOk d = false → s.admission sq d true = .error (stDescField, false))

/-- What admission adds: one step that waits, under the next number. -/
def Sys2Proof.Parts.AdmissionAddsAWaitingStep : Prop :=
  ∀ (s v : State) (sq : Nat) (d : StepDesc) (b : Bool), s.admission sq d b = .ok v →
    v.run.nextStep = s.run.nextStep + 1
    ∧ ∃ p, v.stp s.run.nextStep = some p ∧ p.d = d ∧ p.sq = sq ∧ p.ph = .waiting ∧ p.quads = [] ∧ p.executed = 0 ∧ p.fail = none

/-- 03 R97; 11 R324: what becomes of a step descriptor. Completes: STEP_DESCRIPTOR. -/
def Obligations.StepDescriptors : Prop :=
  Sys2Proof.Parts.DescriptorsAreAdmittedOrRejected ∧ Sys2Proof.Parts.FirstFailingCheckDecides ∧ Sys2Proof.Parts.AdmissionAddsAWaitingStep

/-- 10 R290, R292-R294, R299, R307: STEP_DISPATCH starts a KEYSTONE step on the quads it has collected, a step of a periodic job on its
reservation where its share is free, the job's first step where quads are, and the step that fair queueing has chosen where quads are
free for it. -/
def Sys2Proof.Parts.DispatchStartsAStep : Prop :=
  ∀ (s : State) (n : Nat) (p : Step), s.stp n = some p → s.mayDispatch p = true → s.slotOk p.ctx = true →
    (p.ks = true → exec (.stepDispatch n) s = .next (s.dispatchKs n p))
    ∧ (∀ own, p.ks = false → p.d.periodic = true → ((tblFind s.run.jobs p.jobId).map (·.resQuads)).getD [] = own → own ≠ [] →
        s.shareMore p own = true → exec (.stepDispatch n) s = .next ((s.charge p.ctx 0 p.cost).launch n p own false))
    ∧ (∀ qs, p.ks = false → p.d.periodic = true → ((tblFind s.run.jobs p.jobId).map (·.resQuads)).getD [] = [] →
        s.place1 p (s.blocked n) = some (qs, false) → exec (.stepDispatch n) s = .next ((s.charge p.ctx 0 p.cost).launch n p qs false))
    ∧ (∀ b qs lent, p.ks = false → p.d.periodic = false → s.chosenStep = some (n, b) → s.place1 p [] = some (qs, lent) →
        exec (.stepDispatch n) s = .next (s.dispatchFq n p qs lent))

/-- 03 R66, R71-R73: the cores of a course at its start: in ascending device number they hold positions 0 on; P0 to P3 hold
BASE0 to BASE3 and P15 the position; the rest are zero; local store holds the arguments and cluster store nothing. -/
def Sys2Proof.Parts.LaunchedCoresStartClean : Prop :=
  ∀ (s : State) (n i k : Nat) (p : Step) (qs : List Nat) (lent : Bool),
    ((sortNat qs).flatMap fun q => [4 * q, 4 * q + 1, 4 * q + 2, 4 * q + 3])[i]? = some k →
    ∃ c, (s.launch n p qs lent).core k = some c ∧ c.step = n ∧ c.pos = i ∧ c.ip = 0
      ∧ c.p = [p.d.base0, p.d.base1, p.d.base2, p.d.base3, 0, 0, 0, 0, 0, 0, 0, 0, 0, 0, 0, BitVec.ofNat 64 i]
      ∧ c.c = List.replicate 8 0 ∧ c.k = List.replicate 4 0 ∧ c.sg = List.replicate 8 0 ∧ c.q = List.replicate 8 0
      ∧ c.liens = 0 ∧ c.istore = s.program p.d ∧ (∀ a, c.cs.get a = 0)
      ∧ ∀ a, c.ls.get a = (s.cread p.ctx p.d.argAddr.toNat p.d.argLen.toNat).getD a 0

/-- 10 R302, R303: a restored course goes on after its point, its program copied again and its liens taken, or ends with the status of
the bad lien that was taken first. -/
def Sys2Proof.Parts.PreemptedCoursesResume : Prop :=
  ∀ (s : State) (n till start : Nat) (p : Step), s.live = true → s.stp n = some p → p.ph = .restoring till start → till ≤ s.aclk →
    (p.restoreBad = none → (∀ v ∈ p.saved, v.held = []) → ∃ t, exec (.courseRestoreDone n) s = .next t
        ∧ (t.stp n).map (fun x => (x.ph, x.saved)) = some (.running, []) ∧ t.ses = s.ses ∧ t.run.jobs = s.run.jobs
        ∧ (∀ (i k : Nat) (v : SavedCore), p.cores.Nodup → p.cores[i]? = some k → p.saved[i]? = some v →
            t.core k = some (SavedCore.restore v (s.program p.d) (s.aclk + copyCycles p.d))))
    ∧ (∀ at_ pos ip st, p.restoreBad = some (at_, pos, ip, st) →
        exec (.courseRestoreDone n) s = .next (s.endStep n st (some (pos, ip))))

/-- 10 R290, R299, R302, R307; 03 R66, R71-R73: dispatch, the cores of a course at its start, and a pre-empted course's return. The model's choices:
a step of a periodic job is dispatched outside fair queueing and charged all the same (DEDUCED, log entry 41); which of the allowed quads a KEYSTONE
step collects (DEDUCED, log entry 41) and a step is given (DESIGN CHOICE, log entry 41). `dispatchKs` is the shared operation of a KEYSTONE
dispatch. Completes: STEP_DISPATCH, COURSE_RESTORE_DONE. -/
def Obligations.StepsAreDispatched : Prop :=
  Sys2Proof.Parts.DispatchStartsAStep ∧ Sys2Proof.Parts.LaunchedCoresStartClean ∧ Sys2Proof.Parts.PreemptedCoursesResume

/-- 10 R294: a release falls due at T0 plus a multiple of the period; the second in a row with no step waiting ends the
reservation with PERIOD_LAPSE. -/
def Sys2Proof.Parts.PeriodicReleases : Prop :=
  ∀ (s : State) (ctx job j : Nat) (b : Job), s.live = true → s.jobOf ctx job = some (j, b) → b.periodic = true →
    b.t0 + b.rel * b.period ≤ s.tick →
    let rel := fun (m : Nat) => s.modRun fun g => { g with jobs := tblIns g.jobs j { b with rel := b.rel + 1, missed := m } }
    (s.jobWaiting j ≠ [] → exec (.periodicRelease ctx job) s = .next (rel 0))
    ∧ (s.jobWaiting j = [] → b.missed = 0 → exec (.periodicRelease ctx job) s = .next (rel 1))
    ∧ (s.jobWaiting j = [] → 1 ≤ b.missed →
        exec (.periodicRelease ctx job) s = .next (((rel (b.missed + 1)).endJob j).otherEvent b.cq ctx 0x0012 stPeriodLapse b.num 0))

/-- 10 R307: at a refill every enabled context's tokens rise by RATE, up to BURST. -/
def Sys2Proof.Parts.TokensRefill : Prop :=
  ∀ (s : State), s.live = true → s.run.refill < s.tick / 62500 → tblWf s.run.tokens = true →
    ∃ t, exec .tokenRefill s = .next t ∧ t.run.refill = s.tick / 62500 ∧ t.run.ksUsed = []
      ∧ (∀ c r, c < 256 → r < 5 → s.ctxOn c = true →
          tblGet 0 t.run.tokens (c * 8 + r) = min ((s.obj 0x5004 2 c r : Nat) : Int) (tblGet 0 s.run.tokens (c * 8 + r) + ((s.obj 0x5004 1 c r : Nat) : Int)))
      ∧ t.run.steps = s.run.steps ∧ t.run.cores = s.run.cores ∧ t.ses = s.ses ∧ t.site = s.site

/-- 10 R294, R307: releases of periodic jobs and refills of tokens. The model's choice: the two releases after which a reservation lapses are in a
row, so that a waiting step between them starts the count anew (DEDUCED, log entry 41). Completes: PERIODIC_RELEASE, TOKEN_REFILL. -/
def Obligations.PeriodsAndRefills : Prop :=
  Sys2Proof.Parts.PeriodicReleases ∧ Sys2Proof.Parts.TokensRefill

namespace Sys2Proof.Machine

/-- Command `c` with header `h` stands at the head of ring `sq`, may be taken, and passes the checks of 11 R325 and 10 R286 with the
host ranges `hosts`: `q` is the ring it completes in, `t` the machine once it is taken. -/
abbrev Accepted (s t : State) (sq q : Nat) (h : CmdHdr) (c : HostCmd) (hosts : List (Nat × Nat)) : Prop :=
  Taken s t sq q (.cmd h c) ∧ s.evOk sq h.ctx.toNat c = true ∧ (∀ w ∈ hosts, s.hostOk q w.1 w.2 = true)
  ∧ s.ctxOk sq h.ctx.toNat = true ∧ (sq = 64 → ksCmd c = true)

/-- `u` with the completion of `c`, ST_OK and RESULT `r`, in ring `q`, under the SQ_HEAD of the entry's taking. -/
def completed (s u : State) (sq q : Nat) (h : CmdHdr) (c : HostCmd) (r : Nat) : State :=
  u.entryDone sq q (s.qctx q) ((s.takeEntry sq q).sqHeadOf sq) h.tag c stOk r

/-- `u` with the completion of `c` and a status that rejects it. -/
def rejected (s u : State) (sq q : Nat) (h : CmdHdr) (c : HostCmd) (st : Nat) : State :=
  u.entryDone sq q (s.qctx q) ((s.takeEntry sq q).sqHeadOf sq) h.tag c st 0

end Sys2Proof.Machine

/-- 10 R298: an arm is in force from the cycle it is applied in until HOLD µs later, and replaces one in force; a disarm or its expiry ends it; a
HOLD of 0 or above 1,000,000 is ST_TIMING and leaves any arm as it was. The clauses hold for every ring: that an arm or a disarm may stand on an
ordinary queue is the model's choice (DEDUCED, log entry 41). Completes: KEYSTONE_ARM, KEYSTONE_DISARM, KEYSTONE_ARM_EXPIRY. -/
def Obligations.KeystoneArms : Prop :=
  ∀ (s t : State) (sq q : Nat) (h : CmdHdr) (hold : BitVec 20),
    (Accepted s t sq q h (.keystoneArm hold) [] → 1 ≤ hold.toNat → hold.toNat ≤ 1000000 →
        exec (.keystoneArm sq h hold) s = .next (completed s (t.modRun fun g => { g with
          arms := tblIns g.arms h.ctx.toNat ⟨t.tick + hold.toNat * 625, false⟩ }) sq q h (.keystoneArm hold) 0))
    ∧ (Accepted s t sq q h (.keystoneArm hold) [] → (hold.toNat = 0 ∨ 1000000 < hold.toNat) →
        exec (.keystoneArm sq h hold) s = .next (rejected s t sq q h (.keystoneArm hold) stTiming))
    ∧ (Accepted s t sq q h .keystoneDisarm [] →
        exec (.keystoneDisarm sq h) s = .next (completed s (t.armEnd h.ctx.toNat) sq q h .keystoneDisarm 0))
    ∧ (∀ c a, s.live = true → tblFind s.run.arms c = some a → s.past a.till = true → exec (.keystoneArmExpiry c) s = .next (s.armEnd c))
    ∧ (∀ (u : State) c a, tblWf u.run.arms = true → tblFind u.run.arms c = some a → (u.armEnd c).armed c = false)

/-! ### Sessions, bindings, adapters (05) -/

/-- 11 R325: a command whose CQ or EVENT_CQ, host ranges or context are not the submitting context's own is rejected, with the status of the first
check that fails, and does nothing else; the KEYSTONE ring takes KEYSTONE commands alone. R325 speaks of the completion ring that the entry names:
that EVENT_CQ is held to the same rule, with ST_QUEUE, is the model's choice (DEDUCED, log entry 10). -/
def Obligations.CommandsAreCheckedInOrder : Prop :=
  ∀ (s t : State) (sq q : Nat) (h : CmdHdr) (c : HostCmd) (hosts : List (Nat × Nat)) (f : State → CmdOut),
    s.mayTake sq (.cmd h c) = true → q = s.target sq (.cmd h c) → t = s.takeEntry sq q →
    ((s.cqOk sq (.cmd h c) = false ∨ s.evOk sq h.ctx.toNat c = false) → s.command sq h c hosts f = rejected s t sq q h c stQueue)
    ∧ (s.cqOk sq (.cmd h c) = true → s.evOk sq h.ctx.toNat c = true → (∃ w ∈ hosts, s.hostOk q w.1 w.2 = false) →
        s.command sq h c hosts f = rejected s t sq q h c stHostWindow)
    ∧ (s.cqOk sq (.cmd h c) = true → s.evOk sq h.ctx.toNat c = true → (∀ w ∈ hosts, s.hostOk q w.1 w.2 = true) →
        s.ctxOk sq h.ctx.toNat = false → s.command sq h c hosts f = rejected s t sq q h c stDescField)
    ∧ (s.cqOk sq (.cmd h c) = true → s.evOk sq h.ctx.toNat c = true → (∀ w ∈ hosts, s.hostOk q w.1 w.2 = true) →
        s.ctxOk sq h.ctx.toNat = true → sq = 64 → ksCmd c = false → s.command sq h c hosts f = rejected s t sq q h c stJobClass)
    ∧ ((∀ stream last inAddr len outAddr outCap, c ≠ .tokenize stream last inAddr len outAddr outCap) →
        ∀ st, rejected s t sq q h c st = t.cmdDone sq q (s.qctx q) (t.sqHeadOf sq) h.tag (cmdCode c) st 0)

/-- 05 R151: SESSION_CREATE gives a FREE handle of the context's block an IDLE session with no token, its generation one more;
SESSION_DROP frees a session that is IDLE, PARKED or LOST and unpinned; SESSION_RELEASE takes a tomb away. -/
def Sys2Proof.Parts.SessionsAreCreatedAndFreed : Prop :=
  ∀ (s t : State) (sq q : Nat) (h : CmdHdr) (handle : BitVec 24),
    let n := handle.toNat
    let ctx := h.ctx.toNat
    (∀ binding homeDie eventCq old d u, Accepted s t sq q h (.sessionCreate handle binding homeDie eventCq) [] →
        t.handleIn ctx n = true → old = (t.sess n).getD (sesFree ctx) → old.state = .free → (old.tomb = true → old.ctx = ctx) →
        tblFind t.ses.migIn n = none → t.islandUp (n % 4) = true → (tblFind t.ses.binds (ctx * 256 + binding.toNat)).isSome = true →
        t.awakeFull = false → t.dirFresh ctx homeDie.toNat = some (d, u) →
        ∃ x, exec (.sessionCreate sq h handle binding homeDie eventCq) s
              = .next (completed s ((u.descTouch n).setSess n x) sq q h (.sessionCreate handle binding homeDie eventCq) x.sgen.toNat)
          ∧ x.state = .idle ∧ x.ctx = ctx ∧ x.binding = binding.toNat ∧ x.homeDie = homeDie.toNat ∧ x.sgen = old.sgen + 1
          ∧ x.tokens = 0 ∧ x.dir = d ∧ x.eventCq = eventCq.toNat ∧ x.tomb = false)
    ∧ (∀ x, Accepted s t sq q h (.sessionDrop handle) [] → (t.named ctx n).2 = .ok x → x.stepPins = 0 →
        (x.state = .idle ∨ x.state = .parked ∨ x.state = .lost) →
        exec (.sessionDrop sq h handle) s
          = .next (completed s (((((t.named ctx n).1.wipe x).moveEnd n).setSess n (freed x (t.named ctx n).1.tick false))) sq q h (.sessionDrop handle) 0)
        ∧ (freed x s.tick false).state = .free ∧ (freed x s.tick false).sgen = x.sgen ∧ (freed x s.tick false).ctx = x.ctx)
    ∧ (∀ x, Accepted s t sq q h (.sessionRelease handle) [] → t.sess n = some x → x.ctx = ctx → x.state = .free → x.tomb = true →
        exec (.sessionRelease sq h handle) s
          = .next (completed s (t.setSess n { x with tomb := false, lastChange := t.tick }) sq q h (.sessionRelease handle) 0))

/-- 05 R130, R139, R154: pins of page indices, the query that writes the descriptor to host memory, and the cut of a session whose
directory lies in Tier 1. -/
def Sys2Proof.Parts.SessionPinQueryTruncate : Prop :=
  ∀ (s t : State) (sq q : Nat) (h : CmdHdr) (handle : BitVec 24) (x : Session),
    let n := handle.toNat
    let r := (t.named h.ctx.toNat n).1
    (t.named h.ctx.toNat n).2 = .ok x →
    (∀ first count, Accepted s t sq q h (.sessionPin handle false first count) [] → x.state ≠ .migrating →
        ∃ y, exec (.sessionPin sq h handle false first count) s
              = .next (completed s (r.setSess n y) sq q h (.sessionPin handle false first count) 0)
          ∧ (∀ i, i ∈ y.pins ↔ i ∈ x.pins ∧ ¬(first.toNat ≤ i ∧ i < first.toNat + count.toNat))
          ∧ y.state = x.state ∧ y.tokens = x.tokens ∧ y.move = x.move)
    ∧ (∀ first count, Accepted s t sq q h (.sessionPin handle true first count) [] → x.state ≠ .migrating →
        x.pins.length + count.toNat ≤ 64 → first.toNat + count.toNat ≤ 16384 →
        ∃ y, exec (.sessionPin sq h handle true first count) s
              = .next (completed s (r.setSess n y) sq q h (.sessionPin handle true first count) 0)
          ∧ (∀ i, i ∈ y.pins ↔ i ∈ x.pins ∨ (first.toNat ≤ i ∧ i < first.toNat + count.toNat))
          ∧ y.state = x.state ∧ y.tokens = x.tokens ∧ y.move = x.move)
    ∧ (∀ dest, Accepted s t sq q h (.sessionQuery handle dest) [(dest.toNat, 256)] → dest.toNat % 64 = 0 →
        exec (.sessionQuery sq h handle dest) s
          = .next (completed s (r.dwr dest.toNat (leBytes 256 (sessNum x))) sq q h (.sessionQuery handle dest) 0))
    ∧ (∀ cut, Accepted s t sq q h (.sessionTruncate handle cut) [] → (x.state = .idle ∨ x.state = .lost) → x.stepPins = 0 →
        cut.toNat ≤ x.tokens → (x.lostFirst = 0xFFFFFFFF ∨ cut.toNat ≤ 256 * x.lostFirst) → r.tailOk x cut.toNat = true →
        (x.state = .lost → r.awakeFull = false) → x.dir.tier = 1 →
        exec (.sessionTruncate sq h handle cut) s
          = .next (completed s ((r.unhold n).truncate n cut.toNat) sq q h (.sessionTruncate handle cut) 0))

/-- 05 R130, R139, R151, R154: commands on sessions. The model's choices: truncation of a held IDLE session first takes the hold away (DEDUCED, log
entry 39); the order of SESSION_CREATE's checks and a DEST of SESSION_QUERY that is a multiple of 64 (DEDUCED, log entry 40). Completes:
SESSION_CREATE, SESSION_DROP, SESSION_TRUNCATE, SESSION_RELEASE, SESSION_PIN, SESSION_QUERY. -/
def Obligations.SessionCommands : Prop :=
  Sys2Proof.Parts.SessionsAreCreatedAndFreed ∧ Sys2Proof.Parts.SessionPinQueryTruncate

/-- 05 R131-R134, R155-R158: bindings and adapters are installed under their numbers and taken away. The model's choices (DESIGN CHOICE, log entry
59): ADAPTER_INSTALL answers ST_OK for a record whose AVER, WEIGHT_ADDR, WEIGHT_LEN and FMT are anything, and the versions of a number that became
free are forgotten. Completes: BIND_INSTALL, BIND_REMOVE, ADAPTER_INSTALL, ADAPTER_REMOVE. -/
def Obligations.BindingsAndAdapters : Prop :=
  ∀ (s t : State) (sq q : Nat) (h : CmdHdr),
    let ctx := h.ctx.toNat
    (∀ binding rcd, Accepted s t sq q h (.bindInstall binding rcd) [] → bindOk rcd = true →
        tblFind t.ses.binds (ctx * 256 + binding.toNat) = none →
        tblCount t.ses.binds (fun j _ => j / 256 == ctx) < t.obj 0x3106 1 → t.ses.binds.length < 1024 →
        exec (.bindInstall sq h binding rcd) s
          = .next (completed s (t.modSes fun g => { g with binds := tblIns g.binds (ctx * 256 + binding.toNat) rcd }) sq q h (.bindInstall binding rcd) 0))
    ∧ (∀ binding, Accepted s t sq q h (.bindRemove binding) [] → (tblFind t.ses.binds (ctx * 256 + binding.toNat)).isSome = true →
        tblAny t.ses.tbl (fun _ x => x.ctx == ctx && x.binding == binding.toNat && x.state != .free) = false →
        tblAny t.run.steps (fun _ p => p.d.ctx.toNat == ctx && p.d.binding.toNat == binding.toNat) = false →
        exec (.bindRemove sq h binding) s
          = .next (completed s (t.modSes fun g => { g with binds := tblDel g.binds (ctx * 256 + binding.toNat) }) sq q h (.bindRemove binding) 0))
    ∧ (∀ eventCq rcd old, Accepted s t sq q h (.adapterInstall eventCq rcd) [] → t.adapterIn ctx rcd.adapter.toNat = true →
        (tblFind t.ses.binds (ctx * 256 + rcd.binding.toNat)).isSome = true →
        old = (tblFind t.ses.adapters (ctx * 4096 + rcd.adapter.toNat)).getD ⟨ctx, rcd.binding.toNat, 0, []⟩ →
        old.binding = rcd.binding.toNat → (old.vers ≠ [] → old.last < rcd.version.toNat) → old.vers.length < 4 →
        exec (.adapterInstall sq h eventCq rcd) s
          = .next (completed s (((t.modSes fun g => { g with
              adapters := tblIns g.adapters (ctx * 4096 + rcd.adapter.toNat) { old with
                last := rcd.version.toNat
                vers := (old.vers.map fun v => { v with current := false }) ++ [⟨rcd.version.toNat, rcd, true, 0, eventCq.toNat⟩] } }).adRepin
                  ctx rcd.adapter.toNat rcd.version.toNat).adRetire ctx rcd.adapter.toNat)
              sq q h (.adapterInstall eventCq rcd) 0))
    ∧ (∀ adapter a, Accepted s t sq q h (.adapterRemove adapter) [] → tblFind t.ses.adapters (ctx * 4096 + adapter.toNat) = some a →
        t.adapterIn ctx adapter.toNat = true → a.cur.isSome = true →
        exec (.adapterRemove sq h adapter) s
          = .next (completed s ((t.modSes fun g => { g with
              adapters := tblIns g.adapters (ctx * 4096 + adapter.toNat) { a with vers := a.vers.map fun v => { v with current := false } } }).adRetire
                ctx adapter.toNat) sq q h (.adapterRemove adapter) 0))

/-! ### Parking, revival, migration, leases (06) -/

/-- 06 R171, R180, R185, R179: a PARK whose pages find runs is accepted; a REVIVE or REVIVE_HINT of a PARKED session; a new
time to live. -/
def Sys2Proof.Parts.ParkReviveAndTimeToLive : Prop :=
  ∀ (s t : State) (sq q : Nat) (h : CmdHdr) (handle : BitVec 24) (x : Session),
    let n := handle.toNat
    let ctx := h.ctx.toNat
    let r := (t.named ctx n).1
    (t.named ctx n).2 = .ok x →
    (∀ pfmt lease expiry dual dirOut ttl y runs dr v, Accepted s t sq q h (.park handle pfmt lease expiry dual dirOut ttl) [] →
        (x.state = .idle ∨ (x.state = .active ∧ x.parkPend = false)) → isParkFmt pfmt.toNat = true →
        bit (r.sbind x).parkMask.toNat (pfmt.toNat - 13) = true → expiry.toNat ≤ 1 →
        r.parkLeaseOk ctx lease.toNat expiry.toNat dual = true → y = ((r.unhold n).sess n).getD x →
        (r.unhold n).takeMove ctx lease.toNat ((r.unhold n).parkPages y pfmt.toNat) (if dirOut then some (extentFrames y.dir) else none)
          = some (runs, dr, v) →
        exec (.park sq h handle pfmt lease expiry dual dirOut ttl) s
          = .next (completed s (v.parkAccept n y pfmt.toNat lease.toNat expiry.toNat dual dirOut ttl runs dr) sq q h
              (.park handle pfmt lease expiry dual dirOut ttl) 0))
    ∧ (∀ narrow u, Accepted s t sq q h (.revive handle narrow) [] → x.state = .parked →
        (x.pdir.isSome = true → x.move.narrow = narrow) → r.reviveAccept n narrow false = .ok u →
        exec (.revive sq h handle narrow) s = .next (completed s u sq q h (.revive handle narrow) 0))
    ∧ (∀ narrow u, Accepted s t sq q h (.reviveHint handle narrow) [] → x.state = .parked →
        (x.pdir.isSome = true → x.move.narrow = narrow) → r.reviveAccept n narrow true = .ok u →
        exec (.reviveHint sq h handle narrow) s = .next (completed s u sq q h (.reviveHint handle narrow) 0))
    ∧ (∀ e ttl, Accepted s t sq q h (.ttlSet handle e ttl) [] → x.state = .parked → e.toNat ≤ 1 →
        (e.toNat = 1 → ∃ l y, dirCopyLease (x.pdir.getD x.dir) = some l ∧ r.leaseOk x.ctx l = true ∧ r.lease x.ctx l = some y
          ∧ y.rcd.tier.toNat = 2 ∧ y.rcd.demoteEn = true) →
        exec (.ttlSet sq h handle e ttl) s
          = .next (completed s (r.setSess n { x with ttlMs := ttl.toNat, expiry := e.toNat, ttlDeadline := s.tick + ttlTicks ttl.toNat }) sq q h
              (.ttlSet handle e ttl) 0))

/-- 05 R153; 06 R176-R178, R185: a pending park starts; a hint that is not confirmed lapses, and the session has its parked directory
again where no page landed without a copy in it; at the end of its time to live a session is dropped, leaving a tomb, or demoted. -/
def Sys2Proof.Parts.ParkedSessionsMoveOn : Prop :=
  ∀ (s : State) (n : Nat) (x : Session), s.live = true → s.sess n = some x →
    (x.state = .parking → x.parkPend = true → x.parkAt < s.dev.nclk → exec (.parkPendStart n) s = .next (s.parkStart n x))
    ∧ (x.sweep = false → x.state = .idle → x.move.held = true → x.parkAt < s.dev.nclk → s.past (x.move.start + s.obj 0x310B 1 x.ctx * 625000) = true →
        ∃ t, exec (.hintLapse n) s = .next t ∧ (t.sess n).map (fun y => (y.state, y.ctx)) = some (.parked, x.ctx)
          ∧ ∀ d, x.pdir = some d → (∀ e ∈ x.dir.ents, e.2.landed = true → (d.ent e.1).valid = true) → (t.sess n).map (·.dir) = some d)
    ∧ (x.state = .parked → s.plinthDown = false → x.demoting = false → x.mig = .none → s.past x.ttlDeadline = true → x.expiry = 1 →
        exec (.ttlExpiry n) s = .next ((s.sweepSess n).demoteStart n))
    ∧ (x.state = .parked → s.plinthDown = false → x.demoting = false → x.mig = .none → s.past x.ttlDeadline = true → x.expiry ≠ 1 →
        ∃ t, exec (.ttlExpiry n) s = .next t ∧ (t.sess n).map (fun y => (y.state, y.tomb, y.ctx)) = some (.free, true, x.ctx))

/-- 06 R171, R176-R180, R185: park, revival, time to live. Completes: PARK, PARK_PEND_START, REVIVE, REVIVE_HINT, HINT_LAPSE, TTL_SET, TTL_EXPIRY. -/
def Obligations.ParkingAndRevival : Prop :=
  Sys2Proof.Parts.ParkReviveAndTimeToLive ∧ Sys2Proof.Parts.ParkedSessionsMoveOn

/-- 06 R186: a free mover takes the first item of the context whose turn it is: a copy that has arrived, a page to be parked or sent
in a migration, a part of a checkpoint. -/
def Sys2Proof.Parts.MoversTakeTheNextItem : Prop :=
  ∀ (s : State) (m c cost a b : Nat) (it : MoverItem) (ue : Option Nat), m < 16 → s.live = true → s.quiescing = false →
    tblFind s.ses.movers m = none →
    let items := fun c => (s.moverItems c).filter fun i => i.2.2.2.free || decide (0 < s.tok c 1)
    s.fqPick 2 (s.ctxs.filter fun c => !(items c).isEmpty && s.slotOk c) = some c → firstItem (items c) = some (a, b, cost, it) →
    let busy := fun (j : MoverJob) => (s.fqTag 2 c cost).modSes fun g => { g with movers := tblIns g.movers m j }
    (∀ j, it = .stage j → j.land = true → ∃ t, exec (.pageMoverStart m ue) s = .next t ∧ tblFind t.ses.movers m = some j
        ∧ t.ses.staged = s.ses.staged.erase j)
    ∧ (∀ j, it = .stage j → j.land = false →
        exec (.pageMoverStart m ue) s = .next (((((s.fqTag 2 c cost).modSes fun g => { g with staged := g.staged.erase j }).modSes fun g => { g with
          movers := tblIns g.movers m { j with data := [] } }).reseal j.handle j.n j.second j.data).freeMovers))
    ∧ (∀ h x o, it = .park h dirIdx → (busy ⟨h, dirIdx, false, false, []⟩).sess h = some x → x.dirRun = some o →
        exec (.pageMoverStart m ue) s = .next ((busy ⟨h, dirIdx, false, false, []⟩).sendExtent h x o).freeMovers)
    ∧ (∀ h n, it = .park h n → n ≠ dirIdx →
        exec (.pageMoverStart m ue) s = .next ((busy ⟨h, n, false, false, []⟩).parkPage m h n ue).freeMovers)
    ∧ (∀ h n, it = .send h n →
        exec (.pageMoverStart m ue) s = .next ((busy ⟨h, n, false, false, []⟩).migPage m h n ue).freeMovers)
    ∧ (∀ k p, it = .drain k p →
        exec (.pageMoverStart m ue) s = .next ((busy ⟨2 ^ 24 + k, p, false, false, []⟩).sendPart k p).freeMovers)

/-- 06 R172, R186: a free mover whose turn falls on a page to be parked, and that reads it sound, sends its copy: the copy's run and CRC are
kept with the session, one nonce is used, HBM stays as it is but for the device areas, where the low-water record of a flow that makes room
(08 R240, R241) goes, and the mover holds the page, or no more once no copy of it is under way. -/
def Sys2Proof.Parts.PagesLeave : Prop :=
  ∀ (s : State) (m c cost a b h n o : Nat) (x : Session) (l : Lease), m < 16 → s.live = true → s.quiescing = false →
    tblFind s.ses.movers m = none →
    let items := fun c => (s.moverItems c).filter fun i => i.2.2.2.free || decide (0 < s.tok c 1)
    s.fqPick 2 (s.ctxs.filter fun c => !(items c).isEmpty && s.slotOk c) = some c → firstItem (items c) = some (a, b, cost, .park h n) →
    n ≠ dirIdx → s.sess h = some x → tblFind x.runs n = some o → x.move.dual = false → x.move.kind = 1 →
    let e := x.dir.ent n
    let len := pageBytes (s.sbind x) e.fmt
    let pay := s.hread e.frame 0 len
    s.hbad e.frame 0 len = none → crc32c pay = e.crc → parkFmtOf x.move.pfmt e = e.fmt →
    s.lease x.ctx x.move.lease = some l → l.valid = true → l.lost = false → s.idOk (leaseAddr l o) = true → (s.ownerOf (leaseAddr l o)).isSome = true →
    ∃ (t : State) (y : Session), exec (.pageMoverStart m none) s = .next t ∧ t.sess h = some y ∧ y.sent = tblIns x.sent n (o, e.crc) ∧ y.dir = x.dir
      ∧ t.sec.sealCtr = (s.sec.sealCtr + 1) % 2 ^ 80 ∧ (∀ i, inDeviceArea (i / 64) = false → memGet t.ses.hbm i = memGet s.ses.hbm i)
      ∧ (tblFind t.ses.movers m = some ⟨h, n, false, false, []⟩ ∨ (tblFind t.ses.movers m = none ∧ t.flying h n = false))

/-- 06 R182: a page whose copy opens under its key and checks lands: its frame holds the copy's bytes, expanded where R181 has it so, and
no other byte of HBM changes; its entry takes the CRC of what has landed and the next GEN, and is landed; the mover is free. In SEALED it
lands in a slot of its context (12 R361). -/
def Sys2Proof.Parts.PagesLand : Prop :=
  ∀ (s : State) (m : Nat) (j : MoverJob) (x : Session) (d : Dir) (pay : List Byte),
    m < 16 → s.live = true → s.plinthDown = false → tblFind s.ses.movers m = some j → j.land = true → tblWf s.ses.movers = true →
    s.sess j.handle = some x → s.slotOk x.ctx = true → x.pdir = some d →
    let e := x.dir.ent j.n
    let p := s.readPte x.ctx (d.ent j.n)
    e.copyPend = true → p.valid = true →
    openCopy (s.parkKey x.ctx) (s.pageAad x j.n (frameOff p.frame) p.fmt p.fill p.crc p.gen) j.data = some pay → crc32c pay = p.crc →
    let bs := s.landBytes x p e pay
    ∃ (t : State) (y : Session), exec (.pageLand m) s = .next t ∧ t.sess j.handle = some y ∧ tblFind t.ses.movers m = none
      ∧ (memWf s.ses.hbm = true → t.hread e.frame 0 bs.length = bs)
      ∧ (∀ i, i < 4096 * e.frame ∨ 4096 * e.frame + bs.length ≤ i → memGet t.ses.hbm i = memGet s.ses.hbm i)
      ∧ t.ses.cmem = s.ses.cmem
      ∧ (y.dir.ent j.n).crc = crc32c bs ∧ (y.dir.ent j.n).gen = e.gen + 1 ∧ (y.dir.ent j.n).frame = e.frame
      ∧ (y.dir.ent j.n).copyPend = false ∧ (y.dir.ent j.n).landed = (e.valid && e.tier == 1)

/-- 06 R172, R182, R186: the page movers. Completes: PAGE_MOVER_START, PAGE_LAND. -/
def Obligations.PageMovers : Prop :=
  Sys2Proof.Parts.MoversTakeTheNextItem ∧ Sys2Proof.Parts.PagesLeave ∧ Sys2Proof.Parts.PagesLand

/-- 06 R187, R188: the commands of a migration. -/
def Sys2Proof.Parts.MigrationCommands : Prop :=
  ∀ (s t : State) (sq q : Nat) (h : CmdHdr) (handle : BitVec 24),
    let n := handle.toNat
    let ctx := h.ctx.toNat
    let r := (t.named ctx n).1
    (∀ dev ph x u, Accepted s t sq q h (.migrate handle dev ph) [] → (t.named ctx n).2 = .ok x → (x.state = .idle ∨ x.state = .parked) →
        x.stepPins = 0 → (r.peerCtx x.ctx dev.toNat).isSome = true → u = (if 2 ≤ x.dir.tier then r.sweepExtent n x else r) →
        (u.sess n).map (·.state) ≠ some .lost →
        exec (.migrate sq h handle dev ph) s = .next (completed s (u.migStart n dev.toNat ph.toNat) sq q h (.migrate handle dev ph) 0))
    ∧ (∀ dev ev sh, Accepted s t sq q h (.migrateIn handle dev ev false sh) [] → t.inHandle ctx n = stOk → tblFind t.ses.migIn n = none →
        exec (.migrateIn sq h handle dev ev sh) s
          = .next (completed s (t.modSes fun g => { g with migIn := tblIns g.migIn n ⟨ctx, dev.toNat, sh.toNat, ev.toNat⟩ }) sq q h
              (.migrateIn handle dev ev false sh) 0))
    ∧ (∀ dev ev sh m, Accepted s t sq q h (.migrateIn handle dev ev true sh) [] → t.inHandle ctx n = stOk → tblFind t.ses.migIn n = some m →
        m.ctx = ctx →
        exec (.migrateInCancel sq h handle dev ev sh) s
          = .next (completed s (t.modSes fun g => { g with migIn := tblDel g.migIn n }) sq q h (.migrateIn handle dev ev true sh) 0))

/-- 06 R187, R188: each message of a migration takes effect when the inbox holds it, in the phase it belongs to; the two timeouts end
a migration that waits too long. -/
def Sys2Proof.Parts.MigrationMessages : Prop :=
  ∀ (s t : State) (n a : Nat) (x : Session), s.live = true → s.plinthDown = false → s.sess n = some x →
    (s.takeMsg (.accept n) = some (a, x.ctx, t) → x.mig = .offered →
        exec (.accept n) s = .next ((t.setSess n { x with mig := .sending }).migNext n))
    ∧ (∀ st : BitVec 16, s.takeMsg (.refuse n st.toNat) = some (a, x.ctx, t) → x.mig = .offered →
        exec (.refuse n st) s = .next (t.migBack n st.toNat))
    ∧ (s.takeMsg (.ready n) = some (a, x.ctx, t) → x.mig = .sentLast →
        exec (.ready n) s = .next ((t.setSess n { x with mig := .releasing }).migDecide n { x with mig := .releasing } (.release x.peerHandle)))
    ∧ (s.takeMsg (.release n) = some (a, x.ctx, t) → x.mig = .inReady → exec (.release n) s = .next (t.migComplete n))
    ∧ (s.takeMsg (.abort n) = some (a, x.ctx, t) → (x.mig = .inReceiving ∨ x.mig = .inReady) → exec (.abort n) s = .next (t.migDrop n))
    ∧ ((x.mig = .offered ∨ x.mig = .sentLast) → s.past x.migDeadline = true → exec (.migrateReadyTimeout n) s = .next (s.migAbort n stTimeout))
    ∧ (x.mig = .inReceiving → s.past x.migDeadline = true → exec (.migratePeerTimeout n) s = .next (s.migDrop n))

/-- 06 R187 steps 3 and 4: an OFFER that the peer can take makes an incoming session and is answered ACCEPT; one it cannot take is
answered REFUSE with the reason; either ends the hold that MIGRATE_IN put on the handle it matches. -/
def Sys2Proof.Parts.OffersAreAnswered : Prop :=
  ∀ (s t : State) (a : Nat) (o : Offer), s.live = true → s.plinthDown = false → s.takeMsg (.offer o) = some (a, o.ctx.toNat, t) →
    (∀ u v, t.migAccept o = .ok u → u.migSend o.ctx.toNat o.srcDev.toNat o.dstHandle.toNat (.accept o.srcHandle.toNat) [] = .ok v →
        exec (.offer o) s = .next (v.migReady o.dstHandle.toNat))
    ∧ (∀ st u v, t.migAccept o = .error st →
        u = (if (tblFind t.ses.migIn o.dstHandle.toNat).any (fun m =>
              m.ctx == o.ctx.toNat && m.srcDev == o.srcDev.toNat && m.srcHandle == o.srcHandle.toNat) then
            t.modSes fun g => { g with migIn := tblDel g.migIn o.dstHandle.toNat } else t) →
        u.migSend o.ctx.toNat o.srcDev.toNat o.dstHandle.toNat (.refuse o.srcHandle.toNat st) [] = .ok v → exec (.offer o) s = .next v)

/-- 06 R187, R188: a migration's commands, messages and timeouts. The model's choices (log entry 23): a message row acts only if the inbox holds
exactly its message (DESIGN CHOICE), and what an OFFER that timed out or was not taken leads to (DEDUCED). Completes: MIGRATE, MIGRATE_IN,
MIGRATE_IN_CANCEL, OFFER, ACCEPT, REFUSE, READY, RELEASE, ABORT, MIGRATE_READY_TIMEOUT, MIGRATE_PEER_TIMEOUT. -/
def Obligations.Migration : Prop :=
  Sys2Proof.Parts.MigrationCommands ∧ Sys2Proof.Parts.MigrationMessages ∧ Sys2Proof.Parts.OffersAreAnswered

/-- 06 R165-R167, R190, R191: leases are set, cleared and declared lost; the sweep follows a loss. The model's choices: the leases of a pair share
one bitmap, whose slabs either may hold (DESIGN CHOICE, log entry 38); LEASE_CLEAR of a lost lease sweeps first (DEDUCED, log entry 39). Completes:
LEASE_SET, LEASE_CLEAR, LEASE_LOST, LOSS_SWEEP. -/
def Obligations.Leases : Prop :=
  ∀ (s t : State) (sq q : Nat) (h : CmdHdr) (lease : BitVec 12),
    let ctx := h.ctx.toNat
    let l := lease.toNat
    (∀ ev rcd fs u t0, Accepted s t sq q h (.leaseSet lease ev rcd) [] → t.leaseSetOk ctx l rcd = true →
        t0 = t.leaveBitmap ctx l →
        (rcd.partnerEn = true → ∀ y, t0.lease ctx rcd.partner.toNat = some y → ¬(y.rcd.partnerEn = true ∧ y.rcd.partner.toNat = l)) →
        t0.unitsAlloc ctx t0.lowDie .lease ((rcd.len.toNat + 32767) / 32768) = some (fs, u) →
        exec (.leaseSet sq h lease ev rcd) s
          = .next (completed s (u.modSes fun g => { g with leases := tblIns g.leases (leaseKey ctx l) ⟨rcd, false, true, ev.toNat, [], 0, fs⟩ }) sq q h
              (.leaseSet lease ev rcd) 0))
    ∧ (∀ ev rcd y t0, Accepted s t sq q h (.leaseSet lease ev rcd) [] → t.leaseSetOk ctx l rcd = true →
        t0 = t.leaveBitmap ctx l → rcd.partnerEn = true →
        t0.lease ctx rcd.partner.toNat = some y → y.rcd.partnerEn = true → y.rcd.partner.toNat = l →
        exec (.leaseSet sq h lease ev rcd) s
          = .next (completed s (t0.modSes fun g => { g with leases := tblIns g.leases (leaseKey ctx l) ⟨rcd, false, true, ev.toNat, y.runs, y.cursor, []⟩ })
              sq q h (.leaseSet lease ev rcd) 0))
    ∧ (∀ x, Accepted s t sq q h (.leaseClear lease) [] → t.lease ctx l = some x → x.valid = true → x.lost = false → x.used = 0 →
        t.paired ctx l = none → tblFind t.cks.tbl ctx = none →
        exec (.leaseClear sq h lease) s
          = .next (completed s ((t.unitsFree x.slabs).modSes fun g => { g with leases := tblDel g.leases (leaseKey ctx l) }) sq q h (.leaseClear lease) 0))
    ∧ (∀ x v, Accepted s t sq q h (.leaseClear lease) [] → t.lease ctx l = some x → x.valid = true → x.lost = true →
        v = (t.ses.tbl.filter fun e => e.2.ctx == ctx && e.2.sweep).foldl (fun u e => u.sweepSess e.1) t → tblFind v.cks.tbl ctx = none →
        exec (.leaseClear sq h lease) s
          = .next (completed s ((v.leaveBitmap ctx l).modSes fun g => { g with leases := tblDel g.leases (leaseKey ctx l) }) sq q h
              (.leaseClear lease) 0))
    ∧ (Accepted s t sq q h (.leaseLost lease) [] → t.leaseOk ctx l = true →
        exec (.leaseLost sq h lease) s = .next (completed s (t.loseLease ctx l) sq q h (.leaseLost lease) 0))
    ∧ (∀ n x, s.live = true → (s.sweepSess n).sess n = some x → x.pdir = none → exec (.lossSweep n) s = .next (s.sweepSess n))
    ∧ (∀ n x, s.live = true → (s.sweepSess n).sess n = some x → x.pdir.isSome = true → (x.state = .reviving ∨ x.state = .lost) →
        x.move.suspended = false → exec (.lossSweep n) s = .next ((s.sweepSess n).reviveGo n))

/-- 05 R149; 16 R475: the scrub zeroes a freed frame; the patrol read counts a corrected line and handles an uncorrectable one. Completes:
FRAME_SCRUB, PATROL_READ. -/
def Obligations.ScrubAndPatrol : Prop :=
  ∀ (s : State) (n : Nat), s.live = true →
    ((tblFind s.ses.dirtyFrames n).isSome = true → s.cutOn (n / framesPerDie) = false → ∃ t, exec (.frameScrub n) s = .next t
        ∧ (∀ a, 4096 * n ≤ a → a < 4096 * (n + 1) → memGet t.ses.hbm a = 0)
        ∧ (∀ a, a < 4096 * n ∨ 4096 * (n + 1) ≤ a → memGet t.ses.hbm a = memGet s.ses.hbm a)
        ∧ t.ses.cmem = s.ses.cmem ∧ t.ses.tbl = s.ses.tbl ∧ t.run = s.run)
    ∧ (n < 4 * 98304 * 32768 → (tblFind s.err.failed n = none →
        exec (.patrolRead n .clean) s = .next s ∧ exec (.patrolRead n .corrected) s = .next (s.hbmCe n))
        ∧ exec (.patrolRead n .uncorrectable) s = .next ((s.hbmUe n 1 stHbmUe 0xFF none).lineBad n))

/-! ### The line fabric (07) -/

/-- 07 R202: a frame with a good CRC and the SEQ expected is accepted, its ACK frees what it covers, and SEQ counts modulo 4096; one with
a bad CRC asks for a resend; one with another SEQ is discarded. Completes: LINK_FRAME_RECEIVE. -/
def Sys2Proof.Parts.LinkFramesInOrder : Prop :=
  (∀ (s : State) (p : Nat) (f : LinkFrame), p < 18 → s.live = true → (s.port p).up = true → f.data.length = 8 →
    (f.crc = crc32c (frameBytes f) → f.seq.toNat = (s.port p).rxSeq →
        exec (.linkFrameReceive p f) s = .next ((s.fecCount p false).frameIn p f))
    ∧ (f.crc ≠ crc32c (frameBytes f) →
        exec (.linkFrameReceive p f) s = .next ((s.fecCount p true).setPort p { s.port p with retryOut := true }))
    ∧ (f.crc = crc32c (frameBytes f) → f.seq.toNat ≠ (s.port p).rxSeq →
        exec (.linkFrameReceive p f) s = .next (s.fecCount p false)))
  ∧ ∀ (x : Port) (f : LinkFrame) (t : Nat),
    (x.accept f t).rxSeq = (x.rxSeq + 1) % 4096 ∧ (x.accept f t).replay = ackReplay f.ack.toNat x.replay
    ∧ (x.accept f t).retryOut = x.retryOut ∧ (x.accept f t).txSeq = x.txSeq
    ∧ (x.fresh = false → (x.accept f t).credits = x.credits.set f.cvc.toNat (x.credits.getD f.cvc.toNat 0 + f.credits.toNat))

/-- 07 R199, R200, R204: bring-up gives node and identity once; training ends with four lanes, two, or none; a lane that falls silent
makes the port retrain on a pair that still carries a signal, or takes it down. Completes: PORT_BRINGUP, PORT_TRAINING_DONE,
PORT_LANE_LOSS. -/
def Sys2Proof.Parts.PortsTrainAndFail : Prop :=
  ∀ (s : State) (p : Nat), p < 18 → s.live = true → s.fab.ports.length = 18 →
    (∀ node id : BitVec 16, s.fabricUp = true → s.fab.named = false → exec (.portBringup node id) s
        = .next (s.modFab fun g => { g with node := node.toNat, ownId := id.toNat, named := true }))
    ∧ (∀ node id : BitVec 16, s.fab.named = true → exec (.portBringup node id) s = .next s)
    ∧ ((s.port p).state = 1 → (s.port p).replay = [] → (s.port p).retryOut = false → (s.port p).ackSent = (s.port p).rxSeq →
        s.fab.sendQ = [] →
        ∃ t, exec (.portTrainingDone p 4) s = .next t ∧ (t.port p).state = 2 ∧ (t.port p).lanes = 15 ∧ (t.port p).credits = vcBuffers)
    ∧ ((s.port p).state = 1 → s.fab.sendQ = [] → ∃ t, exec (.portTrainingDone p 2) s = .next t ∧ (t.port p).state = 3)
    ∧ (∀ w, (s.port p).state = 1 → w ≠ 4 → w ≠ 2 → exec (.portTrainingDone p w) s = .next ((s.portDown p).domEnd (0x20 + p)))
    ∧ ((s.port p).up = true → (s.port p).lanes = 15 → exec (.portLaneLoss p 3) s = .next (s.portRetrain p 3)
        ∧ exec (.portLaneLoss p 12) s = .next (s.portRetrain p 12) ∧ exec (.portLaneLoss p 9) s = .next (s.portDown p))

/-- 07 R199-R204: link frames and the ports. -/
def Obligations.LinksAndPorts : Prop :=
  Sys2Proof.Parts.LinkFramesInOrder ∧ Sys2Proof.Parts.PortsTrainAndFail

/-- 07 R222, R226: a map is staged in chunks and takes effect whole at MAP_COMMIT, with the epoch that follows, and the map before it becomes the
previous one; one that fails a check changes no map; either is acknowledged, in order, when every request that passed before has been answered. The
model's choice: acknowledgments queue, and one MAP_ACK_SEND sends one (DESIGN CHOICE, log entry 19). Completes: MAP_BEGIN, MAP_DATA, MAP_COMMIT,
MAP_ACK_SEND. -/
def Obligations.MapsAreStagedAndCommitted : Prop :=
  ∀ (s : State) (e crc : W32), s.live = true → s.fabricUp = true → s.fab.named = true →
    (∀ a b c, exec (.mapBegin e a b c) s = .next (s.modFab fun g => { g with staging := some ⟨e, a, b, c, []⟩ }))
    ∧ (∀ m off data, s.fab.staging = some m → data.length ≤ 4096 → exec (.mapData off data) s
        = .next (s.modFab fun g => { g with staging := some { m with bytes := memWrite m.bytes off data } }))
    ∧ (∀ m, s.fab.staging = some m → m.epoch = e → e = epSucc s.fab.map.epoch →
        crc32c (memRead m.bytes 0 (m.idBytes + m.extBytes + m.gwBytes)) = crc → s.mapOk m (mapOf m) = true →
        exec (.mapCommit e crc) s = .next (s.modFab fun g =>
          { g with staging := none, prevMap := g.map, map := mapOf m, mapAck := g.mapAck ++ [(e, stOk)] }).mapEffects)
    ∧ (∀ m, s.fab.staging = some m → e ≠ epSucc s.fab.map.epoch → ∃ t, exec (.mapCommit e crc) s = .next t
        ∧ t.fab.map = s.fab.map ∧ t.fab.prevMap = s.fab.prevMap ∧ t.fab.staging = none ∧ t.fab.mapAck = s.fab.mapAck ++ [(e, stMap)])
    ∧ (∀ m, s.fab.staging = some m →
        (m.epoch ≠ e ∨ crc32c (memRead m.bytes 0 (m.idBytes + m.extBytes + m.gwBytes)) ≠ crc ∨ s.mapOk m (mapOf m) = false) →
        ∃ t, exec (.mapCommit e crc) s = .next t ∧ t.fab.map = s.fab.map ∧ t.fab.prevMap = s.fab.prevMap ∧ t.fab.staging = none
          ∧ t.fab.mapAck = s.fab.mapAck ++ [(e, stMap)])
    ∧ (s.fab.staging = none → ∃ t, exec (.mapCommit e crc) s = .next t ∧ t.fab.map = s.fab.map ∧ t.fab.prevMap = s.fab.prevMap
        ∧ t.fab.mapAck = s.fab.mapAck ++ [(e, stMap)])
    ∧ (∀ st rest, s.fab.mapAck = (e, st) :: rest → s.requestsDue (fun _ => true) = false → exec .mapAckSend s
        = .next ((s.modFab fun g => { g with mapAck := rest }).send 3 1 false (.mapAck e st)))

/-- 07 R215, R216; 12 R355: a region is set under a key its slot did not last hold; clearing it completes when no GET is being served
from it, no answer waits to leave and no held write is due to it; a quarantine ends at its time. Completes: REGION_SET, REGION_CLEAR,
REGION_CLEAR_DONE, QUARANTINE_END. -/
def Obligations.RegionsAreSetAndCleared : Prop :=
  ∀ (s t : State) (sq q : Nat) (h : CmdHdr) (first : BitVec 16),
    let ctx := h.ctx.toNat
    let f := first.toNat
    (∀ r, Accepted s t sq q h (.regionSet first r) [] → t.regionFieldsOk ctx f r = true →
        tblAny t.fab.regions (fun g x => overlaps f (regSlots r) g (regSlots x.rcd)) = false → tblFind t.fab.lastKeys f ≠ some r.key →
        ∃ lk, exec (.regionSet sq h first r) s
          = .next (completed s (t.modFab fun g => { g with regions := tblIns g.regions f ⟨r, ctx, false, true⟩, lastKeys := lk }) sq q h (.regionSet first r) 0))
    ∧ (∀ r, Accepted s t sq q h (.regionSet first r) [] → t.regionFieldsOk ctx f r = true → tblFind t.fab.lastKeys f = some r.key →
        exec (.regionSet sq h first r) s = .next (rejected s t sq q h (.regionSet first r) stRegionBusy))
    ∧ (∀ r, Accepted s t sq q h (.regionClear first) [] → tblFind t.fab.regions f = some r → r.ctx = ctx → r.closing = false →
        exec (.regionClear sq h first) s = .next (t.modFab fun g => { g with
          regions := tblIns g.regions f { r with closing := true }, closes := tblIns g.closes f ⟨sq, h.tag, q, ctx, t.sqHeadOf sq⟩ }))
    ∧ (∀ n r c, s.live = true → tblFind s.fab.regions n = some r → tblFind s.fab.closes n = some c →
        s.requestsDue (regionCovers n r.rcd) = false →
        exec (.regionClearDone n) s = .next ((s.modFab fun g => { g with
          regions := tblDel g.regions n, closes := tblDel g.closes n }).cmdDone
            c.sq c.cq c.ctx c.head c.tag 0xB1 stOk 0))
    ∧ (∀ node n till, s.live = true → tblFind s.bulk.quar (node * 65536 + n) = some till → till ≤ s.tick →
        exec (.quarantineEnd node n) s = .next (s.modBulk fun g => { g with quar := tblDel g.quar (node * 65536 + n) }))

namespace Sys2Proof.Machine

/-- The request is for this node, which answers requests; it is well formed and no gateway business. -/
def ForThisNode (s : State) (r : LineReq) : Prop :=
  r.dstNode.toNat = s.fab.node ∧ s.resting = false ∧ lineFormOk r = true
  ∧ (s.gateway = true → ∀ o, s.ownerOf r.addr.toNat = some o → o.1 / 4096 = s.bay)

/-- What a request wants of the region. -/
def linePerm (r : LineReq) : Perm := if r.op.toNat = 1 then .read else if r.op.toNat = 2 then .write else .atom

end Sys2Proof.Machine

/-- 07 R205, R217, R224: a request is taken once a slot for its response is reserved and no earlier one waits before it; it is performed
when every check of R217 passes; the first that fails gives the answer's status, and memory is as before. Completes:
LINE_REQUEST_RECEIVE. -/
def Sys2Proof.Parts.LineRequestsAreCheckedInOrder : Prop :=
  (∀ (s : State) (p : Nat) (r : LineReq), s.answering = true → (s.port p).up = true →
    (s.inBehind p r = false → s.rspSlot r = true →
        exec (.lineRequestReceive p r) s = .next ((s.takeFlits p (reqVc r) (reqFlits r)).lineIn p r))
    ∧ (s.inBehind p r = true ∨ s.rspSlot r = false →
        exec (.lineRequestReceive p r) s = .next (s.modFab fun g => { g with inQ := g.inQ ++ [⟨p, r, none⟩] })))
  ∧ ∀ (s : State) (p : Nat) (r : LineReq),
    (r.dstNode.toNat ≠ s.fab.node → (s.lineIn p r).ses = s.ses ∧ (s.lineIn p r).fab = s.fab)
    ∧ (r.dstNode.toNat = s.fab.node → s.resting = true → s.lineIn p r = s.answer r stBusy 0 [])
    ∧ (r.dstNode.toNat = s.fab.node → s.resting = false → lineFormOk r = false → s.lineIn p r = s.answer r stLineFormat 0 [])
    ∧ (∀ st, ForThisNode s r → s.epochCheck r.epoch r.addr.toNat (r.op != 1) = .error st → s.lineIn p r = s.answer r st 0 [])
    ∧ (∀ sl t st, ForThisNode s r → s.epochCheck r.epoch r.addr.toNat (r.op != 1) = .ok sl →
        s.regionCheck r.srcNode.toNat sl (hallOff r.addr.toNat) (reqSize r) r.key (linePerm r) = (t, .error st) →
        s.lineIn p r = t.answer r st 0 [])
    ∧ (∀ sl t ctx ca, ForThisNode s r → s.epochCheck r.epoch r.addr.toNat (r.op != 1) = .ok sl →
        s.regionCheck r.srcNode.toNat sl (hallOff r.addr.toNat) (reqSize r) r.key (linePerm r) = (t, .ok (ctx, ca)) →
        (r.op.toNat = 1 ∨ t.uncopied ctx ca (reqSize r) = [] → s.lineIn p r = t.performLine r ctx ca)
        ∧ (r.op.toNat ≠ 1 → t.uncopied ctx ca (reqSize r) ≠ [] → s.lineIn p r = (t.cbwHold (t.uncopied ctx ca (reqSize r))).modFab fun g =>
            { g with inQ := g.inQ ++ [⟨p, r, some (ctx, ca, sl)⟩] }))

/-- 07 R217: a key that is not the region's is answered ST_KEY; a key that is, without the permission, ST_REGION_PERM. -/
def Sys2Proof.Parts.KeysGuardRegions : Prop :=
  ∀ (s : State) (src sl off n first : Nat) (key : W32) (perm : Perm) (g : Region), s.regionAt sl = some (first, g) →
    (g.rcd.key ≠ key → (s.regionCheck src sl off n key perm).2 = .error stKey)
    ∧ (g.closing = true → (s.regionCheck src sl off n key perm).2 = .error stKey)
    ∧ (g.rcd.len.toNat * 4096 < (sl - first) * 2 ^ 32 + off + n → (s.regionCheck src sl off n key perm).2 = .error stKey)
    ∧ (tblFind s.bulk.quar (src * 65536 + first) = none → g.valid = true → g.closing = false → g.rcd.key = key →
        (sl - first) * 2 ^ 32 + off + n ≤ g.rcd.len.toNat * 4096 →
        (regPermits g.rcd perm = false → s.regionCheck src sl off n key perm = (s, .error stRegionPerm))
        ∧ (regPermits g.rcd perm = true →
            s.regionCheck src sl off n key perm = (s, .ok (g.ctx, g.rcd.tbase.toNat + ((sl - first) * 2 ^ 32 + off)))))

/-- 07 R217, R224: the checks of a line request. -/
def Obligations.LineRequestsAreChecked : Prop :=
  Sys2Proof.Parts.LineRequestsAreCheckedInOrder ∧ Sys2Proof.Parts.KeysGuardRegions

/-- 07 R208, R220; 12 R342: READ64 answers the 64 bytes; an unmasked WRITE64 stores the payload, and the line HBM holds is the payload
under the context's key and the line's address; an atomic answers the old word and stores the new one. Every other byte of context memory
reads as before. -/
def Obligations.LineOperationsOnMemory : Prop :=
  ∀ (s : State) (r : LineReq) (ctx a : Nat), ctx < 256 → a + 64 ≤ 2 ^ 48 → memWf s.ses.cmem = true →
    (r.op.toNat = 1 → s.cbad ctx a 64 = none → s.performLine r ctx a = s.answer r stOk 0 (s.cread ctx a 64))
    ∧ (r.op.toNat = 2 → r.operand.toNat = 2 ^ 64 - 1 → r.payload.length = 64 →
        ∃ t : State, s.performLine r ctx a = t.answer r stOk 0 [] ∧ t.cread ctx a 64 = r.payload
          ∧ (∀ b, b < ckey ctx a ∨ ckey ctx a + 64 ≤ b → memGet t.ses.cmem b = memGet s.ses.cmem b)
          ∧ ∀ k, a % 64 = 0 → s.memKey ctx = some k → t.rawCtxLine ctx a = some (rawBytes k (ctxLine (ckey ctx a)) r.payload))
    ∧ (0x10 ≤ r.op.toNat → r.op.toNat ≤ 0x13 → s.cbad ctx a 8 = none →
        ∃ t : State, s.performLine r ctx a = t.answer r stOk (s.cnum ctx a 8) [] ∧ t.cnum ctx a 8 = lineMerge r.op.toNat (s.cnum ctx a 8) r.operand.toNat
          ∧ ∀ b, b < ckey ctx a ∨ ckey ctx a + 8 ≤ b → memGet t.ses.cmem b = memGet s.ses.cmem b)

/-- 07 R209, R218: the request of a transaction leaves, one that ST_MOVED sent back first; requests for one line of one context travel
together where COMB is set. Completes: LINE_REQUEST_SEND. -/
def Sys2Proof.Parts.LineRequestsAreSent : Prop :=
  ∀ (s t : State) (n : Nat) (x : Txn), s.live = true → s.txn n = some x → s.lineReady x = true →
    (∀ l, x.head = some (l, true) → s.lineTx n { x with again := x.again.erase l } l true true true = some t →
        exec (.lineRequestSend n) s = .next t)
    ∧ (∀ l, x.head = some (l, false) → (s.combine n x l.item).length = 1 → l.parts = [] →
        s.lineTx n { x with todo := x.todo.erase l.item } l false true false = some t → exec (.lineRequestSend n) s = .next t)
    ∧ (∀ l p ps, x.head = some (l, false) → s.combine n x l.item = p :: ps → ps ≠ [] →
        s.lineTx n { x with todo := x.todo.erase l.item, shared := x.shared ++ [l.item] } { l with parts := p :: ps } false true false
          = some t → exec (.lineRequestSend n) s = .next t)

/-- 07 R210, R225; 08 R256: a response ends its request, or makes it wait or go again; waits and the timeout of a transaction run out.
Completes: LINE_RESPONSE_RECEIVE, LINE_TIMEOUT, EPOCH_WAIT_REPLAY, GATEWAY_BUSY_REPLAY. -/
def Sys2Proof.Parts.LineResponsesAndReplays : Prop :=
  ∀ (s : State) (p n : Nat) (x : Txn), s.live = true → s.txn n = some x →
    (∀ (r : LineRsp) (l : LineSent), (s.port p).up = true → r.txn.toNat = n → r.dstNode.toNat = s.fab.node → r.op.toNat = x.op →
        x.sent.find? (fun l => x.op != 1 || l.item.line == r.line.toNat) = some l →
        let y := { x with sent := x.sent.erase l, epoch := none }
        let u := s.takeFlits p 1 (if r.payload.isEmpty then 1 else 3)
        (r.status.toNat = stOk → exec (.lineResponseReceive p r) s = .next ((u.setTxn n y).sentDone n x.op l stOk r.value.toNat r.payload))
        ∧ (r.status.toNat = stMoved → exec (.lineResponseReceive p r) s
            = .next (u.lineAgain n y { l with wait := .none, hint := some (r.epoch, r.hintNode.toNat) }))
        ∧ (r.status.toNat = stEpochWait → exec (.lineResponseReceive p r) s
            = .next (u.setTxn n { y with again := y.again ++ [{ l with wait := .epoch (s.tick + s.obj 0x4007 1 * 625), hint := none }] })))
    ∧ (∀ d, x.deadline = some d → s.past d = true →
        (x.sent = [] → exec (.lineTimeout n) s = .next (s.txnEnd n x stTimeout 0 []))
        ∧ (x.sent ≠ [] → exec (.lineTimeout n) s
            = .next ((s.modFab fun g => { g with spent := tblIns g.spent n x.sent.length }).txnEnd n x stTimeout 0 [])))
    ∧ (∀ l till t, x.again = [l] → l.wait = .epoch till → s.past till = true →
        s.lineTx n { x with again := [] } l true false true = some t → exec (.epochWaitReplay n) s = .next t)
    ∧ (∀ l till t, x.again = [l] → l.wait = .gateway till → s.past till = true →
        s.lineTx n { x with again := [] } l true false false = some t → exec (.gatewayBusyReplay n) s = .next t)

/-- 07 R209, R210, R218, R225; 08 R256: requests sent and their responses. -/
def Obligations.LineTransactions : Prop :=
  Sys2Proof.Parts.LineRequestsAreSent ∧ Sys2Proof.Parts.LineResponsesAndReplays

/-- 08 R255: a record message closes GW_BATCH ns after its first record. Completes: GW_BATCH_CLOSE. -/
def Sys2Proof.Parts.GatewayBatchesClose : Prop :=
  ∀ (s : State) (far : Nat) (b : Batch), s.live = true → tblFind s.fab.batches (2 * far) = some b →
    s.obj 0x4205 3 * 5 ≤ (s.tick - b.first) * 8 →
    tblFind s.fab.batches (2 * far + 1) = none →
    exec (.gwBatchClose far) s = .next (s.gwClose (2 * far))

/-! ### Bulk transport (08) and key exchange (12) -/

/-- 08 R235, R247, R254: what is due again goes first, then the rest of an open message, then a new one; a flow without a usable key starts
an agreement, and one with no way to its node ends what waits. Completes: BULK_PACKET_SEND. -/
def Sys2Proof.Parts.BulkPacketsLeaveInOrder : Prop :=
  ∀ (s t : State) (n : Nat) (f : Flow), s.live = true → s.bulk.noFlow = [] → s.flow n = some f →
    (f.waiting ≠ [] → s.hop n 0 = none → exec (.bulkPacketSend n) s = .next (s.endWaiting n stNoRoute))
    ∧ ((s.hop n 0).isSome = true →
      (f.waiting ≠ [] → s.txKey n f = none → exec (.bulkPacketSend n) s = .next (s.hello n))
      ∧ (∀ k a, s.txKey n f = some k → s.dueAgain f = some a → s.resend n a.1 a.2 = some t → exec (.bulkPacketSend n) s = .next t)
      ∧ (∀ k e, s.txKey n f = some k → s.dueAgain f = none → s.openMsg f = some e → f.inflight + e.2.counted e.2.next ≤ f.win →
          s.bulkTx n e.1 e.2.next f e.2 = some t → exec (.bulkPacketSend n) s = .next t)
      ∧ (∀ k, s.txKey n f = some k → s.dueAgain f = none → s.openMsg f = none → f.waiting ≠ [] → s.startMsg n f = some t →
          exec (.bulkPacketSend n) s = .next t))

/-- 08 R235, R247, R255: what leaves for another node. The model's choice: a flow sends what is due again first, then the rest of an open message,
then a new one (DEDUCED, log entry 48); R235, R247 and R254 give no such order. -/
def Obligations.BulkSending : Prop :=
  Sys2Proof.Parts.GatewayBatchesClose ∧ Sys2Proof.Parts.BulkPacketsLeaveInOrder

/-- 08 R246: an ACK that verifies and answers a packet outstanding is acted on by its status; one that refers to nothing is counted and
discarded. Completes: BULK_ACK_RECEIVE, BULK_PLACED_RECEIVE. -/
def Sys2Proof.Parts.AcknowledgmentsMatchPackets : Prop :=
  ∀ (s : State) (p : Nat) (a : BulkAns), s.live = true → (s.port p).up = true → a.dstNode.toNat = s.fab.node →
    (s.gateway = false ∨ a.finalNode.toNat = s.fab.node) →
    let u := s.takeFlits p 1 3
    (∀ f m k x, s.flow a.srcNode.toNat = some f → a.typ.toNat = 8 → a.hver.toNat = 1 → a.msgId.toNat / 2 ^ 48 = s.dev.bootEpoch →
        tblFind f.msgs (a.msgId.toNat % 2 ^ 48) = some m → tblFind m.pkts a.offset.toNat = some k → answered k.tx a = some x →
        s.ansOk a.srcNode.toNat x a = true → k.acked = false →
        exec (.bulkAckReceive p a) s = .next (u.ackIn a.srcNode.toNat (a.msgId.toNat % 2 ^ 48) a.offset.toNat f m k a))
    ∧ (s.flow a.srcNode.toNat = none → exec (.bulkAckReceive p a) s = .next (u.count 0x4008 5))
    ∧ (∀ f l x, s.flow a.srcNode.toNat = some f → f.flush = some l → a.typ.toNat = 9 → a.hver.toNat = 1 →
        a.msgId.toNat = l.upto + s.dev.bootEpoch * 2 ^ 48 → answered l.tx a = some x → s.ansOk a.srcNode.toNat x a = true →
        exec (.bulkPlacedReceive p a) s = .next (l.waits.foldl (fun v w => v.msgPlaced w) (u.flushEnd a.srcNode.toNat f l)))

/-- 08 R250: the FLUSH goes out when what it covers has left the flow; PLACED answers one that the low-water mark has reached. Completes:
FLUSH_SEND, PLACED_SEND. -/
def Sys2Proof.Parts.FlushAndPlaced : Prop :=
  ∀ (s : State) (n : Nat) (f : Flow), s.live = true → s.flow n = some f →
    (∀ l k, f.flush = some l → l.tx = [] → l.upto ≤ f.floor → f.inflight + 64 ≤ f.win → s.txKey n f = some k →
        exec (.flushSend n) s = .next (s.flushTx n))
    ∧ (∀ l key, (∀ h ∈ s.bulk.held, h.pkt.srcNode.toNat ≠ n) →
        f.pendFlush.find? (fun l => decide (l.upto ≤ f.lw)) = some l → keyFor (s.fkeys n).rx (s.fkeys n).rxPrev l.xmit = some key →
        exec (.placedSend n) s = .next ((s.setFlow n { f with pendFlush := f.pendFlush.erase l }).bulkAns 9 n (l.upto + f.peerEpoch * 2 ^ 48) 0
          l.ts.toNat l.xmit key stOk 0 l.delay l.ce))

/-- 08 R247, R251, R242: a packet without an answer in time is sent again with the window halved; a message, a GET and a low-water record
end at their horizons. Completes: BULK_RETX_TIMEOUT, BULK_MESSAGE_HORIZON, GET_TIMEOUT, LW_RECORD_DISCARD. -/
def Sys2Proof.Parts.BulkTimeouts : Prop :=
  ∀ (s : State) (n seq off : Nat), s.live = true →
    (∀ f m p t, s.flow n = some f → seq ≠ 0 → tblFind f.msgs seq = some m → tblFind m.pkts off = some p → p.acked = false → p.again = false →
        s.past (p.sentAt + p.timeout) = true → s.inTime m = true →
        let u := s.setFlow n { f.cut true with msgs := tblIns f.msgs seq { m with
          pkts := tblIns m.pkts off { p with again := true, remap := false, waitTill := s.tick } } }
        u.resend n seq off = some t → exec (.bulkRetxTimeout n seq off) s = .next t)
    ∧ (∀ f m at_, s.flow n = some f → seq ≠ 0 → tblFind f.msgs seq = some m → m.first = some at_ → s.past (at_ + 625000000) = true →
        exec (.bulkMessageHorizon n seq) s = .next (s.bulkEnd n seq stTimeout m))
    ∧ (∀ g, tblFind s.bulk.gets (n * 2 ^ 48 + seq) = some g → s.past g.deadline = true → s.flow n = none →
        exec (.getTimeout n seq) s = .next (((s.modBulk fun b => { b with
          gets := tblDel b.gets (n * 2 ^ 48 + seq) }).count 0x4204 3).msgFail g.purpose stTimeout))
    ∧ (∀ r, s.lwGet n 1 = some r → s.obj 0x4201 1 * 625000 ≤ (s.tick % 2 ^ 52 + 2 ^ 52 - r.stamp * 2 ^ 20) % 2 ^ 52 →
        exec (.lwRecordDiscard n) s = .next (s.lwPut n 1 none))

/-- 08 R246, R247, R250, R251: answers, FLUSH and PLACED, timeouts. The model's choices: an ACK that refers to nothing counts in 0x4008.5 (DEDUCED,
log entry 42), and sequence 0 stands for the FLUSH in the timeout row (DESIGN CHOICE, log entry 48). `Flow.cut` is R247's halving of the window. -/
def Obligations.BulkAnswersAndTimeouts : Prop :=
  Sys2Proof.Parts.AcknowledgmentsMatchPackets ∧ Sys2Proof.Parts.FlushAndPlaced ∧ Sys2Proof.Parts.BulkTimeouts

/-- 08 R243, R251, R254: a packet for this device is checked and taken, once a slot for its answer is free (07 R205); one for another node is passed on by a gateway, with CE after a long
wait, or dropped and counted; the data of a GET being served becomes a message. Completes: BULK_PACKET_RECEIVE, GATEWAY_RELAY,
GATEWAY_RELAY_DROP, GET_DATA_SEND. -/
def Sys2Proof.Parts.BulkPacketsArriveOrAreRelayed : Prop :=
  ∀ (s : State) (p : Nat) (k : BulkPkt), s.live = true → (s.port p).up = true →
    (s.answering = true → k.dstNode.toNat = s.fab.node → s.relays k = false → isKeyx k = false →
        exec (.bulkPacketReceive p k) s = .next (if s.bulkRoom p = true then (s.takeFlits p 0 (bulkFlits k)).bulkIn k (s.waited p 0)
          else s.modBulk fun b => { b with waitQ := b.waitQ ++ [(p, k)] }))
    ∧ (∀ wait hop trunk q t, s.relays k = true → wait ≤ 2000 → s.hop k.finalNode.toNat (pairNum k.addr.toNat) = some (hop, trunk) →
        s.nextPort s.fab.rotor 0 (bulkFlits k) trunk none = some q → s.classTurn q 0 (bulkFlits k) = some t →
        exec (.gatewayRelay p k wait) s = .next (((t.takeFlits p 0 (bulkFlits k)).sendPkt q 0 (bulkFlits k) (.bulk { k with
          dstNode := BitVec.ofNat 16 hop, ce := k.ce || decide (500 < wait) })).modFab fun g => { g with rotor := q }))
    ∧ (s.relays k = true → exec (.gatewayRelayDrop p k) s = .next ((s.takeFlits p 0 (bulkFlits k)).count 0x4205 6))
    ∧ (∀ n seq g f u, tblFind s.bulk.serves (n * 2 ^ 48 + seq) = some g → g.sent = false → s.cbad g.ctx g.caddr g.len = none → s.flowLoad n = some u → u.flow n = some f →
        exec (.getDataSend n seq) s = .next ((s.modBulk fun b => { b with
          serves := tblIns b.serves (n * 2 ^ 48 + seq) { g with sent := true } }).bulkIssue n
            (bulkMsg 3 g.ctx 3 0 0 (seq + f.peerEpoch * 2 ^ 48) g.len (s.cread g.ctx g.caddr g.len) (.getData n seq))))

/-- 08 R243: a packet whose tag does not verify under the flow's key is discarded and counted, and memory is as before. -/
def Sys2Proof.Parts.ForgedPacketsAreDiscarded : Prop :=
  ∀ (s s1 : State) (k : BulkPkt) (f : Flow) (key delay : Nat), s.flowLoad k.srcNode.toNat = some s1 → s1.flow k.srcNode.toNat = some f →
    keyFor (s1.fkeys k.srcNode.toNat).rx (s1.fkeys k.srcNode.toNat).rxPrev k.xmit.toNat = some key →
    Config.gcmTag key k.xmit.toNat (bulkAad { k with dstNode := 0, ce := false }) k.payload ≠ k.tag →
    s.bulkIn k delay = s1.count 0x4204 4 ∧ (s.bulkIn k delay).ses = s1.ses

/-- 08 R243, R254: packets that arrive. -/
def Obligations.BulkArrivals : Prop :=
  Sys2Proof.Parts.BulkPacketsArriveOrAreRelayed ∧ Sys2Proof.Parts.ForgedPacketsAreDiscarded

/-- 12 R349, R350: a valid hello is answered and counted; a reply to an own hello gives the flow its keys; a reply that fails ends the messages that
wait with ST_ATTEST. That a failed reply while a hello is outstanding ends the waiting messages with ST_ATTEST is the model's choice (DEDUCED, log
entry 48). Completes: KEYX_RECEIVE. -/
def Obligations.KeyExchange : Prop :=
  ∀ (s t : State) (p : Nat) (k : Keyx), s.answering = true → (s.port p).up = true →
    (s.takeFlits p 0 31).flowLoad k.srcNode.toNat = some t →
    (k.role.toNat = 0 → t.keyxOk k = true → exec (.keyxReceive p k) s = .next ((t.helloIn k).count 0x7007 2))
    ∧ (∀ h, k.role.toNat = 1 → (t.fkeys k.srcNode.toNat).hello = some h → t.keyxOk k = true → k.peerFresh = h.fresh →
        exec (.keyxReceive p k) s = .next ((t.replyIn k h).count 0x7007 2))
    ∧ (∀ h, k.role.toNat = 1 → (t.fkeys k.srcNode.toNat).hello = some h → t.keyxOk k = false →
        exec (.keyxReceive p k) s = .next ((t.helloEnd k.srcNode.toNat stAttest).count 0x7007 3))

/-! ### Owners of addresses (07), scales of numbers (02) -/

/-- 07 R223: a node owns an address by the extent record that covers it, at LOCAL + s − FIRST, or, where none covers it, by the identity's own
entry, at s; under a HELD record (state 2) it owns the address for reads only. -/
def Obligations.OwnersOfAddresses : Prop :=
  (∀ (m : CompMap) (e : Extent) (x sl : Nat), e ∈ m.exts → e.id = x → e.first ≤ sl → sl ≤ e.last →
      (∀ f ∈ m.exts, f.id = x → f.first ≤ sl → sl ≤ f.last → f = e) →
      m.owner x sl = some (e.node, e.localSlot + sl - e.first, e.state == 2))
  ∧ (∀ (m : CompMap) (x sl : Nat), (∀ f ∈ m.exts, ¬(f.id = x ∧ f.first ≤ sl ∧ sl ≤ f.last)) →
      m.owner x sl = if (m.idEnt x).kind = 0 then none else some ((m.idEnt x).node, sl, false))
  ∧ (∀ (s : State) (e : W32) (a sl : Nat), s.ownerOf a = some (s.fab.node, sl, true) →
      s.epochCheck e a true = .error stEpochWait ∧ (epNewer s.fab.prevMap.epoch e = false → s.epochCheck e a false = .ok sl))

/-- 02 R36: the sign bit of an E4M3 scale (FP4S, PK8, PK3) is read as 0 and written as 0, and S.1111.111 makes every element NaN. -/
def Obligations.ScaleSignsAndNaNs : Prop :=
  (∀ c : Nat, scaleVal 12 c = scaleVal 12 (c % 128) ∧ e4m3s c = e4m3s (c % 128))
  ∧ (∀ (c : Nat) (x : Sys2Proof.Machine.Num), c % 128 = 127 → numMul x (scaleVal 12 c) = .nan ∧ numMul x (e4m3s c) = .nan)
  ∧ (∀ (md : Rnd) (vs : List Sys2Proof.Machine.Num), (fp4sBlock md vs).1 < 128)
  ∧ (∀ r : List Sys2Proof.Machine.Num, (pk3Block r).1 < 128)
  ∧ ∀ (fill : Nat) (x : Nat → Sys2Proof.Machine.Num), (pk8Channel fill x).1 < 128

/-! ### Text (09) -/

namespace Sys2Proof.Machine

/-- The text unit has received no token event of stream `n` of context `ctx` that it has not applied: a host command that names the stream
goes on. -/
def NoEventFirst (s : State) (ctx n : Nat) : Prop := s.txt.events.find? (fun e => e.stream == n && e.ctx == ctx) = none

/-- Blocks fit the quota of the context and the partition (09 R260, R261) when an image of `old` blocks gives way to one of `new`. -/
def BlocksFit (t : State) (ctx old new : Nat) : Prop :=
  t.blocksHeld ctx - old + new ≤ t.obj 0x6001 1 ctx ∧ t.blocksAll - old + new ≤ 2512

/-- Where the lane work of stream `n`'s oldest TOKENIZE stands: it is done. -/
def TokenizeRun (s : State) (n : Nat) (x : TStream) (c : TokCmd) (rest : List TokCmd) (v : Vocab) : Prop :=
  s.textUp = true ∧ s.strm n = some x ∧ x.queue = c :: rest ∧ c.left = some 0 ∧ c.till ≤ s.dev.nclk ∧ s.voc x.ctx x.vocab = some v

end Sys2Proof.Machine

/-- 09 R262, R265, R266, R271, R274: vocabularies, stop sets and streams come and go, within quotas and partitions; a command that names a
stream waits for a token event of it that goes first. Completes: VOCAB_LOAD, VOCAB_REMOVE, STOPSET_SET, STREAM_OPEN, STREAM_CLOSE. -/
def Sys2Proof.Parts.VocabulariesAndStreams : Prop :=
  ∀ (s t : State) (sq q : Nat) (h : CmdHdr),
    let ctx := h.ctx.toNat
    (∀ vocab addr imageLen, Accepted s t sq q h (.vocabLoad vocab addr imageLen) [] → imageLen.toNat ≤ 33554432 →
        addr.toNat + imageLen.toNat ≤ 2 ^ 48 →
        BlocksFit t ctx (((tblFind t.txt.vocabs (ctx * 16 + vocab.toNat)).map fun v => imgBlocks v.len).getD 0) (imgBlocks imageLen.toNat) →
        t.cbad ctx addr.toNat imageLen.toNat = none → vocOk (t.image ctx addr.toNat imageLen.toNat) imageLen.toNat = true →
        exec (.vocabLoad sq h vocab addr imageLen) s
          = .next (completed s (t.modTxt fun g => { g with
              vocabs := tblIns g.vocabs (ctx * 16 + vocab.toNat) ⟨t.image ctx addr.toNat imageLen.toNat, imageLen.toNat, false⟩ }) sq q h
              (.vocabLoad vocab addr imageLen) 0))
    ∧ (∀ vocab, Accepted s t sq q h (.vocabRemove vocab) [] → (tblFind t.txt.vocabs (ctx * 16 + vocab.toNat)).isSome = true →
        tblAny t.txt.streams (fun _ x => x.ctx == ctx && x.vocab == vocab.toNat) = false →
        exec (.vocabRemove sq h vocab) s
          = .next (completed s (t.modTxt fun g => { g with vocabs := tblDel g.vocabs (ctx * 16 + vocab.toNat) }) sq q h (.vocabRemove vocab) 0))
    ∧ (∀ (stopset : BitVec 8) (countM1 : BitVec 4) (addr : BitVec 48) (lens : BitVec 128),
        Accepted s t sq q h (.stopsetSet stopset countM1 addr lens) [] →
        addr.toNat + (64 * countM1.toNat + bits lens.toNat (8 * countM1.toNat + 7) (8 * countM1.toNat)) ≤ 2 ^ 48 →
        t.cbad ctx addr.toNat (64 * (countM1.toNat + 1)) = none →
        (∀ x ∈ t.stopStrings ctx addr.toNat (countM1.toNat + 1) lens, x ≠ [] ∧ x.length ≤ 64 ∧ utf8Ok x = true) →
        ((tblFind t.txt.stops (ctx * 256 + stopset.toNat)).isSome = true
          ∨ tblCount t.txt.stops (fun j _ => j / 256 == ctx) < t.obj 0x6001 2 ctx ∧ t.txt.stops.length < 2048) →
        exec (.stopsetSet sq h stopset countM1 addr lens) s
          = .next (completed s (t.modTxt fun g => { g with
              stops := tblIns g.stops (ctx * 256 + stopset.toNat) (t.stopStrings ctx addr.toNat (countM1.toNat + 1) lens) }) sq q h
              (.stopsetSet stopset countM1 addr lens) 0))
    ∧ (∀ stream vocab stopset incl eventCq v, Accepted s t sq q h (.streamOpen stream vocab stopset incl eventCq) [] →
        NoEventFirst s ctx stream.toNat → t.strmIn ctx stream.toNat = true →
        (∀ o, t.strm stream.toNat = some o → o.ctx = ctx ∧ o.state ≠ .open) → t.voc ctx vocab.toNat = some v → v.damaged = false →
        (stopset.toNat = 0xFFFF ∨ (stopset.toNat ≤ 255 ∧ (tblFind t.txt.stops (ctx * 256 + stopset.toNat)).isSome = true)) →
        ∃ x, exec (.streamOpen sq h stream vocab stopset incl eventCq) s
              = .next (completed s (t.setStrm stream.toNat x) sq q h (.streamOpen stream vocab stopset incl eventCq) 0)
          ∧ x.ctx = ctx ∧ x.state = .open ∧ x.vocab = vocab.toNat ∧ x.inclStop = incl ∧ x.cq = eventCq.toNat ∧ x.eseq = 0
          ∧ x.held = [] ∧ x.tail = [] ∧ x.queue = ((t.strm stream.toNat).map (·.queue)).getD []
          ∧ x.stopset = if stopset.toNat = 0xFFFF then none else some stopset.toNat)
    ∧ (∀ stream x, Accepted s t sq q h (.streamClose stream) [] → NoEventFirst s ctx stream.toNat →
        t.ownStrm ctx stream.toNat = some x → x.queue = [] →
        let r := if x.state = .open then endStream stream.toNat x t 4 stOk 0 else (x, t)
        exec (.streamClose sq h stream) s
          = .next (completed s ((r.2.setStrm stream.toNat r.1).modTxt fun g => { g with streams := tblDel g.streams stream.toNat }) sq q h
              (.streamClose stream) 0))
    ∧ (∀ n c hosts f e, s.txt.events.find? (fun e => e.stream == n && e.ctx == ctx) = some e →
        s.streamCmd sq h n c hosts f = .next s)

/-- 09 R266-R269: a TOKENIZE joins its stream's queue, and when its lane work is done its tokens are in context memory, with no other byte
changed there, the bytes of an unfinished run are carried over, and its TOKENIZED entry is posted. Completes: TOKENIZE, TOKENIZE_DONE. -/
def Sys2Proof.Parts.TextIsTokenized : Prop :=
  (∀ (s t : State) (sq q : Nat) (h : CmdHdr) (stream : BitVec 14) (last : Bool) (inAddr outAddr : BitVec 48) (len outCap : W32) (x : TStream),
    let ctx := h.ctx.toNat
    Accepted s t sq q h (.tokenize stream last inAddr len outAddr outCap) [] → NoEventFirst s ctx stream.toNat →
    t.ownStrm ctx stream.toNat = some x → x.state = .open → 1 ≤ len.toNat → len.toNat ≤ 16777216 → outAddr.toNat % 64 = 0 →
    len.toNat + 3 ≤ outCap.toNat → inAddr.toNat + len.toNat ≤ 2 ^ 48 → outAddr.toNat + 4 * (len.toNat + 3) ≤ 2 ^ 48 →
    ∃ c : TokCmd, exec (.tokenize sq h stream last inAddr len outAddr outCap) s
        = .next ((t.setStrm stream.toNat { x with queue := x.queue ++ [c] }).modTxt fun g => { g with nextOrder := g.nextOrder + 1 })
      ∧ c.inAddr = inAddr.toNat ∧ c.len = len.toNat ∧ c.outAddr = outAddr.toNat ∧ c.last = last ∧ c.tag = h.tag ∧ c.sq = sq ∧ c.cq = q
      ∧ c.head = t.sqHeadOf sq ∧ c.left = none)
  ∧ (∀ (s : State) (n : Nat) (x : TStream) (c : TokCmd) (rest : List TokCmd) (v : Vocab), TokenizeRun s n x c rest v →
    let r := tokenizeBytes v.image (s.obj 0x6002 1 x.ctx == 1) c.last x.carry (s.cread x.ctx c.inAddr c.len)
    (v.damaged = true → s.uncopied x.ctx c.outAddr (4 * r.1.length) = [] → ∃ u, exec (.tokenizeDone n) s = .next u
        ∧ u.strm n = some { x with queue := rest, eseq := x.eseq + 1 } ∧ u.ses = s.ses)
    ∧ (v.damaged = false → memWf s.ses.cmem = true → s.cbad x.ctx c.inAddr c.len = none →
        s.uncopied x.ctx c.outAddr (4 * r.1.length) = [] → x.ctx < 256 →
        c.outAddr + 4 * r.1.length ≤ 2 ^ 48 →
        ∃ u, exec (.tokenizeDone n) s = .next u ∧ u.strm n = some { x with queue := rest, eseq := x.eseq + 1, carry := r.2.1 }
          ∧ u.cread x.ctx c.outAddr (4 * r.1.length) = r.1.flatMap (leBytes 4)
          ∧ ∀ b, b < ckey x.ctx c.outAddr ∨ ckey x.ctx c.outAddr + 4 * r.1.length ≤ b → memGet u.ses.cmem b = memGet s.ses.cmem b))

/-- 09 R262-R274: vocabularies, stop sets, streams and the tokenizer. The model's choices: VOCAB_LOAD of a number in use replaces its image at once
(DEDUCED, log entry 44), and a host command waits for every token event of its stream that the unit has received and not applied (DEDUCED, log entry
44). The TOKENIZED entry is seen here through ESEQ alone. -/
def Obligations.TextCommands : Prop := Sys2Proof.Parts.VocabulariesAndStreams ∧ Sys2Proof.Parts.TextIsTokenized

/-- 09 R277, R278, R280-R282: grammars come and go, and bind to a stream, whose mask is written as lane work. Completes: GRAMMAR_LOAD,
GRAMMAR_REMOVE, GRAMMAR_BIND, GRAMMAR_UNBIND. -/
def Sys2Proof.Parts.GrammarCommands : Prop :=
  ∀ (s t : State) (sq q : Nat) (h : CmdHdr),
    let ctx := h.ctx.toNat
    (∀ grammar addr len, Accepted s t sq q h (.grammarLoad grammar addr) [] → len = t.cnum ctx (addr.toNat + 8) 4 → len ≤ 16777216 →
        addr.toNat + max 64 len ≤ 2 ^ 48 →
        BlocksFit t ctx (((tblFind t.txt.grammars (ctx * 64 + grammar.toNat)).map fun v => imgBlocks v.len).getD 0) (imgBlocks len) →
        t.cbad ctx addr.toNat (max 64 len) = none → gramOk (t.image ctx addr.toNat len) = true →
        exec (.grammarLoad sq h grammar addr) s
          = .next (completed s (t.modTxt fun g => { g with
              grammars := tblIns g.grammars (ctx * 64 + grammar.toNat) ⟨t.image ctx addr.toNat len, len, false⟩ }) sq q h (.grammarLoad grammar addr) 0))
    ∧ (∀ grammar, Accepted s t sq q h (.grammarRemove grammar) [] → (tblFind t.txt.grammars (ctx * 64 + grammar.toNat)).isSome = true →
        tblAny t.txt.streams (fun _ x => x.ctx == ctx && x.inst.any fun i => i.grammar == grammar.toNat) = false →
        exec (.grammarRemove sq h grammar) s
          = .next (completed s (t.modTxt fun g => { g with grammars := tblDel g.grammars (ctx * 64 + grammar.toNat) }) sq q h (.grammarRemove grammar) 0))
    ∧ (∀ stream grammar escape mask x g, Accepted s t sq q h (.grammarBind stream grammar escape mask) [] → NoEventFirst s ctx stream.toNat →
        s.bindWaits ctx stream.toNat = false →
        s.uncopied ctx mask.toNat 32832 = [] → t.ownStrm ctx stream.toNat = some x → x.state = .open → x.inst = none → mask.toNat % 64 = 0 →
        mask.toNat + 32832 ≤ 2 ^ 48 → t.gram ctx grammar.toNat = some g → g.damaged = false → t.instsHeld ctx < t.obj 0x6005 1 ctx →
        tblCount t.txt.streams (fun _ y => y.inst.isSome) < 4096 →
        let r := (t.laneTake ctx (512 + (gramConf g.image (gramStart g.image) 0).length)).settleInst stream.toNat ctx g.image
          ⟨grammar.toNat, mask.toNat, if escape.toNat = 0x3FFFF then none else some escape.toNat, 0, gramStart g.image, [], false, 0⟩
        r.2.1 = false →
        exec (.grammarBind sq h stream grammar escape mask) s
          = .next (completed s (r.2.2.setStrm stream.toNat { x with inst := some r.1 }) sq q h (.grammarBind stream grammar escape mask) 0))
    ∧ (∀ stream x, Accepted s t sq q h (.grammarUnbind stream) [] → NoEventFirst s ctx stream.toNat → t.ownStrm ctx stream.toNat = some x →
        exec (.grammarUnbind sq h stream) s
          = .next (completed s (t.setStrm stream.toNat { x with inst := none }) sq q h (.grammarUnbind stream) 0))

/-- 09 R272, R280: a token event whose lane work is done is applied to an open stream: with no grammar, under one that allows the token,
as the escape token, or not, which ends the stream; for a stream that is not open it is counted. Completes: TOKEN_EVENT. -/
def Sys2Proof.Parts.TokenEvents : Prop :=
  ∀ (s : State) (n : Nat) (ev : TokEvent) (x : TStream), s.textUp = true → s.txt.events.find? (fun e => e.stream == n) = some ev →
    s.eventReady ev = true → s.ownStrm ev.ctx n = some x →
    let s0 := s.modTxt fun g => { g with events := dropEvent n g.events }
    (x.state ≠ .open → exec (.tokenEvent n) s = .next (s0.count 0x6006 5))
    ∧ (∀ v, x.state = .open → s.voc x.ctx x.vocab = some v → v.damaged = false →
        (ev.token < vocTokens v.image ∨ (vocSpFirst v.image ≤ ev.token ∧ ev.token < vocSpFirst v.image + vocSpCount v.image)) →
        (s.gramStep x.ctx x.inst ev.token = .free → exec (.tokenEvent n) s = .next (s0.emitToken n x v ev.token false ev.end_))
        ∧ (s.gramStep x.ctx x.inst ev.token = .escaped →
            exec (.tokenEvent n) s = .next (s0.emitToken n { x with inst := endInst x.inst } v ev.token false true))
        ∧ (∀ i m acts, s.gramStep x.ctx x.inst ev.token = .moved i m acts → s.uncopied x.ctx i.maskAddr 32832 = [] →
            let r := s0.settleInst n x.ctx m i
            exec (.tokenEvent n) s = .next (r.2.2.emitToken n { x with inst := some r.1 } v ev.token r.2.1 ev.end_))
        ∧ (s.gramStep x.ctx x.inst ev.token = .rejected → ∃ u, exec (.tokenEvent n) s = .next u
            ∧ (u.strm n).map (fun y => (y.state, y.held, y.tail)) = some (.ended, [], [])))

/-- 09 R272, R277-R282: grammars and token events. The model's choices (DEDUCED, log entry 44): a GRAMMAR_BIND waits for the token events of its
stream posted before, and its mask is lane work; a DEAD_END entry at a bind only where bytes are held; a token of item 1 of R272 is counted and
answered. -/
def Obligations.GrammarsAndTokenEvents : Prop := Sys2Proof.Parts.GrammarCommands ∧ Sys2Proof.Parts.TokenEvents

/-! ### The host site (11) -/

/-- 11 R313, R314: the link comes up, or is tried again; the eighth replay of a flit makes its module retrain, and it comes back at a width
or not at all. Completes: SITE_LINK_BRINGUP, SITE_BRINGUP_RETRY, UCIE_FLIT_REPLAY, UCIE_RETRAIN_DONE. -/
def Sys2Proof.Parts.HostLink : Prop :=
  ∀ (s : State),
    (∀ w, s.dev.locked = true → s.site.bringing = true → s.dev.hostRail = 2 → w.length = 4 → (∀ x ∈ w, x ≤ 3) → (∃ x ∈ w, x ≠ 0) →
        ∃ t, exec (.siteLinkBringup w) s = .next t ∧ t.site.linkUp = true ∧ t.site.bringing = false ∧ t.site.modules.map (·.width) = w
          ∧ (∀ p ∈ t.site.qps, p.enabled = false) ∧ t.site.ks.enable = s.site.ks.enable ∧ t.site.hostSeq = 0 ∧ t.site.devSeq = 0)
    ∧ (∀ x, s.dev.locked = true → s.site.retryAt = some x → s.dev.hostRail = 2 → s.site.linkUp = false → x ≤ s.tick →
        exec .siteBringupRetry s = .next (s.modSite fun g => { g with bringing := true, retryAt := none }))
    ∧ (∀ m x, m < 4 → s.live = true → s.carries m = true → s.site.modules[m]? = some x →
        ∃ t, exec (.ucieFlitReplay m) s = .next t
          ∧ t.site.modules[m]? = some (if 7 ≤ x.replays then ⟨x.width, 0, true⟩ else ⟨x.width, x.replays + 1, false⟩))
    ∧ (∀ m w x, m < 4 → s.live = true → s.site.modules[m]? = some x → x.retraining = true → w ≤ 3 → w ≠ 0 →
        ∃ t, exec (.ucieRetrainDone m w) s = .next t ∧ t.site.modules[m]? = some ⟨w, 0, false⟩ ∧ t.site.linkUp = s.site.linkUp)

namespace Sys2Proof.Machine

/-- A host transaction under header `h` comes on a module that is up and is the next in SEQ order, and none is held: `t` is the machine
that applies it. -/
def InTurn (s t : State) (h : SiteHdr) : Prop :=
  s.carries h.module_ = true ∧ h.seq.toNat = s.site.hostSeq ∧ s.site.hostHeld = []
  ∧ t = (s.flitOk h.module_).modSite fun g => { g with hostHeld := [], hostSeq := (g.hostSeq + 1) % 4096 }

end Sys2Proof.Machine

/-- 11 R316-R321, R330: register writes, doorbells, ENABLE and the reads of the latches, applied in SEQ order; one that comes ahead of its
turn is held, and one that was applied before is dropped. Completes: SITE_REGISTER_WRITE, DOORBELL_SQ_TAIL, DOORBELL_CQ_HEAD, QP_ENABLE,
QP_DISABLE, RDY_PEND_READ. -/
def Sys2Proof.Parts.HostTransactions : Prop :=
  (∀ (s t : State) (h : SiteHdr), InTurn s t h →
    (s.live = true →
      (∀ off bs, off % 16 = 0 → bs.length ≠ 0 → bs.length % 16 = 0 → bs.length ≤ 4096 → 0x100000 ≤ off → off + bs.length ≤ 0x510000 →
          exec (.siteRegisterWrite ⟨h, off⟩ bs) s = .next (t.modSite fun g => { g with
            rings := memWrite g.rings off bs, badEntries := tblKeep g.badEntries fun k _ => !within (0x100000 + 128 * k) 128 off bs.length }))
      ∧ (∀ off bs, (off % 16 ≠ 0 ∨ bs.length % 16 ≠ 0 ∨ 4096 < bs.length) → exec (.siteRegisterWrite ⟨h, off⟩ bs) s
          = .next (t.modSite fun g => { g with discards := (g.discards + 1) % 2 ^ 16 }))
      ∧ (∀ ring tail, ring < 64 → (s.qp ring).enabled = true →
          exec (.doorbellSqTail ⟨h, ring⟩ tail) s = .next (t.setQp ring { s.qp ring with sqTail := tail.toNat % 512 }))
      ∧ (∀ tail, s.site.ks.enable = true → ∃ u, exec (.doorbellSqTail ⟨h, 64⟩ tail) s = .next u ∧ u.site.ks.sqTail = tail.toNat % 512
          ∧ u.site.qps = s.site.qps ∧ u.out = s.out)
      ∧ (∀ q (head : BitVec 16), q < 64 → (s.qp q).enabled = true → head.toNat < (s.qp q).cap → (s.qp q).cqHead < (s.qp q).cap →
          head.toNat ≠ (s.qp q).cqTail → (head.toNat + (s.qp q).cap - (s.qp q).cqHead) % (s.qp q).cap ≤ (s.qp q).cqCount →
          exec (.doorbellCqHead ⟨h, q⟩ head) s = .next (t.setQp q { s.qp q with
            cqHead := head.toNat, cqCount := (s.qp q).cqCount - (head.toNat + (s.qp q).cap - (s.qp q).cqHead) % (s.qp q).cap }))
      ∧ (∀ q (head : BitVec 16), q < 64 → (s.qp q).enabled = true → head.toNat < (s.qp q).cap → (s.qp q).cqHead < (s.qp q).cap →
          (head.toNat ≠ (s.qp q).cqTail ∨ (s.qp q).cqCount ≠ (s.qp q).cap) →
          (s.qp q).cqCount < (head.toNat + (s.qp q).cap - (s.qp q).cqHead) % (s.qp q).cap →
          exec (.doorbellCqHead ⟨h, q⟩ head) s = .next (t.setQp q { s.qp q with dbErr := true }))
      ∧ (∀ q (head : BitVec 16), q < 64 → (s.qp q).enabled = true → (s.qp q).cap ≤ head.toNat →
          exec (.doorbellCqHead ⟨h, q⟩ head) s = .next (t.setQp q { s.qp q with dbErr := true }))
      ∧ (∀ q, q < 64 → (s.qp q).enabled = false → (s.qp q).cqInSite = false → 4 ≤ (s.qp q).cqLog2 → (s.qp q).cqLog2 ≤ 16 →
          s.hostOk q (s.qp q).cqBase.toNat (128 * (s.qp q).cap) = true → s.site.qps.length = 64 →
          ∃ u, exec (.qpEnable ⟨h, q⟩) s = .next u ∧ (u.qp q).enabled = true ∧ (u.qp q).sqHead = 0 ∧ (u.qp q).sqTail = 0
            ∧ (u.qp q).cqHead = 0 ∧ (u.qp q).cqTail = 0 ∧ (u.qp q).phase = true ∧ (u.qp q).cqLog2 = (s.qp q).cqLog2
            ∧ (u.qp q).dbErr = (s.qp q).dbErr ∧ (u.qp q).overflow = (s.qp q).overflow ∧ (u.qp q).latch = (s.qp q).latch
            ∧ ∀ j, j ≠ q → u.qp j = s.qp j)
      ∧ (∀ q, q < 64 → s.site.qps.length = 64 →
          (s.pairBusy q = false → ∃ u, exec (.qpDisable ⟨h, q⟩) s = .next u ∧ (u.qp q).enabled = false ∧ ∀ j, j ≠ q → u.qp j = s.qp j)
          ∧ (s.pairBusy q = true → (s.qp q).enabled = true →
              ∃ u, exec (.qpDisable ⟨h, q⟩) s = .next u ∧ (u.qp q).enabled = true ∧ (u.qp q).want = true)))
    ∧ (∀ tag, s.dev.siteFatal = false → s.site.qps.length = 64 →
        ∃ u v, exec (.rdyPendRead ⟨h, 0x10, tag, 0⟩) s = .next u
          ∧ u.out = .hrdr s.site.devSeq tag.toNat stOk (leBytes 8 v ++ leBytes 8 (b2n s.site.ks.latch.isSome)) :: s.out
          ∧ (∀ i, i < 64 → bit v i = (s.qp i).latch.isSome ∧ (u.qp i).latch = (s.qp i).latch.filter (· == s.dev.nclk))
          ∧ u.site.ks.latch = s.site.ks.latch.filter (· == s.dev.nclk)))
  ∧ ∀ (s : State) (h : SiteHdr) (o : HostOp),
    (s.carries h.module_ = false → s.hostTake h o = s)
    ∧ (s.carries h.module_ = true → 0 < (h.seq.toNat + 4096 - s.site.hostSeq) % 4096 → (h.seq.toNat + 4096 - s.site.hostSeq) % 4096 < 2048 →
        tblFind s.site.hostHeld h.seq.toNat = none → s.hostTake h o
          = (s.flitOk h.module_).modSite fun g => { g with hostHeld := tblIns g.hostHeld h.seq.toNat o })
    ∧ (s.carries h.module_ = true → (2048 ≤ (h.seq.toNat + 4096 - s.site.hostSeq) % 4096
          ∨ ((h.seq.toNat + 4096 - s.site.hostSeq) % 4096 ≠ 0 ∧ (tblFind s.site.hostHeld h.seq.toNat).isSome = true)) →
        s.hostTake h o = s.flitOk h.module_)

/-- 11 R322, R324: the oldest entry of a spill goes to its ring when a slot is free; an entry of unknown type is rejected. Completes:
COMPLETION_SPILL_WRITE, UNKNOWN_COMMAND_ENTRY. -/
def Sys2Proof.Parts.SpillsAndUnknownEntries : Prop :=
  ∀ (s : State),
    (∀ q e l, q < 64 → s.live = true → (s.qp q).enabled = true → (s.qp q).spill = e :: l → (s.qp q).cqCount < (s.qp q).cap →
        exec (.completionSpillWrite q) s = .next ((s.setQp q { s.qp q with spill := l }).writeEntry q e))
    ∧ (∀ sq h q, sq ≤ 64 → s.headEntry sq = some (.unknown q h) → q < 256 → s.mayTake sq (.unknown q h) = true →
        let c := s.target sq (.unknown q h)
        let u := s.takeEntry sq c
        exec (.unknownCommandEntry sq (BitVec.ofNat 8 q)) s = .next (u.cmdDone sq c (s.qctx c) (u.sqHeadOf sq) h.tag q stCommand 0))

/-- 11 R313-R324, R330: the host link and its transactions. The model's choices: the numbers of both directions start from 0 at link-up, a SEQ at
most 2,047 ahead is held and one further ahead dropped, and RDY_PEND_READ stands for every HRD (DESIGN CHOICE, log entry 12); a CQ_HEAD equal to
CQ_TAIL on a full ring frees it all (DEDUCED, log entry 13); a pair whose ring does not lie in its window stays disabled, and a refused disable
leaves ENABLE set (log entry 14); a misaligned write is discarded and counted (DEDUCED, log entry 45). -/
def Obligations.HostSiteCommands : Prop :=
  Sys2Proof.Parts.HostLink ∧ Sys2Proof.Parts.HostTransactions ∧ Sys2Proof.Parts.SpillsAndUnknownEntries

/-- 11 R324, R327; 00 R5: a completion whose slot was reserved goes to its ring or, behind a full one, to the spill; an event that finds no slot is
lost, with OVERFLOW and the count; nothing is written after a FATAL error; and the bytes of an entry go to plinth SRAM or to host memory inside a
window of the pair, body before header. The model's choices: a completion whose slot is free at the time it is written takes it (DEDUCED, log entry
9); what is written while the link is down stands in State.out all the same (DESIGN CHOICE, log entries 12 and 43). -/
def Obligations.CompletionsAndEvents : Prop :=
  ∀ (s : State) (q : Nat) (e : CqEntry), q < 64 → s.site.qps.length = 64 →
    (∀ sq, s.dev.siteFatal = true → s.settle sq q e = s ∧ s.event q e = s)
    ∧ (∀ sq, sq < 64 → sq ≠ q → s.dev.siteFatal = false → (s.qp q).enabled = true → (s.qp q).spill = [] → (s.qp q).cqCount < (s.qp q).cap →
        ∃ u : State, s.settle sq q e = u.writeEntry q e ∧ (u.qp q).resv = (s.qp q).resv - 1 ∧ (u.qp sq).work = (s.qp sq).work - 1)
    ∧ (s.dev.siteFatal = false → (s.qp q).enabled = true → (s.qp q).spill = [] → (s.qp q).cqCount < (s.qp q).cap →
        ∃ u : State, s.settle q q e = u.writeEntry q e ∧ (u.qp q).resv = (s.qp q).resv - 1 ∧ (u.qp q).work = (s.qp q).work - 1
          ∧ (u.qp q).cqTail = (s.qp q).cqTail ∧ u.out = s.out)
    ∧ (∀ sq, sq < 64 → s.dev.siteFatal = false → (s.qp q).enabled = true → (s.qp q).cap ≤ (s.qp q).cqCount →
        ((s.settle sq q e).qp q).spill = (s.qp q).spill ++ [e] ∧ (s.settle sq q e).out = s.out)
    ∧ (s.dev.siteFatal = false → (s.qp q).room false = false →
        s.event q e = (s.setQp q { s.qp q with overflow := true }).count 0x9000 5 q)
    ∧ ((s.qp q).cqInSite = false → (s.qp q).cqTail < (s.qp q).cap →
        ((s.writeEntry q e).out = s.out ∧ s.hostOk q (s.qp q).cqBase.toNat (128 * (s.qp q).cap) = false)
        ∨ ∃ a b : List Byte, (s.writeEntry q e).out
            = .dwr ((s.site.devSeq + 1) % 4096) ((s.qp q).cqBase.toNat + 128 * (s.qp q).cqTail) a
              :: .dwr s.site.devSeq ((s.qp q).cqBase.toNat + 128 * (s.qp q).cqTail + 32) b :: s.out ∧ a.length = 32 ∧ b.length = 96
            ∧ a = leBytes 32 (entryHeader e (s.qp q).phase) ∧ b = leBytes 96 e.body ∧ s.hostOk q ((s.qp q).cqBase.toNat + 128 * (s.qp q).cqTail) 128 = true)
    ∧ ((s.qp q).cqInSite = true → (s.writeEntry q e).out = s.out
        ∧ (memWf s.site.cqMem = true → memRead (s.writeEntry q e).site.cqMem (0x600000 + 0x10000 * q + 128 * (s.qp q).cqTail) 128
            = leBytes 32 (entryHeader e (s.qp q).phase) ++ leBytes 96 e.body))
    ∧ ((s.writeEntry q e).qp q).cqTail = ((s.qp q).cqTail + 1) % (s.qp q).cap
    ∧ ((s.writeEntry q e).qp q).latch = some s.dev.nclk

/-! ### Checkpoints and rings (13; 04) -/

/-- 13 R371, R373-R376; 04 R124: a notice starts the checkpoints that want one; a cut falls when no step of the context runs, and is copied frame by
frame, a held write's frame first; a hold that lasts too long ends with ST_CKPT_HOLD; a ring buffer whose pages have been sent and used is free. The
model's choices: where two contexts have frames of one die to copy the lower one's cut completes first (DEDUCED, log entry 37); a write that a cut
holds is a row that does not happen yet (DEDUCED, log entry 36); a buffer's release waits until every page of its round has landed (DEDUCED, log
entry 24). Completes: CKPT_NOTICE, CUT_INSTANT, CKPT_HOLD_EXPIRY, CUT_COMPLETE, CBW_RELEASE, RING_BUFFER_RELEASE. -/
def Obligations.CheckpointEvents : Prop :=
  ∀ (s : State) (ctx : Nat), s.live = true →
    (s.fabricUp = true → exec .ckptNotice s = .next (s.warn 4))
    ∧ (∀ m, (s.ckpt ctx).man = some m → (s.ckpt ctx).state = 1 → s.ctxRuns ctx = false →
        exec (.cutInstant ctx) s = .next ((s.setCkpt ctx { s.ckpt ctx with
          state := 2, seq := ((s.ckpt ctx).seq + 1) % 2 ^ 32, step := s.cnum ctx m.mark 8, uncopied := coverOf ctx (s.ckpt ctx).shards }).ckptEvent
            ctx 0x0030 stOk (((s.ckpt ctx).seq + 1) % 2 ^ 32) 0))
    ∧ (∀ m, (s.ckpt ctx).man = some m → s.ctxRuns ctx = true → exec (.cutInstant ctx) s = .next s)
    ∧ ((s.ckpt ctx).state = 1 → s.ctxRuns ctx = true → (s.ckpt ctx).since + s.obj 0x8004 2 * 625 ≤ s.tick →
        exec (.ckptHoldExpiry ctx) s = .next ((s.ckptIdle ctx).ckptResult ctx stCkptHold))
    ∧ ((s.ckpt ctx).state = 2 → (s.ckpt ctx).uncopied = [] →
        exec (.cutComplete ctx) s = .next (s.setCkpt ctx { s.ckpt ctx with state := 3, part := 0, placed := 0 }))
    ∧ ((s.ckpt ctx).state = 2 → s.cutWaits ctx = true → exec (.cutComplete ctx) s = .next s)
    ∧ (∀ f, (s.ckpt ctx).state = 2 → ctx * 2 ^ 36 + f ∈ (s.ckpt ctx).uncopied → (tblFind s.cks.held (ctx * 2 ^ 36 + f)).isSome = true →
        exec (.cbwRelease ctx f) s = .next (s.copyFrame ctx (ctx * 2 ^ 36 + f)))
    ∧ (∀ n p r e v, s.stp n = some p → p.ring = some r → p.seqs.head? = some e → p.waits = false → p.fail = none →
        v = tblGet [] r.visits (r.released + 1) → r.released + 1 < e.ringN →
        (r.released + 2 = e.ringN ∨ (v.length = (e.block (e.roundOf (r.released + 1))).length ∧ ∀ w ∈ v, w.done = true)) →
        (∃ c ∈ s.run.cores, c.2.step = n) →
        (∀ c ∈ s.run.cores, c.2.step = n → c.2.ph = .ended ∨ ∃ a ∈ c.2.seg, a.1 % 64 = r.released + 2) →
        exec (.ringBufferRelease n) s
          = .next ((s.setStp n { p with ring := some { r with released := r.released + 1 } }).ringCredit n (r.released + 1)))

/-! ### Management (14) -/

namespace Sys2Proof.Machine

/-- A request that passes the first four checks of 14 R391: it is heard, its signature verifies, its header and body are well formed,
and its SEQ is new to its slot. -/
abbrev Heard (s : State) (m : MgmtHdr) : Prop :=
  s.mgmtUp = true ∧ s.authentic m = true ∧ m.mver = 1 ∧ m.bodyOk = true ∧ m.seq ≠ 0 ∧ m.bootEpoch.toNat = s.dev.bootEpoch ∧ s.dev.mgmt ≠ 0
  ∧ (tblGet winNone s.mg.wins m.keySlot.toNat).below m.seq.toNat = false
  ∧ m.seq.toNat ∉ (tblGet winNone s.mg.wins m.keySlot.toNat).seen

/-- `s` once reply `r` to `m` is kept in the window of its slot and sent. -/
def answered_ (s : State) (m : MgmtHdr) (r : MgmtReply) : State :=
  (s.modMg fun g => { g with wins := tblIns g.wins m.keySlot.toNat ((tblGet winNone s.mg.wins m.keySlot.toNat).accept m.seq.toNat r) }).say r

/-- The key of the slot holds right `b` (14 R394). -/
abbrev holdsRight (s : State) (m : MgmtHdr) (b : Nat) : Prop := bit (s.obj 0x1201 2 m.keySlot.toNat) b = true

/-- `s` once a WRITE that `m` carries has passed its checks, before what it sets going: answered, ST_OK, and counted. -/
def written (s : State) (m : MgmtHdr) : State :=
  (answered_ s m (s.mgmtReply m 0x03 stOk 0xFF [])).count 0x1202 3

end Sys2Proof.Machine

/-- 14 R391, R392: every WRITE, and likewise every READ, is checked in order: discarded and counted, format, boot epoch, state, SEQ; one seen before
is answered as it was. The model's choices: a message other than IDENT while STARTING is ST_MGMT_STATE (DEDUCED, log entry 49); the message carries
its signer's key (DESIGN CHOICE, log entry 16). -/
def Obligations.ManagementMessagesAreCheckedInOrder : Prop :=
  ∀ (s : State) (m : MgmtHdr) (items : List MgmtItem),
    let w := tblGet winNone s.mg.wins m.keySlot.toNat
    let no := fun (u : State) (op st : Nat) => u.say (u.mgmtReply m op st 0xFF [])
    (s.mgmtUp = false → exec (.write m items) s = .next s ∧ exec (.read m items) s = .next s ∧ exec (.ident m) s = .next s)
    ∧ (s.mgmtUp = true → s.authentic m = false →
        exec (.write m items) s = .next (s.count 0x1202 1) ∧ exec (.read m items) s = .next (s.count 0x1202 1))
    ∧ (s.mgmtUp = true → s.authentic m = true → (m.mver ≠ 1 ∨ m.bodyOk = false ∨ items = [] ∨ 16 < items.length ∨ m.seq = 0) →
        exec (.write m items) s = .next (no s 0x03 stMgmtFormat) ∧ exec (.read m items) s = .next (no s 0x02 stMgmtFormat))
    ∧ (s.mgmtUp = true → s.authentic m = true → m.mver = 1 → m.bodyOk = true → items ≠ [] → items.length ≤ 16 → m.seq ≠ 0 →
        (m.bootEpoch.toNat ≠ s.dev.bootEpoch →
            exec (.write m items) s = .next (no s 0x03 stMgmtEpoch) ∧ exec (.read m items) s = .next (no s 0x02 stMgmtEpoch))
        ∧ (m.bootEpoch.toNat = s.dev.bootEpoch → s.dev.mgmt = 0 →
            exec (.write m items) s = .next (no s 0x03 stMgmtState) ∧ exec (.read m items) s = .next (no s 0x02 stMgmtState))
        ∧ (m.bootEpoch.toNat = s.dev.bootEpoch → s.dev.mgmt ≠ 0 →
            (w.below m.seq.toNat = true → exec (.write m items) s = .next (no (s.count 0x1202 2) 0x03 stMgmtSeq)
                ∧ exec (.read m items) s = .next (no (s.count 0x1202 2) 0x02 stMgmtSeq))
            ∧ (∀ r, w.below m.seq.toNat = false → m.seq.toNat ∈ w.seen → tblFind w.replies m.seq.toNat = some r →
                exec (.write m items) s = .next (s.say r) ∧ exec (.read m items) s = .next (s.say r))
            ∧ (w.below m.seq.toNat = false → m.seq.toNat ∈ w.seen → tblFind w.replies m.seq.toNat = none →
                exec (.write m items) s = .next (no s 0x03 stDup) ∧ exec (.read m items) s = .next (no s 0x02 stDup))))

/-- 14 R393, R395, R397, R398: IDENT is answered in every state; CLAIM enrols the first key once; a READ whose items stand returns their bytes; a
WRITE applies every item, or, with the status of the first check that fails, none. The model's choices: the signer that a message carries (DESIGN
CHOICE, log entry 16); a CLAIM outside slot 0xFE is no CLAIM (DEDUCED, log entry 49). Completes: IDENT, READ, WRITE, CLAIM. -/
def Obligations.ManagementReadsAndWrites : Prop :=
  ∀ (s : State) (m : MgmtHdr),
    (s.mgmtUp = true → m.lenOk = true → (m.serial.toNat = serial ∨ m.serial.toNat = 0) →
        ∃ r, exec (.ident m) s = .next (s.say r) ∧ r.status = stOk ∧ r.seq = m.seq.toNat ∧ r.bootEpoch = s.dev.bootEpoch
          ∧ r.body.take 128 = certBytes idCert ∧ r.body.length = 288)
    ∧ (∀ key : BitVec 256, s.mgmtUp = true → m.lenOk = true → m.serial.toNat = serial → m.signer = some key → m.keySlot.toNat = 0xFE →
        m.mver = 1 → m.bodyOk = true → m.seq ≠ 0 → m.bootEpoch.toNat = s.dev.bootEpoch → key ≠ 0 →
        (s.unclaimed = true → s.dev.mgmt = 1 → ∃ t, exec (.claim m key) s = .next t ∧ t.obj 0x1201 1 0 = key.toNat ∧ t.obj 0x1201 2 0 = 0x3F)
        ∧ (s.unclaimed = false → exec (.claim m key) s = .next (s.say (s.mgmtReply m 0x05 stMgmtRight 0xFF []))))
    ∧ (∀ items, Heard s m → 1 ≤ items.length → items.length ≤ 16 → holdsRight s m 0 → firstFail (itemForm · true) items = none →
        (items.map itemSize).foldl (· + ·) 0 ≤ 1104 →
        exec (.read m items) s = .next (items.foldl State.itemClear
          (answered_ s m (s.mgmtReply m 0x02 stOk 0xFF (items.flatMap (s.itemBody s.freeCtr)))).take1.2))
    ∧ (∀ items, Heard s m → 1 ≤ items.length → items.length ≤ 16 →
        (firstFail (s.itemRule (items.foldl State.stageItem s) (s.obj 0x1201 2 m.keySlot.toNat)) items = none →
            exec (.write m items) s = .next (items.foldl s.itemDo
              ((items.foldl State.stageItem (answered_ s m (s.mgmtReply m 0x03 stOk 0xFF []))).count 0x1202 3)))
        ∧ (∀ st k, firstFail (s.itemRule (items.foldl State.stageItem s) (s.obj 0x1201 2 m.keySlot.toNat)) items = some (st, k) →
            st ≠ stCkptManifest → st ≠ stCkptSpace → exec (.write m items) s = .next (answered_ s m (s.mgmtReply m 0x03 st k []))))

/-- 14 R400, R407; 10 R285; 12 R348, R356; 13 R372, R380, R381; 15 R418, R422-R426, R434; 16 R442, R450: what the commands that are writes of one
row do, where the key holds the right and the rules of the object allow it. The model's choices: these rows are that WRITE with one item (DESIGN
CHOICE, log entry 17), and a cap below 1,100 W plus HOST_LIMIT is refused (DEDUCED, log entry 17). Completes: MGMT_STOP, MGMT_START, MGMT_SERVICE,
MGMT_LEAVE_SERVICE, CTX_ENABLE, QUOTE_NONCE, JOIN_OUT, CKPT_CHECKPOINT, CKPT_RESTORE, CKPT_ABORT, POWER_CAP_W, HOST_VSET, FENCE_DIE, FATAL_CLEAR,
DEVICE_RESET, PLINTH_PARTIAL_RESET, DIE_PARTIAL_RESET, PORT_PARTIAL_RESET. -/
def Obligations.ManagementCommandsAct : Prop :=
  ∀ (s : State) (m : MgmtHdr), Heard s m → tblWf s.mg.objs = true →
    let w := written s m
    (holdsRight s m 2 → s.dev.mgmt = 2 → s.ctxs = [] → exec (.mgmtStop m) s = .next (w.modDev fun d => { d with mgmt := 1 }))
    ∧ (holdsRight s m 2 → s.dev.mgmt = 1 → s.mg.untested = false → exec (.mgmtStart m) s = .next (w.modDev fun d => { d with mgmt := 2 }))
    ∧ (holdsRight s m 2 → s.dev.mgmt = 1 → exec (.mgmtService m) s = .next (w.modDev fun d => { d with mgmt := 3 }))
    ∧ (holdsRight s m 2 → s.dev.mgmt = 3 → s.mg.untested = false → exec (.mgmtLeaveService m) s = .next (w.modDev fun d => { d with mgmt := 1 }))
    ∧ (holdsRight s m 1 → s.dev.mgmt ≠ 4 →
        (∀ nonce : BitVec 256, exec (.quoteNonce m nonce) s = .next (w.modSec fun g => { g with quote := some (w.mkQuote nonce) }))
        ∧ (∀ ctx : BitVec 8, exec (.ckptAbort m ctx) s = .next (w.ckptDo ctx.toNat 3))
        ∧ (∀ (ctx : BitVec 8) t u, s.ckptStart ctx.toNat 0 = .ok t → w.ckptStart ctx.toNat 0 = .ok u → exec (.ckptCheckpoint m ctx) s = .next u)
        ∧ (∀ (ctx : BitVec 8) t u, s.restoreStart ctx.toNat = .ok t → w.restoreStart ctx.toNat = .ok u → exec (.ckptRestore m ctx) s = .next u)
        ∧ (∀ die : BitVec 8, die.toNat < 4 → (∀ d, d < 4 → s.dieFenced d = false ∧ s.dieInReset d = false) →
            exec (.fenceDie m die) s = .next (w.fenceDie die.toNat))
        ∧ exec (.fatalClear m 1) s = .next (w.modErr fun g => { g with fatal := [] })
        ∧ (∀ ctx : BitVec 8, s.dev.mgmt = 2 → s.profile ≠ 2 → s.obj 0x5000 1 ctx.toNat = 0 → ∃ t, exec (.ctxEnable m ctx 1) s = .next t
            ∧ t.obj 0x5000 1 ctx.toNat = 1 ∧ t.obj 0x1202 3 = (s.obj 0x1202 3 + 1) % 2 ^ 64
            ∧ (tblFind t.sec.epochs ctx.toNat) = some ((tblGet 0 s.sec.epochs ctx.toNat + 1) % 2 ^ 32))
        ∧ (∀ ctx : BitVec 8, s.profile ≠ 2 → s.obj 0x5000 1 ctx.toNat = 1 → s.holdsWork ctx.toNat = true →
            exec (.ctxEnable m ctx 0) s = .next (answered_ s m (s.mgmtReply m 0x03 stBusy 0 [])))
        ∧ (∀ watts : BitVec 16, watts.toNat % 100 = 0 → 1200 ≤ watts.toNat → watts.toNat ≤ 3700 → (s.setObj 0x2101 3 0 0 watts.toNat).capOk = true →
            ∃ t, exec (.powerCapW m watts) s = .next t ∧ t.obj 0x2101 3 = watts.toNat)
        ∧ (∀ mv : BitVec 16, (s.dev.mgmt = 1 ∨ s.dev.mgmt = 3) → 650 ≤ mv.toNat → mv.toNat ≤ 1100 → mv.toNat % 5 = 0 → s.dev.hostRail = 0 →
            ∃ t, exec (.hostVset m mv) s = .next t ∧ t.obj 0x2001 1 = mv.toNat ∧ t.dev.hostRail = 2 ∧ t.site.bringing = true)
        ∧ (∀ (ctx : BitVec 8) (peer : BitVec 16) (pc : BitVec 8), ∃ t, exec (.joinOut m ctx peer pc false) s = .next t
            ∧ t.obj 0x7004 1 ctx.toNat 0 = peer.toNat ∧ t.obj 0x7004 1 ctx.toNat 1 = pc.toNat ∧ t.obj 0x7004 1 ctx.toNat 2 = 0)
        ∧ (s.quiescing = false → s.mg.act = none → exec (.plinthPartialReset m) s = .next (w.resetPlinth false))
        ∧ (∀ d, d < 4 → s.dieInReset d = false → s.mg.act = none → exec (.diePartialReset m d) s = .next (w.resetDie d))
        ∧ (∀ p, p < 18 → s.portInReset p = false → s.mg.act = none → exec (.portPartialReset m p) s = .next (w.resetPort p)))
    ∧ (holdsRight s m 1 → exec (.deviceReset m) s = .next w.resetDevice)
    ∧ (∀ v : Nat, v < 2 ^ 512 → (s.dev.mgmt = 1 ∨ s.dev.mgmt = 2) → holdsRight s m 5 →
        exec (.write m [item1 0xA004 1 0 v]) s = .next (answered_ s m (s.mgmtReply m 0x03 stMgmtState 0 [])))
    ∧ (∀ v : Nat, v < 2 ^ 512 → s.dev.mgmt = 3 → holdsRight s m 5 →
        ∃ t, exec (.write m [item1 0xA004 1 0 v]) s = .next t ∧ t.obj 0xA004 1 = v)

/-- 14 R408-R411: an image comes in chunks that follow one another; it is verified; it is activated, kind by kind, and a drain that lasts too long
ends the steps that still hold quads of the die with ST_FENCED; it is discarded, or its set becomes the last known good one. The model's choices:
data and discard of a kind that an activation is switching are refused (DEDUCED, log entry 29); an activation that needs no drain goes on in the
next cycle (DEDUCED, log entry 50). Completes: IMG_DATA, IMAGE_VERIFIED, IMG_ACTIVATE, ACTIVATION_DONE, ACTIVATION_DRAIN_EXPIRY, IMG_DISCARD,
IMG_COMMIT. -/
def Obligations.FirmwareImages : Prop :=
  ∀ (s : State),
    (∀ (m : MgmtHdr) (kind : BitVec 8) (off : W32) (data : List Byte), Heard s m → holdsRight s m 3 → s.dev.mgmt ≠ 4 → kind.toNat ≤ 4 →
        s.activating kind.toNat = false → 1 ≤ data.length → data.length ≤ 1024 →
        let st := s.mg.stage.getD kind.toNat ⟨0, [], 0⟩
        let u := answered_ s m (s.mgmtReply m 0x04 stOk 0xFF [])
        (off = 0 → exec (.imgData m kind off data) s = .next (u.imgStore kind.toNat data))
        ∧ (off ≠ 0 → off.toNat % 1024 = 0 → off.toNat = st.bytes.length → st.state = 1 → imgComplete kind.toNat st.bytes = false →
            off.toNat + data.length ≤ imgMax kind.toNat →
            exec (.imgData m kind off data) s = .next (u.imgStore kind.toNat (st.bytes ++ data)))
        ∧ (off ≠ 0 → off.toNat % 1024 = 0 → off.toNat < st.bytes.length →
            exec (.imgData m kind off data) s = .next (answered_ s m (s.mgmtReply m 0x04 stDup 0xFF []))))
    ∧ (∀ k st, k < 5 → s.powered = true → s.mg.stage[k]? = some st → st.state = 1 → imgComplete k st.bytes = true →
        ∃ t, exec (.imageVerified k) s = .next t ∧ ((t.mg.stage[k]?).map (·.bytes)) = some st.bytes
          ∧ ((s.imgOk k st.bytes = true ∧ (k < 4 → s.levelOk st.bytes = true)) ↔ (t.mg.stage[k]?).map (·.state) = some 2))
    ∧ (∀ (m : MgmtHdr) (kind : BitVec 8), Heard s m → holdsRight s m 3 → s.dev.mgmt ≠ 4 → kind.toNat ≤ 4 →
        (s.activateRule kind.toNat = none → exec (.imgActivate m kind) s = .next ((written s m).activateDo kind.toNat))
        ∧ (s.activating kind.toNat = false → exec (.imgDiscard m kind) s
            = .next ((written s m).modMg fun g => { g with stage := g.stage.set kind.toNat ⟨0, [], 0⟩ })))
    ∧ (∀ (m : MgmtHdr), Heard s m → holdsRight s m 3 → s.dev.mgmt ≠ 4 → s.commitRule = none →
        exec (.imgCommit m 1) s = .next (written s m).commitDo)
    ∧ (∀ a, s.mg.act = some a → s.live = true → a.todo = [] → a.current = none → (a.kind = 1 → s.quiescing = false) →
        exec .activationDone s = .next (s.activated a))
    ∧ (∀ a d x, s.mg.act = some a → s.live = true → a.kind = 2 → a.current = some d → a.drainTill = some x → x ≤ s.tick →
        (∀ e ∈ s.run.steps, e.2.waits = true ∨ ∀ g ∈ e.2.quads, g / 64 ≠ d) → exec .activationDrainExpiry s = .next s.actStep)
    ∧ (∀ a d x, s.mg.act = some a → s.live = true → a.kind = 2 → a.current = some d → a.drainTill = some x → x ≤ s.tick →
        tblWf s.run.steps = true →
        ∃ t : State, exec .activationDrainExpiry s = .next t
          ∧ t = ((s.run.steps.filter fun e => !e.2.waits && e.2.quads.any fun g => g / 64 == d).foldl
              (fun u e => u.endStep e.1 stFenced none) s).actStep
          ∧ ∀ n p, s.stp n = some p → p.waits = false → (∃ g ∈ p.quads, g / 64 = d) → t.stp n = none)

/-! ### Power, sensors and reset (15, 16, 17) -/

/-- 15 R415, R418, R420, R427-R429; 12 R360; 16 R449, R450; 17 R470: supply, sensors, rails, clocks and units that fail. The model's choices: 57.0 V
and 63.0 V lie inside the window (DEDUCED, log entry 50); a critical supply also turns the rails off (DEDUCED, log entry 21); SENSOR_READ carries
the temperatures (DESIGN CHOICE, log entry 27). Completes: POWER_ON, START_UP_COMPLETE, SUPPLY_LEVEL_CHANGE, SUPPLY_WARNING_CLEAR, HOST_RAIL_FAULT,
SENSOR_READ, ROOT_LOCK_LOSS, RST_N_ASSERT, RST_N_RELEASE, SERVICE_DEGRADED_CLEAR, MEMORY_ISLAND_FAILURE, DIE_SEQUENCER_OR_RAIL_FAULT. -/
def Obligations.PowerAndSensors : Prop :=
  ∀ (s : State),
    (∀ mv phy rst, s.powered = false → 57000 ≤ mv → mv ≤ 63000 →
        ∃ t, exec (.powerOn mv phy false rst) s = .next t ∧ t.dev.locked = true ∧ t.dev.nclk = 0 ∧ t.dev.vin = mv
          ∧ t.dev.bootEpoch = (s.dev.bootEpoch + 1) % 65536 ∧ t.err.retired = s.err.retired ∧ t.pending = s.pending ∧ t.ses = State.reset.ses
          ∧ (rst = true → t.dev.mgmt = 0 ∧ t.dev.power = .starting))
    ∧ (s.dev.power = .starting → s.live = true → s.dev.rstHeld = false → s.dev.mgmt = 0 →
        ∃ t, exec (.startUpComplete [] none) s = .next t ∧ t.dev.power = .up ∧ t.dev.mgmt = (if s.mg.untested then 3 else 1)
          ∧ t.dev.hbmSt = List.replicate 12 1)
    ∧ (s.powered = true →
        (∀ mv, mv < 52000 ∨ 66000 < mv → exec (.supplyLevelChange mv) s
            = .next ((s.modDev fun d => { d with vin := mv }).fatal 0x0013 0x0B 0xFFFF 0).powerDown)
        ∧ (∀ mv, 57000 ≤ mv → mv ≤ 63000 → s.dev.supplyWarn = false →
            exec (.supplyLevelChange mv) s = .next (s.modDev fun d => { d with vin := mv, supplyOk := none }))
        ∧ (∀ mv, 52000 ≤ mv → mv < 57000 → s.dev.supplyWarn = false → tblWf s.mg.objs = true →
            ∃ t, exec (.supplyLevelChange mv) s = .next t ∧ t.dev.supplyWarn = true ∧ t.dev.vin = mv
              ∧ t.obj 0x2003 1 = (s.obj 0x2003 1 + 1) % 2 ^ 64))
    ∧ (∀ x, s.powered = true → s.dev.supplyOk = some x → x + 6250000 ≤ s.tick →
        exec .supplyWarningClear s = .next (s.modDev fun d => { d with supplyWarn := false, supplyOk := none }))
    ∧ (s.powered = true → s.dev.hostRail = 2 →
        ∃ t, exec .hostRailFault s = .next t ∧ t.dev.hostRail = 3 ∧ t.site.linkUp = false ∧ t.site.bringing = false)
    ∧ (∀ temps, temps.length = 17 → s.powered = true → s.dev.locked = true →
        exec (.sensorRead temps) s = .next (temps.zipIdx.foldl (fun t e => t.sensor e.2 e.1) s))
    ∧ (∀ (i : Nat) (x : Int), i < 17 → s.dev.temps.length = 17 → s.dev.warned[i]? = some false → s.dev.throttled[i]? = some false →
        x < 100 * (s.limits i).1 → (s.limits i).1 ≤ (s.limits i).2.1 → (s.limits i).1 ≤ (s.limits i).2.2 →
        (s.sensor i x).dev = { s.dev with temps := s.dev.temps.set i x } ∧ (s.sensor i x).err = s.err ∧ (s.sensor i x).mg = s.mg)
    ∧ (s.powered = true → s.dev.locked = true → s.dev.siteFatal = false →
        ∃ t, exec .rootLockLoss s = .next t ∧ t.dev.locked = false ∧ t.dev.siteFatal = true ∧ t.dev.mgmt = 4 ∧ t.ses = s.ses)
    ∧ (s.powered = true → s.dev.rstHeld = true → exec .rstNAssert s = .next s)
    ∧ (s.powered = true → s.dev.rstHeld = false → ∃ t, exec .rstNAssert s = .next t ∧ t.dev.rstHeld = true ∧ t.dev.nclk = 0 ∧ t.dev.mgmt = 0
        ∧ t.ses = State.reset.ses ∧ t.run = State.reset.run
        ∧ (¬(s.dev.power = .starting ∧ s.dev.nclk = 0) → t.dev.bootEpoch = (s.dev.bootEpoch + 1) % 65536)
        ∧ (s.dev.power = .starting → s.dev.nclk = 0 → s.dev.bootEpoch < 65536 → t.dev.bootEpoch = s.dev.bootEpoch))
    ∧ (s.powered = true → s.dev.rstHeld = true → ∃ t, exec .rstNRelease s = .next t ∧ t.dev.rstHeld = false ∧ t.ses = s.ses)
    ∧ (∀ x, s.live = true → s.err.degraded = some x → x ≤ s.tick →
        exec .serviceDegradedClear s = .next ((s.modErr fun g => { g with degraded := none }).tellDegraded 0))
    ∧ (∀ die, die < 4 → s.live = true → s.dev.power = .up →
        (s.islandUp die = true → exec (.memoryIslandFailure die) s = .next ((s.modDev fun d =>
            { d with hbmSt := d.hbmSt.zipIdx.map fun e => if e.2 / 3 = die then 2 else e.1 }).fatal 0x0017 0x0F die 0))
        ∧ (s.dieFenced die = false → s.otherFenced die = false → exec (.dieSequencerOrRailFault die false) s = .next (s.fenceDie die))
        ∧ (s.dieFenced die = false → s.otherFenced die = true → exec (.dieSequencerOrRailFault die false) s = .next (s.fatal 0x0015 0x05 die 0)))

/-- 15 R424, R425; 16 R450: the phases of a plinth-partial reset, and the end of a die-partial reset or its timeout. The model's choices (DEDUCED,
log entry 50): the order in which phase 2 ends waiting steps, running ones and jobs, and that phase 3 resets every site register and keeps the link.
Completes: PLINTH_RESET_ENDING, PLINTH_RESET_PHASE3, PLINTH_RESET_RELEASE, DIE_RESET_RELEASE, DIE_RESET_TIMEOUT. -/
def Obligations.ResetPhases : Prop :=
  ∀ (s : State), s.live = true →
    (∀ x act, s.dev.plinth = .quiesce x act → (s.anyRuns = false ∨ x + s.obj 0x2100 3 * 625 ≤ s.tick) →
        exec .plinthResetEnding s = .next (s.plinthEnd.modDev fun d => { d with plinth := .ending s.tick act }))
    ∧ (∀ x act, s.dev.plinth = .quiesce x act → s.anyRuns = true → s.tick < x + s.obj 0x2100 3 * 625 → exec .plinthResetEnding s = .next s)
    ∧ (∀ x act, s.dev.plinth = .ending x act → ((∀ p ∈ s.site.qps, p.spill = []) ∨ x + 62500 ≤ s.tick) →
        ∃ t, exec .plinthResetPhase3 s = .next t ∧ t.dev.plinth = .reset s.tick act ∧ (∀ p ∈ t.site.qps, p = qpReset) ∧ t.txt.streams = []
          ∧ t.ses.tbl = s.ses.tbl ∧ t.ses.cmem = s.ses.cmem ∧ t.ses.hbm = s.ses.hbm ∧ t.sec = s.sec ∧ t.fab = s.fab)
    ∧ (∀ x act, s.dev.plinth = .reset x act → ∃ t, exec .plinthResetRelease s = .next t ∧ t.dev.plinth = .none ∧ t.site.resetting = false
          ∧ t.dev.resetOrder = s.dev.resetOrder.filter (· != 1) ∧ t.ses = s.ses)
    ∧ (∀ die, die < 4 → s.dieInReset die = true → s.dev.dies.length = 4 →
        ∃ t, exec (.dieResetRelease die) s = .next t ∧ t.dieInReset die = false ∧ t.ses = s.ses
          ∧ ∀ d, d ≠ die → t.dieInReset d = s.dieInReset d)
    ∧ (∀ die x, die < 4 → (s.dev.dies[die]?).bind (·.resetAt) = some x → x + 3125000 ≤ s.tick →
        exec (.dieResetTimeout die) s = .next (s.fenceAuto die))

/-! ### The whole machine -/

namespace Sys2Proof.Machine

/-- The commands that act although the clocks do not run or a FATAL error has stopped the device: supply, sensors, reset contact, host
link and its transactions, management messages and the verification of an image, and the answers to a composition map (16 R453). -/
def actsWhenStopped : Instr → Bool
  | .powerOn .. | .startUpComplete .. | .supplyLevelChange .. | .supplyWarningClear | .hostRailFault | .sensorRead .. | .rootLockLoss
  | .rstNAssert | .rstNRelease | .siteLinkBringup .. | .siteBringupRetry | .siteRegisterWrite .. | .doorbellSqTail ..
  | .doorbellCqHead .. | .qpEnable .. | .qpDisable .. | .rdyPendRead .. | .ident .. | .read .. | .write .. | .claim ..
  | .imgData .. | .imageVerified .. | .imgActivate .. | .imgDiscard .. | .imgCommit .. | .mgmtStop .. | .mgmtStart .. | .mgmtService ..
  | .mgmtLeaveService .. | .ctxEnable .. | .quoteNonce .. | .joinOut .. | .ckptCheckpoint .. | .ckptRestore .. | .ckptAbort ..
  | .powerCapW .. | .hostVset .. | .fenceDie .. | .fatalClear .. | .deviceReset .. | .plinthPartialReset .. | .diePartialReset ..
  | .portPartialReset .. | .ucieFlitReplay .. | .ucieRetrainDone .. | .mapCommit .. | .mapAckSend => true
  | _ => false

end Sys2Proof.Machine

/-- 11 R331; 15 R420; 16 R453: with the clocks stopped, or after a FATAL error, every command but those of supply, reset, host link and management
leaves the device as it is; so does a cycle, but for its count; a host write is taken in its turn and discarded. Which commands still act, and that
a row whose condition does not hold changes nothing, are the model's readings (DEDUCED, log entries 5 and 21); a write that arrives is taken in its
turn by its SEQ (DESIGN CHOICE, log entry 12). -/
def Obligations.AStoppedDeviceStaysAsItIs : Prop :=
  ∀ (s t : State) (c : Instr) (l : List Instr), s.live = false →
    (actsWhenStopped c = false → step (s.withPending (c :: l)) = .next (s.withPending l))
    ∧ (s.pending = [] → step s = .next t → t = s ∨ t = s.modDev fun d => { d with nclk := d.nclk + 1 })
    ∧ (∀ h off bs ring tail q head, InTurn s t h → ring ≤ 64 → q < 64 →
        exec (.siteRegisterWrite ⟨h, off⟩ bs) s = .next t ∧ exec (.doorbellSqTail ⟨h, ring⟩ tail) s = .next t
        ∧ exec (.doorbellCqHead ⟨h, q⟩ head) s = .next t ∧ exec (.qpEnable ⟨h, q⟩) s = .next t ∧ exec (.qpDisable ⟨h, q⟩) s = .next t)

/-- Every step keeps the four memories (HBM frames, context memory, submission rings, completion rings) in canonical form: addresses strictly
rising, and no entry equal to what an unlisted address reads as. -/
def Obligations.MemoryStaysCanonical : Prop :=
  ∀ (s t : State), s.memOk = true → step s = .next t → t.memOk = true

/-- The machine at reset, which is the module with no supply (DEDUCED, log entry 1): memories canonical and empty, every unit list at its
number, no command waiting; MGMT_STATE STARTING (14 R400), every queue pair disabled (11 R319), RESETTING set until the plinth runs
(11 R317), ports down, SITE_FATAL clear, the root clock not locked, no session, core or context, and the defaults of POWER_CAP and
PROFILE (15). That memory nothing has written reads 0 is the model's choice (DESIGN CHOICE, log entry 7). -/
def Obligations.TheMachineAtReset : Prop :=
  State.reset.memOk = true ∧ State.reset.unitsOk = true ∧ State.reset.pending = [] ∧ State.reset.out = []
  ∧ State.reset.dev.mgmt = 0 ∧ State.reset.dev.siteFatal = false ∧ State.reset.dev.locked = false ∧ State.reset.dev.nclk = 0
  ∧ (∀ q, State.reset.qp q = qpReset) ∧ qpReset.enabled = false ∧ State.reset.site.resetting = true
  ∧ (∀ p, p < 18 → State.reset.port p = portReset) ∧ (∀ a, memGet State.reset.ses.cmem a = 0 ∧ memGet State.reset.ses.hbm a = 0)
  ∧ (∀ h, State.reset.sess h = none) ∧ (∀ k, State.reset.core k = none) ∧ State.reset.ctxs = []
  ∧ State.reset.obj 0x2101 3 = 3700 ∧ State.reset.obj 0x2101 1 = 0
end

