-- ==== Sys2Proof/Laws/State.lean ====
section
/-! SUPPORT. One lemma per field per update of the state: what each group update, the queue's update, an output and a free
number leave in every field. -/

namespace Sys2Proof.Machine

@[simp] theorem State.modDev_pending (s : State) (f : Dev → Dev) : (s.modDev f).pending = s.pending := rfl
@[simp] theorem State.modDev_out (s : State) (f : Dev → Dev) : (s.modDev f).out = s.out := rfl
@[simp] theorem State.modDev_freeCtr (s : State) (f : Dev → Dev) : (s.modDev f).freeCtr = s.freeCtr := rfl
@[simp] theorem State.modDev_dev (s : State) (f : Dev → Dev) : (s.modDev f).dev = f s.dev := rfl
@[simp] theorem State.modDev_err (s : State) (f : Dev → Dev) : (s.modDev f).err = s.err := rfl
@[simp] theorem State.modDev_run (s : State) (f : Dev → Dev) : (s.modDev f).run = s.run := rfl
@[simp] theorem State.modDev_ses (s : State) (f : Dev → Dev) : (s.modDev f).ses = s.ses := rfl
@[simp] theorem State.modDev_txt (s : State) (f : Dev → Dev) : (s.modDev f).txt = s.txt := rfl
@[simp] theorem State.modDev_fab (s : State) (f : Dev → Dev) : (s.modDev f).fab = s.fab := rfl
@[simp] theorem State.modDev_bulk (s : State) (f : Dev → Dev) : (s.modDev f).bulk = s.bulk := rfl
@[simp] theorem State.modDev_sec (s : State) (f : Dev → Dev) : (s.modDev f).sec = s.sec := rfl
@[simp] theorem State.modDev_site (s : State) (f : Dev → Dev) : (s.modDev f).site = s.site := rfl
@[simp] theorem State.modDev_cks (s : State) (f : Dev → Dev) : (s.modDev f).cks = s.cks := rfl
@[simp] theorem State.modDev_mg (s : State) (f : Dev → Dev) : (s.modDev f).mg = s.mg := rfl

@[simp] theorem State.modErr_pending (s : State) (f : Errs → Errs) : (s.modErr f).pending = s.pending := rfl
@[simp] theorem State.modErr_out (s : State) (f : Errs → Errs) : (s.modErr f).out = s.out := rfl
@[simp] theorem State.modErr_freeCtr (s : State) (f : Errs → Errs) : (s.modErr f).freeCtr = s.freeCtr := rfl
@[simp] theorem State.modErr_dev (s : State) (f : Errs → Errs) : (s.modErr f).dev = s.dev := rfl
@[simp] theorem State.modErr_err (s : State) (f : Errs → Errs) : (s.modErr f).err = f s.err := rfl
@[simp] theorem State.modErr_run (s : State) (f : Errs → Errs) : (s.modErr f).run = s.run := rfl
@[simp] theorem State.modErr_ses (s : State) (f : Errs → Errs) : (s.modErr f).ses = s.ses := rfl
@[simp] theorem State.modErr_txt (s : State) (f : Errs → Errs) : (s.modErr f).txt = s.txt := rfl
@[simp] theorem State.modErr_fab (s : State) (f : Errs → Errs) : (s.modErr f).fab = s.fab := rfl
@[simp] theorem State.modErr_bulk (s : State) (f : Errs → Errs) : (s.modErr f).bulk = s.bulk := rfl
@[simp] theorem State.modErr_sec (s : State) (f : Errs → Errs) : (s.modErr f).sec = s.sec := rfl
@[simp] theorem State.modErr_site (s : State) (f : Errs → Errs) : (s.modErr f).site = s.site := rfl
@[simp] theorem State.modErr_cks (s : State) (f : Errs → Errs) : (s.modErr f).cks = s.cks := rfl
@[simp] theorem State.modErr_mg (s : State) (f : Errs → Errs) : (s.modErr f).mg = s.mg := rfl

@[simp] theorem State.modRun_pending (s : State) (f : Run → Run) : (s.modRun f).pending = s.pending := rfl
@[simp] theorem State.modRun_out (s : State) (f : Run → Run) : (s.modRun f).out = s.out := rfl
@[simp] theorem State.modRun_freeCtr (s : State) (f : Run → Run) : (s.modRun f).freeCtr = s.freeCtr := rfl
@[simp] theorem State.modRun_dev (s : State) (f : Run → Run) : (s.modRun f).dev = s.dev := rfl
@[simp] theorem State.modRun_err (s : State) (f : Run → Run) : (s.modRun f).err = s.err := rfl
@[simp] theorem State.modRun_run (s : State) (f : Run → Run) : (s.modRun f).run = f s.run := rfl
@[simp] theorem State.modRun_ses (s : State) (f : Run → Run) : (s.modRun f).ses = s.ses := rfl
@[simp] theorem State.modRun_txt (s : State) (f : Run → Run) : (s.modRun f).txt = s.txt := rfl
@[simp] theorem State.modRun_fab (s : State) (f : Run → Run) : (s.modRun f).fab = s.fab := rfl
@[simp] theorem State.modRun_bulk (s : State) (f : Run → Run) : (s.modRun f).bulk = s.bulk := rfl
@[simp] theorem State.modRun_sec (s : State) (f : Run → Run) : (s.modRun f).sec = s.sec := rfl
@[simp] theorem State.modRun_site (s : State) (f : Run → Run) : (s.modRun f).site = s.site := rfl
@[simp] theorem State.modRun_cks (s : State) (f : Run → Run) : (s.modRun f).cks = s.cks := rfl
@[simp] theorem State.modRun_mg (s : State) (f : Run → Run) : (s.modRun f).mg = s.mg := rfl

@[simp] theorem State.modSes_pending (s : State) (f : Ses → Ses) : (s.modSes f).pending = s.pending := rfl
@[simp] theorem State.modSes_out (s : State) (f : Ses → Ses) : (s.modSes f).out = s.out := rfl
@[simp] theorem State.modSes_freeCtr (s : State) (f : Ses → Ses) : (s.modSes f).freeCtr = s.freeCtr := rfl
@[simp] theorem State.modSes_dev (s : State) (f : Ses → Ses) : (s.modSes f).dev = s.dev := rfl
@[simp] theorem State.modSes_err (s : State) (f : Ses → Ses) : (s.modSes f).err = s.err := rfl
@[simp] theorem State.modSes_run (s : State) (f : Ses → Ses) : (s.modSes f).run = s.run := rfl
@[simp] theorem State.modSes_ses (s : State) (f : Ses → Ses) : (s.modSes f).ses = f s.ses := rfl
@[simp] theorem State.modSes_txt (s : State) (f : Ses → Ses) : (s.modSes f).txt = s.txt := rfl
@[simp] theorem State.modSes_fab (s : State) (f : Ses → Ses) : (s.modSes f).fab = s.fab := rfl
@[simp] theorem State.modSes_bulk (s : State) (f : Ses → Ses) : (s.modSes f).bulk = s.bulk := rfl
@[simp] theorem State.modSes_sec (s : State) (f : Ses → Ses) : (s.modSes f).sec = s.sec := rfl
@[simp] theorem State.modSes_site (s : State) (f : Ses → Ses) : (s.modSes f).site = s.site := rfl
@[simp] theorem State.modSes_cks (s : State) (f : Ses → Ses) : (s.modSes f).cks = s.cks := rfl
@[simp] theorem State.modSes_mg (s : State) (f : Ses → Ses) : (s.modSes f).mg = s.mg := rfl

@[simp] theorem State.modTxt_pending (s : State) (f : Txt → Txt) : (s.modTxt f).pending = s.pending := rfl
@[simp] theorem State.modTxt_out (s : State) (f : Txt → Txt) : (s.modTxt f).out = s.out := rfl
@[simp] theorem State.modTxt_freeCtr (s : State) (f : Txt → Txt) : (s.modTxt f).freeCtr = s.freeCtr := rfl
@[simp] theorem State.modTxt_dev (s : State) (f : Txt → Txt) : (s.modTxt f).dev = s.dev := rfl
@[simp] theorem State.modTxt_err (s : State) (f : Txt → Txt) : (s.modTxt f).err = s.err := rfl
@[simp] theorem State.modTxt_run (s : State) (f : Txt → Txt) : (s.modTxt f).run = s.run := rfl
@[simp] theorem State.modTxt_ses (s : State) (f : Txt → Txt) : (s.modTxt f).ses = s.ses := rfl
@[simp] theorem State.modTxt_txt (s : State) (f : Txt → Txt) : (s.modTxt f).txt = f s.txt := rfl
@[simp] theorem State.modTxt_fab (s : State) (f : Txt → Txt) : (s.modTxt f).fab = s.fab := rfl
@[simp] theorem State.modTxt_bulk (s : State) (f : Txt → Txt) : (s.modTxt f).bulk = s.bulk := rfl
@[simp] theorem State.modTxt_sec (s : State) (f : Txt → Txt) : (s.modTxt f).sec = s.sec := rfl
@[simp] theorem State.modTxt_site (s : State) (f : Txt → Txt) : (s.modTxt f).site = s.site := rfl
@[simp] theorem State.modTxt_cks (s : State) (f : Txt → Txt) : (s.modTxt f).cks = s.cks := rfl
@[simp] theorem State.modTxt_mg (s : State) (f : Txt → Txt) : (s.modTxt f).mg = s.mg := rfl

@[simp] theorem State.modFab_pending (s : State) (f : Fab → Fab) : (s.modFab f).pending = s.pending := rfl
@[simp] theorem State.modFab_out (s : State) (f : Fab → Fab) : (s.modFab f).out = s.out := rfl
@[simp] theorem State.modFab_freeCtr (s : State) (f : Fab → Fab) : (s.modFab f).freeCtr = s.freeCtr := rfl
@[simp] theorem State.modFab_dev (s : State) (f : Fab → Fab) : (s.modFab f).dev = s.dev := rfl
@[simp] theorem State.modFab_err (s : State) (f : Fab → Fab) : (s.modFab f).err = s.err := rfl
@[simp] theorem State.modFab_run (s : State) (f : Fab → Fab) : (s.modFab f).run = s.run := rfl
@[simp] theorem State.modFab_ses (s : State) (f : Fab → Fab) : (s.modFab f).ses = s.ses := rfl
@[simp] theorem State.modFab_txt (s : State) (f : Fab → Fab) : (s.modFab f).txt = s.txt := rfl
@[simp] theorem State.modFab_fab (s : State) (f : Fab → Fab) : (s.modFab f).fab = f s.fab := rfl
@[simp] theorem State.modFab_bulk (s : State) (f : Fab → Fab) : (s.modFab f).bulk = s.bulk := rfl
@[simp] theorem State.modFab_sec (s : State) (f : Fab → Fab) : (s.modFab f).sec = s.sec := rfl
@[simp] theorem State.modFab_site (s : State) (f : Fab → Fab) : (s.modFab f).site = s.site := rfl
@[simp] theorem State.modFab_cks (s : State) (f : Fab → Fab) : (s.modFab f).cks = s.cks := rfl
@[simp] theorem State.modFab_mg (s : State) (f : Fab → Fab) : (s.modFab f).mg = s.mg := rfl

@[simp] theorem State.modBulk_pending (s : State) (f : Bulk → Bulk) : (s.modBulk f).pending = s.pending := rfl
@[simp] theorem State.modBulk_out (s : State) (f : Bulk → Bulk) : (s.modBulk f).out = s.out := rfl
@[simp] theorem State.modBulk_freeCtr (s : State) (f : Bulk → Bulk) : (s.modBulk f).freeCtr = s.freeCtr := rfl
@[simp] theorem State.modBulk_dev (s : State) (f : Bulk → Bulk) : (s.modBulk f).dev = s.dev := rfl
@[simp] theorem State.modBulk_err (s : State) (f : Bulk → Bulk) : (s.modBulk f).err = s.err := rfl
@[simp] theorem State.modBulk_run (s : State) (f : Bulk → Bulk) : (s.modBulk f).run = s.run := rfl
@[simp] theorem State.modBulk_ses (s : State) (f : Bulk → Bulk) : (s.modBulk f).ses = s.ses := rfl
@[simp] theorem State.modBulk_txt (s : State) (f : Bulk → Bulk) : (s.modBulk f).txt = s.txt := rfl
@[simp] theorem State.modBulk_fab (s : State) (f : Bulk → Bulk) : (s.modBulk f).fab = s.fab := rfl
@[simp] theorem State.modBulk_bulk (s : State) (f : Bulk → Bulk) : (s.modBulk f).bulk = f s.bulk := rfl
@[simp] theorem State.modBulk_sec (s : State) (f : Bulk → Bulk) : (s.modBulk f).sec = s.sec := rfl
@[simp] theorem State.modBulk_site (s : State) (f : Bulk → Bulk) : (s.modBulk f).site = s.site := rfl
@[simp] theorem State.modBulk_cks (s : State) (f : Bulk → Bulk) : (s.modBulk f).cks = s.cks := rfl
@[simp] theorem State.modBulk_mg (s : State) (f : Bulk → Bulk) : (s.modBulk f).mg = s.mg := rfl

@[simp] theorem State.modSec_pending (s : State) (f : Sec → Sec) : (s.modSec f).pending = s.pending := rfl
@[simp] theorem State.modSec_out (s : State) (f : Sec → Sec) : (s.modSec f).out = s.out := rfl
@[simp] theorem State.modSec_freeCtr (s : State) (f : Sec → Sec) : (s.modSec f).freeCtr = s.freeCtr := rfl
@[simp] theorem State.modSec_dev (s : State) (f : Sec → Sec) : (s.modSec f).dev = s.dev := rfl
@[simp] theorem State.modSec_err (s : State) (f : Sec → Sec) : (s.modSec f).err = s.err := rfl
@[simp] theorem State.modSec_run (s : State) (f : Sec → Sec) : (s.modSec f).run = s.run := rfl
@[simp] theorem State.modSec_ses (s : State) (f : Sec → Sec) : (s.modSec f).ses = s.ses := rfl
@[simp] theorem State.modSec_txt (s : State) (f : Sec → Sec) : (s.modSec f).txt = s.txt := rfl
@[simp] theorem State.modSec_fab (s : State) (f : Sec → Sec) : (s.modSec f).fab = s.fab := rfl
@[simp] theorem State.modSec_bulk (s : State) (f : Sec → Sec) : (s.modSec f).bulk = s.bulk := rfl
@[simp] theorem State.modSec_sec (s : State) (f : Sec → Sec) : (s.modSec f).sec = f s.sec := rfl
@[simp] theorem State.modSec_site (s : State) (f : Sec → Sec) : (s.modSec f).site = s.site := rfl
@[simp] theorem State.modSec_cks (s : State) (f : Sec → Sec) : (s.modSec f).cks = s.cks := rfl
@[simp] theorem State.modSec_mg (s : State) (f : Sec → Sec) : (s.modSec f).mg = s.mg := rfl

@[simp] theorem State.modSite_pending (s : State) (f : Site → Site) : (s.modSite f).pending = s.pending := rfl
@[simp] theorem State.modSite_out (s : State) (f : Site → Site) : (s.modSite f).out = s.out := rfl
@[simp] theorem State.modSite_freeCtr (s : State) (f : Site → Site) : (s.modSite f).freeCtr = s.freeCtr := rfl
@[simp] theorem State.modSite_dev (s : State) (f : Site → Site) : (s.modSite f).dev = s.dev := rfl
@[simp] theorem State.modSite_err (s : State) (f : Site → Site) : (s.modSite f).err = s.err := rfl
@[simp] theorem State.modSite_run (s : State) (f : Site → Site) : (s.modSite f).run = s.run := rfl
@[simp] theorem State.modSite_ses (s : State) (f : Site → Site) : (s.modSite f).ses = s.ses := rfl
@[simp] theorem State.modSite_txt (s : State) (f : Site → Site) : (s.modSite f).txt = s.txt := rfl
@[simp] theorem State.modSite_fab (s : State) (f : Site → Site) : (s.modSite f).fab = s.fab := rfl
@[simp] theorem State.modSite_bulk (s : State) (f : Site → Site) : (s.modSite f).bulk = s.bulk := rfl
@[simp] theorem State.modSite_sec (s : State) (f : Site → Site) : (s.modSite f).sec = s.sec := rfl
@[simp] theorem State.modSite_site (s : State) (f : Site → Site) : (s.modSite f).site = f s.site := rfl
@[simp] theorem State.modSite_cks (s : State) (f : Site → Site) : (s.modSite f).cks = s.cks := rfl
@[simp] theorem State.modSite_mg (s : State) (f : Site → Site) : (s.modSite f).mg = s.mg := rfl

@[simp] theorem State.modCks_pending (s : State) (f : Cks → Cks) : (s.modCks f).pending = s.pending := rfl
@[simp] theorem State.modCks_out (s : State) (f : Cks → Cks) : (s.modCks f).out = s.out := rfl
@[simp] theorem State.modCks_freeCtr (s : State) (f : Cks → Cks) : (s.modCks f).freeCtr = s.freeCtr := rfl
@[simp] theorem State.modCks_dev (s : State) (f : Cks → Cks) : (s.modCks f).dev = s.dev := rfl
@[simp] theorem State.modCks_err (s : State) (f : Cks → Cks) : (s.modCks f).err = s.err := rfl
@[simp] theorem State.modCks_run (s : State) (f : Cks → Cks) : (s.modCks f).run = s.run := rfl
@[simp] theorem State.modCks_ses (s : State) (f : Cks → Cks) : (s.modCks f).ses = s.ses := rfl
@[simp] theorem State.modCks_txt (s : State) (f : Cks → Cks) : (s.modCks f).txt = s.txt := rfl
@[simp] theorem State.modCks_fab (s : State) (f : Cks → Cks) : (s.modCks f).fab = s.fab := rfl
@[simp] theorem State.modCks_bulk (s : State) (f : Cks → Cks) : (s.modCks f).bulk = s.bulk := rfl
@[simp] theorem State.modCks_sec (s : State) (f : Cks → Cks) : (s.modCks f).sec = s.sec := rfl
@[simp] theorem State.modCks_site (s : State) (f : Cks → Cks) : (s.modCks f).site = s.site := rfl
@[simp] theorem State.modCks_cks (s : State) (f : Cks → Cks) : (s.modCks f).cks = f s.cks := rfl
@[simp] theorem State.modCks_mg (s : State) (f : Cks → Cks) : (s.modCks f).mg = s.mg := rfl

@[simp] theorem State.modMg_pending (s : State) (f : Mgs → Mgs) : (s.modMg f).pending = s.pending := rfl
@[simp] theorem State.modMg_out (s : State) (f : Mgs → Mgs) : (s.modMg f).out = s.out := rfl
@[simp] theorem State.modMg_freeCtr (s : State) (f : Mgs → Mgs) : (s.modMg f).freeCtr = s.freeCtr := rfl
@[simp] theorem State.modMg_dev (s : State) (f : Mgs → Mgs) : (s.modMg f).dev = s.dev := rfl
@[simp] theorem State.modMg_err (s : State) (f : Mgs → Mgs) : (s.modMg f).err = s.err := rfl
@[simp] theorem State.modMg_run (s : State) (f : Mgs → Mgs) : (s.modMg f).run = s.run := rfl
@[simp] theorem State.modMg_ses (s : State) (f : Mgs → Mgs) : (s.modMg f).ses = s.ses := rfl
@[simp] theorem State.modMg_txt (s : State) (f : Mgs → Mgs) : (s.modMg f).txt = s.txt := rfl
@[simp] theorem State.modMg_fab (s : State) (f : Mgs → Mgs) : (s.modMg f).fab = s.fab := rfl
@[simp] theorem State.modMg_bulk (s : State) (f : Mgs → Mgs) : (s.modMg f).bulk = s.bulk := rfl
@[simp] theorem State.modMg_sec (s : State) (f : Mgs → Mgs) : (s.modMg f).sec = s.sec := rfl
@[simp] theorem State.modMg_site (s : State) (f : Mgs → Mgs) : (s.modMg f).site = s.site := rfl
@[simp] theorem State.modMg_cks (s : State) (f : Mgs → Mgs) : (s.modMg f).cks = s.cks := rfl
@[simp] theorem State.modMg_mg (s : State) (f : Mgs → Mgs) : (s.modMg f).mg = f s.mg := rfl

@[simp] theorem State.withPending_pending (s : State) (l : List Instr) : (s.withPending l).pending = l := rfl
@[simp] theorem State.withPending_out (s : State) (l : List Instr) : (s.withPending l).out = s.out := rfl
@[simp] theorem State.withPending_freeCtr (s : State) (l : List Instr) : (s.withPending l).freeCtr = s.freeCtr := rfl
@[simp] theorem State.withPending_dev (s : State) (l : List Instr) : (s.withPending l).dev = s.dev := rfl
@[simp] theorem State.withPending_err (s : State) (l : List Instr) : (s.withPending l).err = s.err := rfl
@[simp] theorem State.withPending_run (s : State) (l : List Instr) : (s.withPending l).run = s.run := rfl
@[simp] theorem State.withPending_ses (s : State) (l : List Instr) : (s.withPending l).ses = s.ses := rfl
@[simp] theorem State.withPending_txt (s : State) (l : List Instr) : (s.withPending l).txt = s.txt := rfl
@[simp] theorem State.withPending_fab (s : State) (l : List Instr) : (s.withPending l).fab = s.fab := rfl
@[simp] theorem State.withPending_bulk (s : State) (l : List Instr) : (s.withPending l).bulk = s.bulk := rfl
@[simp] theorem State.withPending_sec (s : State) (l : List Instr) : (s.withPending l).sec = s.sec := rfl
@[simp] theorem State.withPending_site (s : State) (l : List Instr) : (s.withPending l).site = s.site := rfl
@[simp] theorem State.withPending_cks (s : State) (l : List Instr) : (s.withPending l).cks = s.cks := rfl
@[simp] theorem State.withPending_mg (s : State) (l : List Instr) : (s.withPending l).mg = s.mg := rfl

@[simp] theorem State.emit_pending (s : State) (o : Output) : (s.emit o).pending = s.pending := rfl
@[simp] theorem State.emit_out (s : State) (o : Output) : (s.emit o).out = o :: s.out := rfl
@[simp] theorem State.emit_freeCtr (s : State) (o : Output) : (s.emit o).freeCtr = s.freeCtr := rfl
@[simp] theorem State.emit_dev (s : State) (o : Output) : (s.emit o).dev = s.dev := rfl
@[simp] theorem State.emit_err (s : State) (o : Output) : (s.emit o).err = s.err := rfl
@[simp] theorem State.emit_run (s : State) (o : Output) : (s.emit o).run = s.run := rfl
@[simp] theorem State.emit_ses (s : State) (o : Output) : (s.emit o).ses = s.ses := rfl
@[simp] theorem State.emit_txt (s : State) (o : Output) : (s.emit o).txt = s.txt := rfl
@[simp] theorem State.emit_fab (s : State) (o : Output) : (s.emit o).fab = s.fab := rfl
@[simp] theorem State.emit_bulk (s : State) (o : Output) : (s.emit o).bulk = s.bulk := rfl
@[simp] theorem State.emit_sec (s : State) (o : Output) : (s.emit o).sec = s.sec := rfl
@[simp] theorem State.emit_site (s : State) (o : Output) : (s.emit o).site = s.site := rfl
@[simp] theorem State.emit_cks (s : State) (o : Output) : (s.emit o).cks = s.cks := rfl
@[simp] theorem State.emit_mg (s : State) (o : Output) : (s.emit o).mg = s.mg := rfl

@[simp] theorem State.take1_pending (s : State) : s.take1.2.pending = s.pending := rfl
@[simp] theorem State.take1_out (s : State) : s.take1.2.out = s.out := rfl
@[simp] theorem State.take1_freeCtr (s : State) : s.take1.2.freeCtr = s.freeCtr + 1 := rfl
@[simp] theorem State.take1_dev (s : State) : s.take1.2.dev = s.dev := rfl
@[simp] theorem State.take1_err (s : State) : s.take1.2.err = s.err := rfl
@[simp] theorem State.take1_run (s : State) : s.take1.2.run = s.run := rfl
@[simp] theorem State.take1_ses (s : State) : s.take1.2.ses = s.ses := rfl
@[simp] theorem State.take1_txt (s : State) : s.take1.2.txt = s.txt := rfl
@[simp] theorem State.take1_fab (s : State) : s.take1.2.fab = s.fab := rfl
@[simp] theorem State.take1_bulk (s : State) : s.take1.2.bulk = s.bulk := rfl
@[simp] theorem State.take1_sec (s : State) : s.take1.2.sec = s.sec := rfl
@[simp] theorem State.take1_site (s : State) : s.take1.2.site = s.site := rfl
@[simp] theorem State.take1_cks (s : State) : s.take1.2.cks = s.cks := rfl
@[simp] theorem State.take1_mg (s : State) : s.take1.2.mg = s.mg := rfl
@[simp] theorem State.take1_fst (s : State) : s.take1.1 = s.freeCtr := rfl

@[simp] theorem State.setObj_pending (s : State) (ix sub row col v : Nat) : (s.setObj ix sub row col v).pending = s.pending := rfl
@[simp] theorem State.setObj_out (s : State) (ix sub row col v : Nat) : (s.setObj ix sub row col v).out = s.out := rfl
@[simp] theorem State.setObj_freeCtr (s : State) (ix sub row col v : Nat) : (s.setObj ix sub row col v).freeCtr = s.freeCtr := rfl
@[simp] theorem State.setObj_dev (s : State) (ix sub row col v : Nat) : (s.setObj ix sub row col v).dev = s.dev := rfl
@[simp] theorem State.setObj_err (s : State) (ix sub row col v : Nat) : (s.setObj ix sub row col v).err = s.err := rfl
@[simp] theorem State.setObj_run (s : State) (ix sub row col v : Nat) : (s.setObj ix sub row col v).run = s.run := rfl
@[simp] theorem State.setObj_ses (s : State) (ix sub row col v : Nat) : (s.setObj ix sub row col v).ses = s.ses := rfl
@[simp] theorem State.setObj_txt (s : State) (ix sub row col v : Nat) : (s.setObj ix sub row col v).txt = s.txt := rfl
@[simp] theorem State.setObj_fab (s : State) (ix sub row col v : Nat) : (s.setObj ix sub row col v).fab = s.fab := rfl
@[simp] theorem State.setObj_bulk (s : State) (ix sub row col v : Nat) : (s.setObj ix sub row col v).bulk = s.bulk := rfl
@[simp] theorem State.setObj_sec (s : State) (ix sub row col v : Nat) : (s.setObj ix sub row col v).sec = s.sec := rfl
@[simp] theorem State.setObj_site (s : State) (ix sub row col v : Nat) : (s.setObj ix sub row col v).site = s.site := rfl
@[simp] theorem State.setObj_cks (s : State) (ix sub row col v : Nat) : (s.setObj ix sub row col v).cks = s.cks := rfl

@[simp] theorem State.count_pending (s : State) (ix sub row n : Nat) : (s.count ix sub row n).pending = s.pending := rfl
@[simp] theorem State.count_out (s : State) (ix sub row n : Nat) : (s.count ix sub row n).out = s.out := rfl
@[simp] theorem State.count_freeCtr (s : State) (ix sub row n : Nat) : (s.count ix sub row n).freeCtr = s.freeCtr := rfl
@[simp] theorem State.count_dev (s : State) (ix sub row n : Nat) : (s.count ix sub row n).dev = s.dev := rfl
@[simp] theorem State.count_err (s : State) (ix sub row n : Nat) : (s.count ix sub row n).err = s.err := rfl
@[simp] theorem State.count_run (s : State) (ix sub row n : Nat) : (s.count ix sub row n).run = s.run := rfl
@[simp] theorem State.count_ses (s : State) (ix sub row n : Nat) : (s.count ix sub row n).ses = s.ses := rfl
@[simp] theorem State.count_txt (s : State) (ix sub row n : Nat) : (s.count ix sub row n).txt = s.txt := rfl
@[simp] theorem State.count_fab (s : State) (ix sub row n : Nat) : (s.count ix sub row n).fab = s.fab := rfl
@[simp] theorem State.count_bulk (s : State) (ix sub row n : Nat) : (s.count ix sub row n).bulk = s.bulk := rfl
@[simp] theorem State.count_sec (s : State) (ix sub row n : Nat) : (s.count ix sub row n).sec = s.sec := rfl
@[simp] theorem State.count_site (s : State) (ix sub row n : Nat) : (s.count ix sub row n).site = s.site := rfl
@[simp] theorem State.count_cks (s : State) (ix sub row n : Nat) : (s.count ix sub row n).cks = s.cks := rfl

@[simp] theorem State.setCore_pending (s : State) (k : Nat) (c : Core) : (s.setCore k c).pending = s.pending := rfl
@[simp] theorem State.setCore_out (s : State) (k : Nat) (c : Core) : (s.setCore k c).out = s.out := rfl
@[simp] theorem State.setCore_freeCtr (s : State) (k : Nat) (c : Core) : (s.setCore k c).freeCtr = s.freeCtr := rfl
@[simp] theorem State.setCore_dev (s : State) (k : Nat) (c : Core) : (s.setCore k c).dev = s.dev := rfl
@[simp] theorem State.setCore_err (s : State) (k : Nat) (c : Core) : (s.setCore k c).err = s.err := rfl
@[simp] theorem State.setCore_ses (s : State) (k : Nat) (c : Core) : (s.setCore k c).ses = s.ses := rfl
@[simp] theorem State.setCore_txt (s : State) (k : Nat) (c : Core) : (s.setCore k c).txt = s.txt := rfl
@[simp] theorem State.setCore_fab (s : State) (k : Nat) (c : Core) : (s.setCore k c).fab = s.fab := rfl
@[simp] theorem State.setCore_bulk (s : State) (k : Nat) (c : Core) : (s.setCore k c).bulk = s.bulk := rfl
@[simp] theorem State.setCore_sec (s : State) (k : Nat) (c : Core) : (s.setCore k c).sec = s.sec := rfl
@[simp] theorem State.setCore_site (s : State) (k : Nat) (c : Core) : (s.setCore k c).site = s.site := rfl
@[simp] theorem State.setCore_cks (s : State) (k : Nat) (c : Core) : (s.setCore k c).cks = s.cks := rfl
@[simp] theorem State.setCore_mg (s : State) (k : Nat) (c : Core) : (s.setCore k c).mg = s.mg := rfl

@[simp] theorem State.setStp_pending (s : State) (n : Nat) (p : Step) : (s.setStp n p).pending = s.pending := rfl
@[simp] theorem State.setStp_out (s : State) (n : Nat) (p : Step) : (s.setStp n p).out = s.out := rfl
@[simp] theorem State.setStp_freeCtr (s : State) (n : Nat) (p : Step) : (s.setStp n p).freeCtr = s.freeCtr := rfl
@[simp] theorem State.setStp_dev (s : State) (n : Nat) (p : Step) : (s.setStp n p).dev = s.dev := rfl
@[simp] theorem State.setStp_err (s : State) (n : Nat) (p : Step) : (s.setStp n p).err = s.err := rfl
@[simp] theorem State.setStp_ses (s : State) (n : Nat) (p : Step) : (s.setStp n p).ses = s.ses := rfl
@[simp] theorem State.setStp_txt (s : State) (n : Nat) (p : Step) : (s.setStp n p).txt = s.txt := rfl
@[simp] theorem State.setStp_fab (s : State) (n : Nat) (p : Step) : (s.setStp n p).fab = s.fab := rfl
@[simp] theorem State.setStp_bulk (s : State) (n : Nat) (p : Step) : (s.setStp n p).bulk = s.bulk := rfl
@[simp] theorem State.setStp_sec (s : State) (n : Nat) (p : Step) : (s.setStp n p).sec = s.sec := rfl
@[simp] theorem State.setStp_site (s : State) (n : Nat) (p : Step) : (s.setStp n p).site = s.site := rfl
@[simp] theorem State.setStp_cks (s : State) (n : Nat) (p : Step) : (s.setStp n p).cks = s.cks := rfl
@[simp] theorem State.setStp_mg (s : State) (n : Nat) (p : Step) : (s.setStp n p).mg = s.mg := rfl

@[simp] theorem State.setQp_pending (s : State) (q : Nat) (p : Qp) : (s.setQp q p).pending = s.pending := rfl
@[simp] theorem State.setQp_out (s : State) (q : Nat) (p : Qp) : (s.setQp q p).out = s.out := rfl
@[simp] theorem State.setQp_freeCtr (s : State) (q : Nat) (p : Qp) : (s.setQp q p).freeCtr = s.freeCtr := rfl
@[simp] theorem State.setQp_dev (s : State) (q : Nat) (p : Qp) : (s.setQp q p).dev = s.dev := rfl
@[simp] theorem State.setQp_err (s : State) (q : Nat) (p : Qp) : (s.setQp q p).err = s.err := rfl
@[simp] theorem State.setQp_run (s : State) (q : Nat) (p : Qp) : (s.setQp q p).run = s.run := rfl
@[simp] theorem State.setQp_ses (s : State) (q : Nat) (p : Qp) : (s.setQp q p).ses = s.ses := rfl
@[simp] theorem State.setQp_txt (s : State) (q : Nat) (p : Qp) : (s.setQp q p).txt = s.txt := rfl
@[simp] theorem State.setQp_fab (s : State) (q : Nat) (p : Qp) : (s.setQp q p).fab = s.fab := rfl
@[simp] theorem State.setQp_bulk (s : State) (q : Nat) (p : Qp) : (s.setQp q p).bulk = s.bulk := rfl
@[simp] theorem State.setQp_sec (s : State) (q : Nat) (p : Qp) : (s.setQp q p).sec = s.sec := rfl
@[simp] theorem State.setQp_cks (s : State) (q : Nat) (p : Qp) : (s.setQp q p).cks = s.cks := rfl
@[simp] theorem State.setQp_mg (s : State) (q : Nat) (p : Qp) : (s.setQp q p).mg = s.mg := rfl

@[simp] theorem State.setStrm_pending (s : State) (n : Nat) (t : TStream) : (s.setStrm n t).pending = s.pending := rfl
@[simp] theorem State.setStrm_out (s : State) (n : Nat) (t : TStream) : (s.setStrm n t).out = s.out := rfl
@[simp] theorem State.setStrm_freeCtr (s : State) (n : Nat) (t : TStream) : (s.setStrm n t).freeCtr = s.freeCtr := rfl
@[simp] theorem State.setStrm_dev (s : State) (n : Nat) (t : TStream) : (s.setStrm n t).dev = s.dev := rfl
@[simp] theorem State.setStrm_err (s : State) (n : Nat) (t : TStream) : (s.setStrm n t).err = s.err := rfl
@[simp] theorem State.setStrm_run (s : State) (n : Nat) (t : TStream) : (s.setStrm n t).run = s.run := rfl
@[simp] theorem State.setStrm_ses (s : State) (n : Nat) (t : TStream) : (s.setStrm n t).ses = s.ses := rfl
@[simp] theorem State.setStrm_fab (s : State) (n : Nat) (t : TStream) : (s.setStrm n t).fab = s.fab := rfl
@[simp] theorem State.setStrm_bulk (s : State) (n : Nat) (t : TStream) : (s.setStrm n t).bulk = s.bulk := rfl
@[simp] theorem State.setStrm_sec (s : State) (n : Nat) (t : TStream) : (s.setStrm n t).sec = s.sec := rfl
@[simp] theorem State.setStrm_site (s : State) (n : Nat) (t : TStream) : (s.setStrm n t).site = s.site := rfl
@[simp] theorem State.setStrm_cks (s : State) (n : Nat) (t : TStream) : (s.setStrm n t).cks = s.cks := rfl
@[simp] theorem State.setStrm_mg (s : State) (n : Nat) (t : TStream) : (s.setStrm n t).mg = s.mg := rfl

@[simp] theorem State.setCkpt_pending (s : State) (ctx : Nat) (k : Ckpt) : (s.setCkpt ctx k).pending = s.pending := rfl
@[simp] theorem State.setCkpt_out (s : State) (ctx : Nat) (k : Ckpt) : (s.setCkpt ctx k).out = s.out := rfl
@[simp] theorem State.setCkpt_freeCtr (s : State) (ctx : Nat) (k : Ckpt) : (s.setCkpt ctx k).freeCtr = s.freeCtr := rfl
@[simp] theorem State.setCkpt_dev (s : State) (ctx : Nat) (k : Ckpt) : (s.setCkpt ctx k).dev = s.dev := rfl
@[simp] theorem State.setCkpt_err (s : State) (ctx : Nat) (k : Ckpt) : (s.setCkpt ctx k).err = s.err := rfl
@[simp] theorem State.setCkpt_run (s : State) (ctx : Nat) (k : Ckpt) : (s.setCkpt ctx k).run = s.run := rfl
@[simp] theorem State.setCkpt_ses (s : State) (ctx : Nat) (k : Ckpt) : (s.setCkpt ctx k).ses = s.ses := rfl
@[simp] theorem State.setCkpt_txt (s : State) (ctx : Nat) (k : Ckpt) : (s.setCkpt ctx k).txt = s.txt := rfl
@[simp] theorem State.setCkpt_fab (s : State) (ctx : Nat) (k : Ckpt) : (s.setCkpt ctx k).fab = s.fab := rfl
@[simp] theorem State.setCkpt_bulk (s : State) (ctx : Nat) (k : Ckpt) : (s.setCkpt ctx k).bulk = s.bulk := rfl
@[simp] theorem State.setCkpt_sec (s : State) (ctx : Nat) (k : Ckpt) : (s.setCkpt ctx k).sec = s.sec := rfl
@[simp] theorem State.setCkpt_site (s : State) (ctx : Nat) (k : Ckpt) : (s.setCkpt ctx k).site = s.site := rfl
@[simp] theorem State.setCkpt_mg (s : State) (ctx : Nat) (k : Ckpt) : (s.setCkpt ctx k).mg = s.mg := rfl

@[simp] theorem State.setSess_pending (s : State) (h : Nat) (x : Session) : (s.setSess h x).pending = s.pending := rfl
@[simp] theorem State.setSess_out (s : State) (h : Nat) (x : Session) : (s.setSess h x).out = s.out := rfl
@[simp] theorem State.setSess_freeCtr (s : State) (h : Nat) (x : Session) : (s.setSess h x).freeCtr = s.freeCtr := rfl
@[simp] theorem State.setSess_dev (s : State) (h : Nat) (x : Session) : (s.setSess h x).dev = s.dev := rfl
@[simp] theorem State.setSess_err (s : State) (h : Nat) (x : Session) : (s.setSess h x).err = s.err := rfl
@[simp] theorem State.setSess_run (s : State) (h : Nat) (x : Session) : (s.setSess h x).run = s.run := rfl
@[simp] theorem State.setSess_txt (s : State) (h : Nat) (x : Session) : (s.setSess h x).txt = s.txt := rfl
@[simp] theorem State.setSess_fab (s : State) (h : Nat) (x : Session) : (s.setSess h x).fab = s.fab := rfl
@[simp] theorem State.setSess_bulk (s : State) (h : Nat) (x : Session) : (s.setSess h x).bulk = s.bulk := rfl
@[simp] theorem State.setSess_sec (s : State) (h : Nat) (x : Session) : (s.setSess h x).sec = s.sec := rfl
@[simp] theorem State.setSess_site (s : State) (h : Nat) (x : Session) : (s.setSess h x).site = s.site := rfl
@[simp] theorem State.setSess_cks (s : State) (h : Nat) (x : Session) : (s.setSess h x).cks = s.cks := rfl
@[simp] theorem State.setSess_mg (s : State) (h : Nat) (x : Session) : (s.setSess h x).mg = s.mg := rfl

@[simp] theorem State.setTxn_pending (s : State) (n : Nat) (x : Txn) : (s.setTxn n x).pending = s.pending := rfl
@[simp] theorem State.setTxn_out (s : State) (n : Nat) (x : Txn) : (s.setTxn n x).out = s.out := rfl
@[simp] theorem State.setTxn_freeCtr (s : State) (n : Nat) (x : Txn) : (s.setTxn n x).freeCtr = s.freeCtr := rfl
@[simp] theorem State.setTxn_dev (s : State) (n : Nat) (x : Txn) : (s.setTxn n x).dev = s.dev := rfl
@[simp] theorem State.setTxn_err (s : State) (n : Nat) (x : Txn) : (s.setTxn n x).err = s.err := rfl
@[simp] theorem State.setTxn_run (s : State) (n : Nat) (x : Txn) : (s.setTxn n x).run = s.run := rfl
@[simp] theorem State.setTxn_ses (s : State) (n : Nat) (x : Txn) : (s.setTxn n x).ses = s.ses := rfl
@[simp] theorem State.setTxn_txt (s : State) (n : Nat) (x : Txn) : (s.setTxn n x).txt = s.txt := rfl
@[simp] theorem State.setTxn_bulk (s : State) (n : Nat) (x : Txn) : (s.setTxn n x).bulk = s.bulk := rfl
@[simp] theorem State.setTxn_sec (s : State) (n : Nat) (x : Txn) : (s.setTxn n x).sec = s.sec := rfl
@[simp] theorem State.setTxn_site (s : State) (n : Nat) (x : Txn) : (s.setTxn n x).site = s.site := rfl
@[simp] theorem State.setTxn_cks (s : State) (n : Nat) (x : Txn) : (s.setTxn n x).cks = s.cks := rfl
@[simp] theorem State.setTxn_mg (s : State) (n : Nat) (x : Txn) : (s.setTxn n x).mg = s.mg := rfl

@[simp] theorem State.setFlow_pending (s : State) (n : Nat) (f : Flow) : (s.setFlow n f).pending = s.pending := rfl
@[simp] theorem State.setFlow_out (s : State) (n : Nat) (f : Flow) : (s.setFlow n f).out = s.out := rfl
@[simp] theorem State.setFlow_freeCtr (s : State) (n : Nat) (f : Flow) : (s.setFlow n f).freeCtr = s.freeCtr := rfl
@[simp] theorem State.setFlow_dev (s : State) (n : Nat) (f : Flow) : (s.setFlow n f).dev = s.dev := rfl
@[simp] theorem State.setFlow_err (s : State) (n : Nat) (f : Flow) : (s.setFlow n f).err = s.err := rfl
@[simp] theorem State.setFlow_run (s : State) (n : Nat) (f : Flow) : (s.setFlow n f).run = s.run := rfl
@[simp] theorem State.setFlow_ses (s : State) (n : Nat) (f : Flow) : (s.setFlow n f).ses = s.ses := rfl
@[simp] theorem State.setFlow_txt (s : State) (n : Nat) (f : Flow) : (s.setFlow n f).txt = s.txt := rfl
@[simp] theorem State.setFlow_fab (s : State) (n : Nat) (f : Flow) : (s.setFlow n f).fab = s.fab := rfl
@[simp] theorem State.setFlow_sec (s : State) (n : Nat) (f : Flow) : (s.setFlow n f).sec = s.sec := rfl
@[simp] theorem State.setFlow_site (s : State) (n : Nat) (f : Flow) : (s.setFlow n f).site = s.site := rfl
@[simp] theorem State.setFlow_cks (s : State) (n : Nat) (f : Flow) : (s.setFlow n f).cks = s.cks := rfl
@[simp] theorem State.setFlow_mg (s : State) (n : Nat) (f : Flow) : (s.setFlow n f).mg = s.mg := rfl

@[simp] theorem State.setPort_pending (s : State) (p : Nat) (x : Port) : (s.setPort p x).pending = s.pending := rfl
@[simp] theorem State.setPort_out (s : State) (p : Nat) (x : Port) : (s.setPort p x).out = s.out := rfl
@[simp] theorem State.setPort_freeCtr (s : State) (p : Nat) (x : Port) : (s.setPort p x).freeCtr = s.freeCtr := rfl
@[simp] theorem State.setPort_dev (s : State) (p : Nat) (x : Port) : (s.setPort p x).dev = s.dev := rfl
@[simp] theorem State.setPort_err (s : State) (p : Nat) (x : Port) : (s.setPort p x).err = s.err := rfl
@[simp] theorem State.setPort_run (s : State) (p : Nat) (x : Port) : (s.setPort p x).run = s.run := rfl
@[simp] theorem State.setPort_ses (s : State) (p : Nat) (x : Port) : (s.setPort p x).ses = s.ses := rfl
@[simp] theorem State.setPort_txt (s : State) (p : Nat) (x : Port) : (s.setPort p x).txt = s.txt := rfl
@[simp] theorem State.setPort_bulk (s : State) (p : Nat) (x : Port) : (s.setPort p x).bulk = s.bulk := rfl
@[simp] theorem State.setPort_sec (s : State) (p : Nat) (x : Port) : (s.setPort p x).sec = s.sec := rfl
@[simp] theorem State.setPort_site (s : State) (p : Nat) (x : Port) : (s.setPort p x).site = s.site := rfl
@[simp] theorem State.setPort_cks (s : State) (p : Nat) (x : Port) : (s.setPort p x).cks = s.cks := rfl
@[simp] theorem State.setPort_mg (s : State) (p : Nat) (x : Port) : (s.setPort p x).mg = s.mg := rfl

end Sys2Proof.Machine
end

