-- ==== Sys2Proof/Laws/Tables.lean ====
section
/-! SUPPORT. Tables: what a lookup finds after an insertion or a deletion, and that every operation keeps the canonical
form. -/

namespace Sys2Proof.Machine

variable {α : Type}

/-! ### Lookups -/

@[simp] theorem tblFind_nil (k : Nat) : tblFind ([] : Table α) k = none := rfl

theorem tblFind_cons (j : Nat) (a : α) (t : Table α) (k : Nat) :
    tblFind ((j, a) :: t) k = if j = k then some a else tblFind t k := rfl

@[simp] theorem tblFind_tblIns_self (t : Table α) (k : Nat) (a : α) : tblFind (tblIns t k a) k = some a := by
  induction t with
  | nil => simp [tblIns, tblFind]
  | cons e t ih =>
    obtain ⟨j, b⟩ := e
    simp only [tblIns]
    split
    · simp [tblFind]
    · split
      · simp [tblFind]
      · rename_i h; simp [tblFind, Ne.symm h, ih]

theorem tblFind_tblIns_of_ne (t : Table α) {j k : Nat} (a : α) (h : j ≠ k) : tblFind (tblIns t k a) j = tblFind t j := by
  induction t with
  | nil => simp [tblIns, tblFind, h.symm]
  | cons e t ih =>
    obtain ⟨i, b⟩ := e
    simp only [tblIns]
    split
    · simp [tblFind, h.symm]
    · split
      · rename_i h2; subst h2; simp [tblFind, h.symm]
      · simp only [tblFind, ih]

theorem tblFind_tblDel_of_ne (t : Table α) {j k : Nat} (h : j ≠ k) : tblFind (tblDel t k) j = tblFind t j := by
  induction t with
  | nil => rfl
  | cons e t ih =>
    obtain ⟨i, b⟩ := e
    simp only [tblDel]
    split
    · rename_i h2; subst h2; simp [tblFind, h.symm]
    · simp only [tblFind, ih]

/-- Keys below the first listed one are absent. -/
theorem tblFind_of_above {t : Table α} {lo k : Nat} (h : tblAbove lo t = true) (hk : k ≤ lo) : tblFind t k = none := by
  induction t generalizing lo with
  | nil => rfl
  | cons e t ih =>
    obtain ⟨j, b⟩ := e
    simp only [tblAbove, Bool.and_eq_true, decide_eq_true_eq] at h
    have : ¬ j = k := by omega
    simp [tblFind, this, ih h.2 (by omega)]

@[simp] theorem tblFind_tblDel_self {t : Table α} (h : tblWf t = true) (k : Nat) : tblFind (tblDel t k) k = none := by
  induction t with
  | nil => rfl
  | cons e t ih =>
    obtain ⟨j, b⟩ := e
    have hw : tblWf t = true := by
      cases t with
      | nil => rfl
      | cons e2 t2 => simp [tblWf, tblAbove] at h ⊢; exact h.2
    simp only [tblDel]
    split
    · rename_i h2; subst h2; exact tblFind_of_above (lo := j) h (Nat.le_refl _)
    · rename_i h2; simp [tblFind, h2, ih hw]

theorem tblGet_tblIns_self (d : α) (t : Table α) (k : Nat) (a : α) : tblGet d (tblIns t k a) k = a := by simp [tblGet]

theorem tblGet_tblPut_of_ne [DecidableEq α] (d : α) (t : Table α) {j k : Nat} (a : α) (h : j ≠ k) :
    tblGet d (tblPut d t k a) j = tblGet d t j := by
  unfold tblPut tblGet
  split
  · rw [tblFind_tblDel_of_ne _ h]
  · rw [tblFind_tblIns_of_ne _ _ h]

theorem tblGet_tblPut_self [DecidableEq α] (d : α) {t : Table α} (h : tblWf t = true) (k : Nat) (a : α) :
    tblGet d (tblPut d t k a) k = a := by
  unfold tblPut tblGet
  split
  · rename_i e; simp [h, e]
  · simp

/-! ### The canonical form -/

theorem tblAbove_mono {t : Table α} {a b : Nat} (h : tblAbove b t = true) (hab : a ≤ b) : tblAbove a t = true := by
  cases t with
  | nil => rfl
  | cons e t => simp only [tblAbove, Bool.and_eq_true, decide_eq_true_eq] at h ⊢; exact ⟨by omega, h.2⟩

theorem tblWf_of_above {t : Table α} {lo : Nat} (h : tblAbove lo t = true) : tblWf t = true := by
  cases t with
  | nil => rfl
  | cons e t => simp only [tblAbove, Bool.and_eq_true] at h; exact h.2

theorem tblAbove_tblIns {t : Table α} {lo k : Nat} (a : α) (h : tblAbove lo t = true) (hk : lo < k) :
    tblAbove lo (tblIns t k a) = true := by
  induction t generalizing lo with
  | nil => simp [tblIns, tblAbove, hk]
  | cons e t ih =>
    obtain ⟨j, b⟩ := e
    simp only [tblAbove, Bool.and_eq_true, decide_eq_true_eq] at h
    simp only [tblIns]
    split
    · rename_i h2; simp [tblAbove, hk, h2, h.2]
    · split
      · rename_i h2; subst h2; simp [tblAbove, hk, h.2]
      · simp [tblAbove, h.1, ih h.2 (by omega)]

theorem tblWf_tblIns {t : Table α} (h : tblWf t = true) (k : Nat) (a : α) : tblWf (tblIns t k a) = true := by
  cases t with
  | nil => rfl
  | cons e t =>
    obtain ⟨j, b⟩ := e
    simp only [tblWf] at h
    simp only [tblIns]
    split
    · rename_i h2; simp [tblWf, tblAbove, h2, h]
    · split
      · rename_i h2; subst h2; exact h
      · exact tblAbove_tblIns a h (by omega)

theorem tblAbove_tblDel {t : Table α} {lo : Nat} (h : tblAbove lo t = true) (k : Nat) : tblAbove lo (tblDel t k) = true := by
  induction t generalizing lo with
  | nil => rfl
  | cons e t ih =>
    obtain ⟨j, b⟩ := e
    simp only [tblAbove, Bool.and_eq_true, decide_eq_true_eq] at h
    simp only [tblDel]
    split
    · exact tblAbove_mono h.2 (by omega)
    · simp [tblAbove, h.1, ih h.2]

theorem tblWf_tblDel {t : Table α} (h : tblWf t = true) (k : Nat) : tblWf (tblDel t k) = true := by
  cases t with
  | nil => rfl
  | cons e t =>
    obtain ⟨j, b⟩ := e
    simp only [tblDel]
    split
    · exact tblWf_of_above (lo := j) h
    · exact tblAbove_tblDel (lo := j) h k

theorem tblWf_tblPut [DecidableEq α] (d : α) {t : Table α} (h : tblWf t = true) (k : Nat) (a : α) : tblWf (tblPut d t k a) = true := by
  unfold tblPut; split
  · exact tblWf_tblDel h k
  · exact tblWf_tblIns h k a

theorem tblAbove_filter {t : Table α} {lo : Nat} (h : tblAbove lo t = true) (p : Nat × α → Bool) : tblAbove lo (t.filter p) = true := by
  induction t generalizing lo with
  | nil => rfl
  | cons e t ih =>
    obtain ⟨j, b⟩ := e
    simp only [tblAbove, Bool.and_eq_true, decide_eq_true_eq] at h
    by_cases hp : p (j, b) = true
    · simp [hp, tblAbove, h.1, ih h.2]
    · simp [hp, ih (tblAbove_mono h.2 (Nat.le_of_lt h.1))]

theorem tblWf_filter {t : Table α} (h : tblWf t = true) (p : Nat × α → Bool) : tblWf (t.filter p) = true := by
  cases t with
  | nil => rfl
  | cons e t =>
    obtain ⟨j, b⟩ := e
    by_cases hp : p (j, b) = true
    · simp only [List.filter_cons, hp, if_true]; exact tblAbove_filter (lo := j) h p
    · simp only [List.filter_cons, hp, if_false, Bool.false_eq_true]; exact tblWf_of_above (tblAbove_filter (lo := j) h p)

theorem tblAbove_tblMap {t : Table α} {lo : Nat} (h : tblAbove lo t = true) (f : Nat → α → α) : tblAbove lo (tblMap t f) = true := by
  induction t generalizing lo with
  | nil => rfl
  | cons e t ih =>
    obtain ⟨j, b⟩ := e
    simp only [tblAbove, Bool.and_eq_true, decide_eq_true_eq] at h
    have := ih h.2
    simp only [tblMap] at this
    simp [tblMap, tblAbove, h.1, this]

theorem tblWf_tblMap {t : Table α} (h : tblWf t = true) (f : Nat → α → α) : tblWf (tblMap t f) = true := by
  cases t with
  | nil => rfl
  | cons e t => obtain ⟨j, b⟩ := e; exact tblAbove_tblMap (lo := j) h f

theorem tblFind_tblMap (t : Table α) (f : Nat → α → α) (k : Nat) : tblFind (tblMap t f) k = (tblFind t k).map (f k) := by
  induction t with
  | nil => rfl
  | cons e t ih =>
    obtain ⟨j, b⟩ := e
    simp only [tblMap, List.map_cons, tblFind] at ih ⊢
    split
    · rename_i h; subst h; rfl
    · exact ih

end Sys2Proof.Machine
end

