-- ==== Sys2Proof/Laws/Memory.lean ====
section
/-! SUPPORT. Byte memories: read after write, writes elsewhere, and that every operation that writes one of the four
memories keeps them in canonical form. -/

namespace Sys2Proof.Machine

/-! ### One memory -/

theorem memDense_iff (m : Mem) : memDense m = true ↔ ∀ c ∈ m, c.2 ≠ memDefault := by
  induction m with
  | nil => simp [memDense]
  | cons c m ih => obtain ⟨a, b⟩ := c; simp [memDense, ih]

theorem memDense_filter {m : Mem} (h : memDense m = true) (p : Nat × Byte → Bool) : memDense (m.filter p) = true := by
  rw [memDense_iff] at h ⊢
  exact fun c hc => h c (List.mem_of_mem_filter hc)

theorem mem_of_tblDel {m : Mem} {k : Nat} {c : Nat × Byte} (h : c ∈ tblDel m k) : c ∈ m := by
  induction m with
  | nil => simp [tblDel] at h
  | cons e m ih =>
    obtain ⟨j, b⟩ := e
    simp only [tblDel] at h
    split at h
    · exact List.mem_cons_of_mem _ h
    · cases List.mem_cons.mp h with
      | inl h => exact h ▸ List.mem_cons_self
      | inr h => exact List.mem_cons_of_mem _ (ih h)

theorem mem_of_tblIns {m : Mem} {k : Nat} {v : Byte} {c : Nat × Byte} (h : c ∈ tblIns m k v) : c = (k, v) ∨ c ∈ m := by
  induction m with
  | nil => simp [tblIns] at h; exact .inl h
  | cons e m ih =>
    obtain ⟨j, b⟩ := e
    simp only [tblIns] at h
    split at h
    · cases List.mem_cons.mp h with
      | inl h => exact .inl h
      | inr h => exact .inr h
    · split at h
      · cases List.mem_cons.mp h with
        | inl h => exact .inl h
        | inr h => exact .inr (List.mem_cons_of_mem _ h)
      · cases List.mem_cons.mp h with
        | inl h => exact .inr (h ▸ List.mem_cons_self)
        | inr h => exact (ih h).imp id (List.mem_cons_of_mem _)

theorem memWf_memSet {m : Mem} (h : memWf m = true) (a : Nat) (b : Byte) : memWf (memSet m a b) = true := by
  simp only [memWf, Bool.and_eq_true] at h ⊢
  refine ⟨tblWf_tblPut _ h.1 a b, ?_⟩
  rw [memDense_iff] at h ⊢
  intro c hc
  simp only [memSet, tblPut] at hc
  split at hc
  · exact h.2 c (mem_of_tblDel hc)
  · rename_i hb
    cases mem_of_tblIns hc with
    | inl e => rw [e]; exact hb
    | inr e => exact h.2 c e

theorem memWf_memWrite {m : Mem} (h : memWf m = true) (a : Nat) (bs : List Byte) : memWf (memWrite m a bs) = true := by
  induction bs generalizing m a with
  | nil => exact h
  | cons b bs ih => exact ih (memWf_memSet h a b) (a + 1)

theorem memWf_filter {m : Mem} (h : memWf m = true) (p : Nat × Byte → Bool) : memWf (m.filter p) = true := by
  simp only [memWf, Bool.and_eq_true] at h ⊢
  exact ⟨tblWf_filter h.1 p, memDense_filter h.2 p⟩

theorem memWf_memZero {m : Mem} (h : memWf m = true) (a n : Nat) : memWf (memZero m a n) = true := memWf_filter h _

theorem memGet_memSet_self {m : Mem} (h : memWf m = true) (a : Nat) (b : Byte) : memGet (memSet m a b) a = b := by
  simp only [memWf, Bool.and_eq_true] at h
  exact tblGet_tblPut_self _ h.1 a b

theorem memGet_memSet_of_ne (m : Mem) {a x : Nat} (b : Byte) (h : x ≠ a) : memGet (memSet m a b) x = memGet m x :=
  tblGet_tblPut_of_ne _ _ _ h

/-- A byte outside the bytes written reads as before. -/
theorem memGet_memWrite_outside (m : Mem) (a x : Nat) (bs : List Byte) (h : x < a ∨ a + bs.length ≤ x) :
    memGet (memWrite m a bs) x = memGet m x := by
  induction bs generalizing m a with
  | nil => rfl
  | cons b bs ih =>
    simp only [List.length_cons] at h
    rw [memWrite, ih _ _ (by omega), memGet_memSet_of_ne _ _ (by omega)]

/-- A byte written reads as it was written. -/
theorem memGet_memWrite_inside {m : Mem} (hw : memWf m = true) (a i : Nat) (bs : List Byte) (h : i < bs.length) :
    memGet (memWrite m a bs) (a + i) = bs.getD i 0 := by
  induction bs generalizing m a i with
  | nil => simp at h
  | cons b bs ih =>
    cases i with
    | zero =>
      show memGet (memWrite (memSet m a b) (a + 1) bs) a = b
      rw [memGet_memWrite_outside _ _ _ _ (.inl (by omega)), memGet_memSet_self hw]
    | succ i =>
      have := ih (memWf_memSet hw a b) (a + 1) i (by simpa using h)
      rw [memWrite, show a + (i + 1) = a + 1 + i by omega, this]; rfl

@[simp] theorem memRead_length (m : Mem) (a n : Nat) : (memRead m a n).length = n := by
  induction n generalizing a with
  | zero => rfl
  | succ n ih => simp [memRead, ih]

/-- What was written is read. -/
theorem memRead_memWrite {m : Mem} (hw : memWf m = true) (a : Nat) (bs : List Byte) : memRead (memWrite m a bs) a bs.length = bs := by
  induction bs generalizing m a with
  | nil => rfl
  | cons b bs ih =>
    rw [List.length_cons, memRead, memWrite, memGet_memWrite_outside _ _ _ _ (.inl (by omega)), memGet_memSet_self hw,
      ih (memWf_memSet hw a b)]

theorem memGet_filter (m : Mem) (p : Nat × Byte → Bool) (x : Nat) (h : ∀ b, p (x, b) = true) : memGet (m.filter p) x = memGet m x := by
  unfold memGet tblGet
  congr 1
  induction m with
  | nil => rfl
  | cons c m ih =>
    obtain ⟨j, b⟩ := c
    by_cases hj : j = x
    · subst hj; simp [h, tblFind]
    · by_cases hp : p (j, b) = true
      · simp [hp, tblFind, hj, ih]
      · simp [hp, tblFind, hj, ih]

/-- Outside the zeroed bytes nothing changes. -/
theorem memGet_memZero_outside (m : Mem) (a n x : Nat) (h : x < a ∨ a + n ≤ x) : memGet (memZero m a n) x = memGet m x := by
  apply memGet_filter
  intro b
  simp only [Bool.not_eq_true', Bool.and_eq_false_iff, decide_eq_false_iff_not]
  omega

/-- A zeroed byte reads as zero. -/
theorem memGet_memZero_inside (m : Mem) (a n x : Nat) (h : a ≤ x) (h2 : x < a + n) : memGet (memZero m a n) x = 0 := by
  unfold memGet tblGet
  have : tblFind (memZero m a n) x = none := by
    unfold memZero
    induction m with
    | nil => rfl
    | cons c m ih =>
      obtain ⟨j, b⟩ := c
      by_cases hj : j = x
      · subst hj
        have hp : ¬(!(decide (a ≤ j) && decide (j < a + n))) = true := by simp [h, h2]
        rw [List.filter_cons, if_neg hp]; exact ih
      · by_cases hp : (!(decide (a ≤ j) && decide (j < a + n))) = true
        · rw [List.filter_cons, if_pos hp, tblFind, if_neg hj]; exact ih
        · rw [List.filter_cons, if_neg hp]; exact ih
  simp [this, memDefault]

/-! ### The four memories of the device -/

/-- What `State.memOk` says. -/
theorem State.memOk_iff (s : State) : s.memOk = true
    ↔ memWf s.ses.hbm = true ∧ memWf s.ses.cmem = true ∧ memWf s.site.rings = true ∧ memWf s.site.cqMem = true := by
  simp [State.memOk, and_assoc]

/-- An update that leaves the sessions' and the site's groups alone keeps the memories. -/
theorem State.memOk_congr {s t : State} (h : t.ses = s.ses) (h2 : t.site = s.site) : t.memOk = s.memOk := by simp [State.memOk, h, h2]

theorem State.memOk_modSes {s : State} (h : s.memOk = true) (f : Ses → Ses) (h1 : (f s.ses).hbm = s.ses.hbm) (h2 : (f s.ses).cmem = s.ses.cmem) :
    (s.modSes f).memOk = true := by rw [State.memOk_iff] at *; simp [h1, h2, h]

theorem State.memOk_modSite {s : State} (h : s.memOk = true) (f : Site → Site) (h1 : (f s.site).rings = s.site.rings)
    (h2 : (f s.site).cqMem = s.site.cqMem) : (s.modSite f).memOk = true := by rw [State.memOk_iff] at *; simp [h1, h2, h]

theorem State.memOk_ite {c : Prop} [Decidable c] {a b : State} (ha : a.memOk = true) (hb : b.memOk = true) :
    (if c then a else b).memOk = true := by split <;> assumption

/-- An update of the site that leaves its two memories in canonical form. -/
theorem State.memOk_modSite_of {s : State} (h : s.memOk = true) (f : Site → Site) (h1 : memWf (f s.site).rings = true)
    (h2 : memWf (f s.site).cqMem = true) : (s.modSite f).memOk = true := by rw [State.memOk_iff] at *; simp [h1, h2, h]

theorem State.memOk_emit {s : State} (h : s.memOk = true) (o : Output) : (s.emit o).memOk = true := by
  rw [State.memOk_congr (s := s)]; exact h; rfl; rfl

theorem State.memOk_dwr {s : State} (h : s.memOk = true) (addr : Nat) (d : List Byte) : (s.dwr addr d).memOk = true :=
  State.memOk_modSite (State.memOk_emit h _) _ rfl rfl

theorem State.memOk_setQp {s : State} (h : s.memOk = true) (q : Nat) (p : Qp) : (s.setQp q p).memOk = true :=
  State.memOk_modSite h _ rfl rfl

theorem State.memOk_cleanLines {s : State} (h : s.memOk = true) (f : Nat → Nat) (a n : Nat) : (s.cleanLines f a n).memOk = true := by
  unfold State.cleanLines; split
  · exact h
  · rw [State.memOk_congr (s := s)]; exact h; rfl; rfl

/-- Writing context memory. -/
theorem State.memOk_cwrite {s : State} (h : s.memOk = true) (ctx a : Nat) (bs : List Byte) : (s.cwrite ctx a bs).memOk = true := by
  apply State.memOk_cleanLines
  rw [State.memOk_iff] at *
  exact ⟨h.1, memWf_memWrite h.2.1 _ _, h.2.2⟩

/-- Writing a page frame. -/
theorem State.memOk_hwrite {s : State} (h : s.memOk = true) (frame off : Nat) (bs : List Byte) : (s.hwrite frame off bs).memOk = true := by
  apply State.memOk_cleanLines
  rw [State.memOk_iff] at *
  exact ⟨memWf_memWrite h.1 _ _, h.2⟩

/-- Writing a completion entry. -/
theorem State.memOk_writeEntry {s : State} (h : s.memOk = true) (q : Nat) (e : CqEntry) : (s.writeEntry q e).memOk = true := by
  have hs := (State.memOk_iff s).mp h
  unfold State.writeEntry
  dsimp only
  apply State.memOk_setQp
  split
  · exact State.memOk_modSite_of h _ hs.2.2.1 (memWf_memWrite (memWf_memWrite hs.2.2.2 _ _) _ _)
  · split
    · exact State.memOk_dwr (State.memOk_dwr h _ _) _ _
    · exact h

theorem State.memOk_unspill (q n : Nat) {s : State} (h : s.memOk = true) : (s.unspill q n).memOk = true := by
  induction n generalizing s with
  | zero => exact h
  | succ n ih =>
    unfold State.unspill; dsimp only; split
    · exact h
    · split
      · exact ih (State.memOk_writeEntry (State.memOk_setQp h _ _) _ _)
      · exact h

theorem State.memOk_place {s : State} (h : s.memOk = true) (q : Nat) (e : CqEntry) : (s.place q e).memOk = true := by
  have h' := State.memOk_unspill q (s.qp q).spill.length h
  unfold State.place; dsimp only; split
  · exact State.memOk_writeEntry h' q e
  · exact State.memOk_setQp h' _ _

theorem State.memOk_count {s : State} (h : s.memOk = true) (ix sub row n : Nat) : (s.count ix sub row n).memOk = true := by
  rw [State.memOk_congr (s := s)]; exact h; rfl; rfl

/-- An event, and the completion of an entry. -/
theorem State.memOk_event {s : State} (h : s.memOk = true) (q : Nat) (e : CqEntry) : (s.event q e).memOk = true := by
  unfold State.event; split
  · exact h
  · split
    · exact State.memOk_place h q e
    · exact State.memOk_count (State.memOk_setQp h _ _) _ _ _ _

theorem State.memOk_settle {s : State} (h : s.memOk = true) (sq q : Nat) (e : CqEntry) : (s.settle sq q e).memOk = true := by
  unfold State.settle; split
  · exact h
  · split
    · exact State.memOk_count h _ _ _ _
    · dsimp only
      apply State.memOk_place
      split
      · exact State.memOk_setQp (State.memOk_setQp h _ _) _ _
      · exact State.memOk_setQp h _ _

/-- Enabling a queue pair. -/
theorem State.memOk_enablePair {s : State} (h : s.memOk = true) (q : Nat) : (s.enablePair q).memOk = true := by
  have hs := (State.memOk_iff s).mp h
  unfold State.enablePair
  refine State.memOk_ite (State.memOk_setQp h _ _) (State.memOk_ite (State.memOk_setQp (State.memOk_ite ?_ h) _ _) (State.memOk_setQp h _ _))
  exact State.memOk_modSite_of h _ hs.2.2.1 (memWf_memZero hs.2.2.2 _ _)

/-- A command's completion. -/
theorem State.memOk_cmdDone {s : State} (h : s.memOk = true) (sq cq ctx head : Nat) (tag : W64) (cmd st r : Nat) :
    (s.cmdDone sq cq ctx head tag cmd st r).memOk = true := State.memOk_settle h _ _ _

/-- The machine at reset has its memories in canonical form. -/
theorem State.reset_memOk : State.reset.memOk = true := by decide

end Sys2Proof.Machine
end

