-- ==== Sys2Proof/Laws/Ops.lean ====
section
/-! SUPPORT. What the shared operations do, each said once: objects, completions and events, error records, commands of a
ring, instructions of a core, management messages, sealed copies; and that none of them acts on a device that is not live. -/

namespace Sys2Proof.Machine

/-! ### Objects -/

/-- Element keys of objects are their own. -/
theorem okey_inj {ix sub row col ix2 sub2 row2 col2 : Nat} (h : okey ix sub row col = okey ix2 sub2 row2 col2) (hs : sub < 256) (hs2 : sub2 < 256)
    (hr : row < 65536) (hr2 : row2 < 65536) (hc : col < 16) (hc2 : col2 < 16) : ix = ix2 ∧ sub = sub2 ∧ row = row2 ∧ col = col2 := by
  unfold okey at h; omega

theorem State.obj_setObj_self {s : State} (h : tblWf s.mg.objs = true) (ix sub row col v : Nat) :
    (s.setObj ix sub row col v).obj ix sub row col = v := tblGet_tblPut_self _ h _ _

theorem State.obj_setObj_of_ne (s : State) (ix sub row col v : Nat) {ix2 sub2 row2 col2 : Nat}
    (h : okey ix2 sub2 row2 col2 ≠ okey ix sub row col) : (s.setObj ix sub row col v).obj ix2 sub2 row2 col2 = s.obj ix2 sub2 row2 col2 := by
  unfold State.setObj State.obj
  simp only [tblPut]
  split
  · simp only [tblGet, tblFind_tblDel_of_ne _ h]
  · simp only [tblGet, tblFind_tblIns_of_ne _ _ h]

theorem State.tblWf_setObj {s : State} (h : tblWf s.mg.objs = true) (ix sub row col v : Nat) : tblWf (s.setObj ix sub row col v).mg.objs = true :=
  tblWf_tblPut _ h _ _

/-- A count adds to its own element. -/
theorem State.obj_count_self {s : State} (h : tblWf s.mg.objs = true) (ix sub row n : Nat) :
    (s.count ix sub row n).obj ix sub row = (s.obj ix sub row + n) % 2 ^ (8 * colBytes ix sub 0) := State.obj_setObj_self h _ _ _ _ _

theorem State.obj_count_of_ne (s : State) (ix sub row n : Nat) {ix2 sub2 row2 col2 : Nat} (h : okey ix2 sub2 row2 col2 ≠ okey ix sub row 0) :
    (s.count ix sub row n).obj ix2 sub2 row2 col2 = s.obj ix2 sub2 row2 col2 := State.obj_setObj_of_ne _ _ _ _ _ _ h

/-! ### Completions and events: only the site, the counters and the outputs change -/


/-- `t` differs from `s` in the host site and the outputs alone. -/
def SiteStep (s t : State) : Prop := ∃ o g, t = { s with out := o, site := g }
/-- `t` differs from `s` in the host site, the outputs, the objects and the error logs alone. -/
def LogStep (s t : State) : Prop := ∃ o g m e, t = { s with out := o, site := g, mg := m, err := e }

theorem SiteStep.refl (s : State) : SiteStep s s := ⟨s.out, s.site, rfl⟩
theorem SiteStep.trans {s t u : State} (h : SiteStep s t) (h2 : SiteStep t u) : SiteStep s u := by
  obtain ⟨o, g, rfl⟩ := h; obtain ⟨o2, g2, rfl⟩ := h2; exact ⟨o2, g2, rfl⟩
theorem SiteStep.modSite {s t : State} (h : SiteStep s t) (f : Site → Site) : SiteStep s (t.modSite f) := by
  obtain ⟨o, g, rfl⟩ := h; exact ⟨o, f g, rfl⟩
theorem SiteStep.setQp {s t : State} (h : SiteStep s t) (q : Nat) (p : Qp) : SiteStep s (t.setQp q p) := h.modSite _
theorem SiteStep.emit {s t : State} (h : SiteStep s t) (x : Output) : SiteStep s (t.emit x) := by
  obtain ⟨o, g, rfl⟩ := h; exact ⟨x :: o, g, rfl⟩
theorem SiteStep.dwr {s t : State} (h : SiteStep s t) (addr : Nat) (d : List Byte) : SiteStep s (t.dwr addr d) := (h.emit _).modSite _
theorem SiteStep.ite {s a b : State} {c : Prop} [Decidable c] (ha : SiteStep s a) (hb : SiteStep s b) : SiteStep s (if c then a else b) := by
  split <;> assumption
theorem SiteStep.log {s t : State} (h : SiteStep s t) : LogStep s t := by obtain ⟨o, g, rfl⟩ := h; exact ⟨o, g, s.mg, s.err, rfl⟩

theorem LogStep.refl (s : State) : LogStep s s := (SiteStep.refl s).log
theorem LogStep.trans {s t u : State} (h : LogStep s t) (h2 : LogStep t u) : LogStep s u := by
  obtain ⟨o, g, m, e, rfl⟩ := h; obtain ⟨o2, g2, m2, e2, rfl⟩ := h2; exact ⟨o2, g2, m2, e2, rfl⟩
theorem LogStep.count {s t : State} (h : LogStep s t) (ix sub row n : Nat) : LogStep s (t.count ix sub row n) := by
  refine h.trans ⟨t.out, t.site, (t.count ix sub row n).mg, t.err, rfl⟩
theorem LogStep.modErr {s t : State} (h : LogStep s t) (f : Errs → Errs) : LogStep s (t.modErr f) :=
  h.trans ⟨t.out, t.site, t.mg, f t.err, rfl⟩
theorem LogStep.ite {s a b : State} {c : Prop} [Decidable c] (ha : LogStep s a) (hb : LogStep s b) : LogStep s (if c then a else b) := by
  split <;> assumption

theorem State.writeEntry_step (s : State) (q : Nat) (e : CqEntry) : SiteStep s (s.writeEntry q e) := by
  unfold State.writeEntry
  dsimp only
  refine SiteStep.setQp (SiteStep.ite ((SiteStep.refl s).modSite _) (SiteStep.ite (((SiteStep.refl s).dwr _ _).dwr _ _) (SiteStep.refl s))) _ _

theorem State.unspill_step (q n : Nat) (s : State) : SiteStep s (s.unspill q n) := by
  induction n generalizing s with
  | zero => exact SiteStep.refl s
  | succ n ih =>
    unfold State.unspill
    dsimp only
    split
    · exact SiteStep.refl s
    · exact SiteStep.ite ((((SiteStep.refl s).setQp _ _).trans (State.writeEntry_step _ _ _)).trans (ih _)) (SiteStep.refl s)

theorem State.place_step (s : State) (q : Nat) (e : CqEntry) : SiteStep s (s.place q e) := by
  unfold State.place
  exact (State.unspill_step q _ s).trans (SiteStep.ite (State.writeEntry_step _ q e) ((SiteStep.refl _).setQp _ _))

theorem State.event_step (s : State) (q : Nat) (e : CqEntry) : LogStep s (s.event q e) := by
  unfold State.event
  exact LogStep.ite (LogStep.refl s) (LogStep.ite (s.place_step q e).log (((SiteStep.refl s).setQp _ _).log.count _ _ _ _))

theorem State.settle_step (s : State) (sq q : Nat) (e : CqEntry) : LogStep s (s.settle sq q e) := by
  unfold State.settle
  refine LogStep.ite (LogStep.refl s) (LogStep.ite ((LogStep.refl s).count _ _ _ _) ?_)
  exact (SiteStep.trans (SiteStep.ite (((SiteStep.refl s).setQp _ _).setQp _ _) ((SiteStep.refl s).setQp _ _)) (State.place_step _ q e)).log

theorem State.cmdDone_step (s : State) (sq cq ctx head : Nat) (tag : W64) (cmd st r : Nat) : LogStep s (s.cmdDone sq cq ctx head tag cmd st r) :=
  s.settle_step _ _ _
theorem State.otherEvent_step (s : State) (q ctx code st id v : Nat) : LogStep s (s.otherEvent q ctx code st id v) := s.event_step _ _

theorem State.tellDegraded_step (s : State) (v : Nat) : LogStep s (s.tellDegraded v) := by
  unfold State.tellDegraded
  generalize s.ctxs = l
  induction l generalizing s with
  | nil => exact LogStep.refl s
  | cons c l ih =>
    simp only [List.foldl_cons]
    split
    · exact (s.otherEvent_step _ _ _ _ _ _).trans (ih _)
    · exact ih s

theorem State.degrade_step (s : State) : LogStep s s.degrade := by
  unfold State.degrade
  exact LogStep.modErr (LogStep.ite (LogStep.refl s) (s.tellDegraded_step 1)) _

/-- An error record changes the logs, the counters and, when it is shared, posts events. -/
theorem State.record_step (s : State) (e : ErrIn) : LogStep s (s.record e) := by
  have key : ∀ t : State, LogStep s t → LogStep s (if e.shared then t.degrade else t) :=
    fun t h => LogStep.ite (h.trans t.degrade_step) h
  unfold State.record
  dsimp only
  apply key
  split
  · exact ((LogStep.refl s).count _ _ _ _).modErr _
  · exact LogStep.ite ((((LogStep.refl s).count _ _ _ _).modErr _).count _ _ _ _) (((LogStep.refl s).count _ _ _ _).modErr _)

@[simp] theorem State.writeEntry_pending (s : State) (q : Nat) (e : CqEntry) : (s.writeEntry q e).pending = s.pending := by
  obtain ⟨_, _, h⟩ := s.writeEntry_step q e; rw [h]
@[simp] theorem State.writeEntry_freeCtr (s : State) (q : Nat) (e : CqEntry) : (s.writeEntry q e).freeCtr = s.freeCtr := by
  obtain ⟨_, _, h⟩ := s.writeEntry_step q e; rw [h]
@[simp] theorem State.writeEntry_dev (s : State) (q : Nat) (e : CqEntry) : (s.writeEntry q e).dev = s.dev := by
  obtain ⟨_, _, h⟩ := s.writeEntry_step q e; rw [h]
@[simp] theorem State.writeEntry_run (s : State) (q : Nat) (e : CqEntry) : (s.writeEntry q e).run = s.run := by
  obtain ⟨_, _, h⟩ := s.writeEntry_step q e; rw [h]
@[simp] theorem State.writeEntry_ses (s : State) (q : Nat) (e : CqEntry) : (s.writeEntry q e).ses = s.ses := by
  obtain ⟨_, _, h⟩ := s.writeEntry_step q e; rw [h]
@[simp] theorem State.writeEntry_txt (s : State) (q : Nat) (e : CqEntry) : (s.writeEntry q e).txt = s.txt := by
  obtain ⟨_, _, h⟩ := s.writeEntry_step q e; rw [h]
@[simp] theorem State.writeEntry_fab (s : State) (q : Nat) (e : CqEntry) : (s.writeEntry q e).fab = s.fab := by
  obtain ⟨_, _, h⟩ := s.writeEntry_step q e; rw [h]
@[simp] theorem State.writeEntry_bulk (s : State) (q : Nat) (e : CqEntry) : (s.writeEntry q e).bulk = s.bulk := by
  obtain ⟨_, _, h⟩ := s.writeEntry_step q e; rw [h]
@[simp] theorem State.writeEntry_sec (s : State) (q : Nat) (e : CqEntry) : (s.writeEntry q e).sec = s.sec := by
  obtain ⟨_, _, h⟩ := s.writeEntry_step q e; rw [h]
@[simp] theorem State.writeEntry_cks (s : State) (q : Nat) (e : CqEntry) : (s.writeEntry q e).cks = s.cks := by
  obtain ⟨_, _, h⟩ := s.writeEntry_step q e; rw [h]
@[simp] theorem State.writeEntry_err (s : State) (q : Nat) (e : CqEntry) : (s.writeEntry q e).err = s.err := by
  obtain ⟨_, _, h⟩ := s.writeEntry_step q e; rw [h]
@[simp] theorem State.writeEntry_mg (s : State) (q : Nat) (e : CqEntry) : (s.writeEntry q e).mg = s.mg := by
  obtain ⟨_, _, h⟩ := s.writeEntry_step q e; rw [h]
@[simp] theorem State.place_pending (s : State) (q : Nat) (e : CqEntry) : (s.place q e).pending = s.pending := by
  obtain ⟨_, _, h⟩ := s.place_step q e; rw [h]
@[simp] theorem State.place_freeCtr (s : State) (q : Nat) (e : CqEntry) : (s.place q e).freeCtr = s.freeCtr := by
  obtain ⟨_, _, h⟩ := s.place_step q e; rw [h]
@[simp] theorem State.place_dev (s : State) (q : Nat) (e : CqEntry) : (s.place q e).dev = s.dev := by
  obtain ⟨_, _, h⟩ := s.place_step q e; rw [h]
@[simp] theorem State.place_run (s : State) (q : Nat) (e : CqEntry) : (s.place q e).run = s.run := by
  obtain ⟨_, _, h⟩ := s.place_step q e; rw [h]
@[simp] theorem State.place_ses (s : State) (q : Nat) (e : CqEntry) : (s.place q e).ses = s.ses := by
  obtain ⟨_, _, h⟩ := s.place_step q e; rw [h]
@[simp] theorem State.place_txt (s : State) (q : Nat) (e : CqEntry) : (s.place q e).txt = s.txt := by
  obtain ⟨_, _, h⟩ := s.place_step q e; rw [h]
@[simp] theorem State.place_fab (s : State) (q : Nat) (e : CqEntry) : (s.place q e).fab = s.fab := by
  obtain ⟨_, _, h⟩ := s.place_step q e; rw [h]
@[simp] theorem State.place_bulk (s : State) (q : Nat) (e : CqEntry) : (s.place q e).bulk = s.bulk := by
  obtain ⟨_, _, h⟩ := s.place_step q e; rw [h]
@[simp] theorem State.place_sec (s : State) (q : Nat) (e : CqEntry) : (s.place q e).sec = s.sec := by
  obtain ⟨_, _, h⟩ := s.place_step q e; rw [h]
@[simp] theorem State.place_cks (s : State) (q : Nat) (e : CqEntry) : (s.place q e).cks = s.cks := by
  obtain ⟨_, _, h⟩ := s.place_step q e; rw [h]
@[simp] theorem State.place_err (s : State) (q : Nat) (e : CqEntry) : (s.place q e).err = s.err := by
  obtain ⟨_, _, h⟩ := s.place_step q e; rw [h]
@[simp] theorem State.place_mg (s : State) (q : Nat) (e : CqEntry) : (s.place q e).mg = s.mg := by
  obtain ⟨_, _, h⟩ := s.place_step q e; rw [h]
@[simp] theorem State.event_pending (s : State) (q : Nat) (e : CqEntry) : (s.event q e).pending = s.pending := by
  obtain ⟨_, _, _, _, h⟩ := s.event_step q e; rw [h]
@[simp] theorem State.event_freeCtr (s : State) (q : Nat) (e : CqEntry) : (s.event q e).freeCtr = s.freeCtr := by
  obtain ⟨_, _, _, _, h⟩ := s.event_step q e; rw [h]
@[simp] theorem State.event_dev (s : State) (q : Nat) (e : CqEntry) : (s.event q e).dev = s.dev := by
  obtain ⟨_, _, _, _, h⟩ := s.event_step q e; rw [h]
@[simp] theorem State.event_run (s : State) (q : Nat) (e : CqEntry) : (s.event q e).run = s.run := by
  obtain ⟨_, _, _, _, h⟩ := s.event_step q e; rw [h]
@[simp] theorem State.event_ses (s : State) (q : Nat) (e : CqEntry) : (s.event q e).ses = s.ses := by
  obtain ⟨_, _, _, _, h⟩ := s.event_step q e; rw [h]
@[simp] theorem State.event_txt (s : State) (q : Nat) (e : CqEntry) : (s.event q e).txt = s.txt := by
  obtain ⟨_, _, _, _, h⟩ := s.event_step q e; rw [h]
@[simp] theorem State.event_fab (s : State) (q : Nat) (e : CqEntry) : (s.event q e).fab = s.fab := by
  obtain ⟨_, _, _, _, h⟩ := s.event_step q e; rw [h]
@[simp] theorem State.event_bulk (s : State) (q : Nat) (e : CqEntry) : (s.event q e).bulk = s.bulk := by
  obtain ⟨_, _, _, _, h⟩ := s.event_step q e; rw [h]
@[simp] theorem State.event_sec (s : State) (q : Nat) (e : CqEntry) : (s.event q e).sec = s.sec := by
  obtain ⟨_, _, _, _, h⟩ := s.event_step q e; rw [h]
@[simp] theorem State.event_cks (s : State) (q : Nat) (e : CqEntry) : (s.event q e).cks = s.cks := by
  obtain ⟨_, _, _, _, h⟩ := s.event_step q e; rw [h]

@[simp] theorem State.settle_pending (s : State) (sq q : Nat) (e : CqEntry) : (s.settle sq q e).pending = s.pending := by
  obtain ⟨_, _, _, _, h⟩ := s.settle_step sq q e; rw [h]
@[simp] theorem State.settle_freeCtr (s : State) (sq q : Nat) (e : CqEntry) : (s.settle sq q e).freeCtr = s.freeCtr := by
  obtain ⟨_, _, _, _, h⟩ := s.settle_step sq q e; rw [h]
@[simp] theorem State.settle_dev (s : State) (sq q : Nat) (e : CqEntry) : (s.settle sq q e).dev = s.dev := by
  obtain ⟨_, _, _, _, h⟩ := s.settle_step sq q e; rw [h]
@[simp] theorem State.settle_run (s : State) (sq q : Nat) (e : CqEntry) : (s.settle sq q e).run = s.run := by
  obtain ⟨_, _, _, _, h⟩ := s.settle_step sq q e; rw [h]
@[simp] theorem State.settle_ses (s : State) (sq q : Nat) (e : CqEntry) : (s.settle sq q e).ses = s.ses := by
  obtain ⟨_, _, _, _, h⟩ := s.settle_step sq q e; rw [h]
@[simp] theorem State.settle_txt (s : State) (sq q : Nat) (e : CqEntry) : (s.settle sq q e).txt = s.txt := by
  obtain ⟨_, _, _, _, h⟩ := s.settle_step sq q e; rw [h]
@[simp] theorem State.settle_fab (s : State) (sq q : Nat) (e : CqEntry) : (s.settle sq q e).fab = s.fab := by
  obtain ⟨_, _, _, _, h⟩ := s.settle_step sq q e; rw [h]
@[simp] theorem State.settle_bulk (s : State) (sq q : Nat) (e : CqEntry) : (s.settle sq q e).bulk = s.bulk := by
  obtain ⟨_, _, _, _, h⟩ := s.settle_step sq q e; rw [h]
@[simp] theorem State.settle_sec (s : State) (sq q : Nat) (e : CqEntry) : (s.settle sq q e).sec = s.sec := by
  obtain ⟨_, _, _, _, h⟩ := s.settle_step sq q e; rw [h]
@[simp] theorem State.settle_cks (s : State) (sq q : Nat) (e : CqEntry) : (s.settle sq q e).cks = s.cks := by
  obtain ⟨_, _, _, _, h⟩ := s.settle_step sq q e; rw [h]

@[simp] theorem State.cmdDone_pending (s : State) (sq cq ctx head : Nat) (tag : W64) (cmd st r : Nat) : (s.cmdDone sq cq ctx head tag cmd st r).pending = s.pending := by
  obtain ⟨_, _, _, _, h⟩ := s.cmdDone_step sq cq ctx head tag cmd st r; rw [h]
@[simp] theorem State.cmdDone_freeCtr (s : State) (sq cq ctx head : Nat) (tag : W64) (cmd st r : Nat) : (s.cmdDone sq cq ctx head tag cmd st r).freeCtr = s.freeCtr := by
  obtain ⟨_, _, _, _, h⟩ := s.cmdDone_step sq cq ctx head tag cmd st r; rw [h]
@[simp] theorem State.cmdDone_dev (s : State) (sq cq ctx head : Nat) (tag : W64) (cmd st r : Nat) : (s.cmdDone sq cq ctx head tag cmd st r).dev = s.dev := by
  obtain ⟨_, _, _, _, h⟩ := s.cmdDone_step sq cq ctx head tag cmd st r; rw [h]
@[simp] theorem State.cmdDone_run (s : State) (sq cq ctx head : Nat) (tag : W64) (cmd st r : Nat) : (s.cmdDone sq cq ctx head tag cmd st r).run = s.run := by
  obtain ⟨_, _, _, _, h⟩ := s.cmdDone_step sq cq ctx head tag cmd st r; rw [h]
@[simp] theorem State.cmdDone_ses (s : State) (sq cq ctx head : Nat) (tag : W64) (cmd st r : Nat) : (s.cmdDone sq cq ctx head tag cmd st r).ses = s.ses := by
  obtain ⟨_, _, _, _, h⟩ := s.cmdDone_step sq cq ctx head tag cmd st r; rw [h]
@[simp] theorem State.cmdDone_txt (s : State) (sq cq ctx head : Nat) (tag : W64) (cmd st r : Nat) : (s.cmdDone sq cq ctx head tag cmd st r).txt = s.txt := by
  obtain ⟨_, _, _, _, h⟩ := s.cmdDone_step sq cq ctx head tag cmd st r; rw [h]
@[simp] theorem State.cmdDone_fab (s : State) (sq cq ctx head : Nat) (tag : W64) (cmd st r : Nat) : (s.cmdDone sq cq ctx head tag cmd st r).fab = s.fab := by
  obtain ⟨_, _, _, _, h⟩ := s.cmdDone_step sq cq ctx head tag cmd st r; rw [h]
@[simp] theorem State.cmdDone_bulk (s : State) (sq cq ctx head : Nat) (tag : W64) (cmd st r : Nat) : (s.cmdDone sq cq ctx head tag cmd st r).bulk = s.bulk := by
  obtain ⟨_, _, _, _, h⟩ := s.cmdDone_step sq cq ctx head tag cmd st r; rw [h]
@[simp] theorem State.cmdDone_sec (s : State) (sq cq ctx head : Nat) (tag : W64) (cmd st r : Nat) : (s.cmdDone sq cq ctx head tag cmd st r).sec = s.sec := by
  obtain ⟨_, _, _, _, h⟩ := s.cmdDone_step sq cq ctx head tag cmd st r; rw [h]
@[simp] theorem State.cmdDone_cks (s : State) (sq cq ctx head : Nat) (tag : W64) (cmd st r : Nat) : (s.cmdDone sq cq ctx head tag cmd st r).cks = s.cks := by
  obtain ⟨_, _, _, _, h⟩ := s.cmdDone_step sq cq ctx head tag cmd st r; rw [h]

@[simp] theorem State.otherEvent_pending (s : State) (q ctx code st id v : Nat) : (s.otherEvent q ctx code st id v).pending = s.pending := by
  obtain ⟨_, _, _, _, h⟩ := s.otherEvent_step q ctx code st id v; rw [h]
@[simp] theorem State.otherEvent_freeCtr (s : State) (q ctx code st id v : Nat) : (s.otherEvent q ctx code st id v).freeCtr = s.freeCtr := by
  obtain ⟨_, _, _, _, h⟩ := s.otherEvent_step q ctx code st id v; rw [h]
@[simp] theorem State.otherEvent_dev (s : State) (q ctx code st id v : Nat) : (s.otherEvent q ctx code st id v).dev = s.dev := by
  obtain ⟨_, _, _, _, h⟩ := s.otherEvent_step q ctx code st id v; rw [h]
@[simp] theorem State.otherEvent_run (s : State) (q ctx code st id v : Nat) : (s.otherEvent q ctx code st id v).run = s.run := by
  obtain ⟨_, _, _, _, h⟩ := s.otherEvent_step q ctx code st id v; rw [h]
@[simp] theorem State.otherEvent_ses (s : State) (q ctx code st id v : Nat) : (s.otherEvent q ctx code st id v).ses = s.ses := by
  obtain ⟨_, _, _, _, h⟩ := s.otherEvent_step q ctx code st id v; rw [h]
@[simp] theorem State.otherEvent_txt (s : State) (q ctx code st id v : Nat) : (s.otherEvent q ctx code st id v).txt = s.txt := by
  obtain ⟨_, _, _, _, h⟩ := s.otherEvent_step q ctx code st id v; rw [h]
@[simp] theorem State.otherEvent_fab (s : State) (q ctx code st id v : Nat) : (s.otherEvent q ctx code st id v).fab = s.fab := by
  obtain ⟨_, _, _, _, h⟩ := s.otherEvent_step q ctx code st id v; rw [h]
@[simp] theorem State.otherEvent_bulk (s : State) (q ctx code st id v : Nat) : (s.otherEvent q ctx code st id v).bulk = s.bulk := by
  obtain ⟨_, _, _, _, h⟩ := s.otherEvent_step q ctx code st id v; rw [h]
@[simp] theorem State.otherEvent_sec (s : State) (q ctx code st id v : Nat) : (s.otherEvent q ctx code st id v).sec = s.sec := by
  obtain ⟨_, _, _, _, h⟩ := s.otherEvent_step q ctx code st id v; rw [h]
@[simp] theorem State.otherEvent_cks (s : State) (q ctx code st id v : Nat) : (s.otherEvent q ctx code st id v).cks = s.cks := by
  obtain ⟨_, _, _, _, h⟩ := s.otherEvent_step q ctx code st id v; rw [h]

@[simp] theorem State.tellDegraded_pending (s : State) (v : Nat) : (s.tellDegraded v).pending = s.pending := by
  obtain ⟨_, _, _, _, h⟩ := s.tellDegraded_step v; rw [h]
@[simp] theorem State.tellDegraded_freeCtr (s : State) (v : Nat) : (s.tellDegraded v).freeCtr = s.freeCtr := by
  obtain ⟨_, _, _, _, h⟩ := s.tellDegraded_step v; rw [h]
@[simp] theorem State.tellDegraded_dev (s : State) (v : Nat) : (s.tellDegraded v).dev = s.dev := by
  obtain ⟨_, _, _, _, h⟩ := s.tellDegraded_step v; rw [h]
@[simp] theorem State.tellDegraded_run (s : State) (v : Nat) : (s.tellDegraded v).run = s.run := by
  obtain ⟨_, _, _, _, h⟩ := s.tellDegraded_step v; rw [h]
@[simp] theorem State.tellDegraded_ses (s : State) (v : Nat) : (s.tellDegraded v).ses = s.ses := by
  obtain ⟨_, _, _, _, h⟩ := s.tellDegraded_step v; rw [h]
@[simp] theorem State.tellDegraded_txt (s : State) (v : Nat) : (s.tellDegraded v).txt = s.txt := by
  obtain ⟨_, _, _, _, h⟩ := s.tellDegraded_step v; rw [h]
@[simp] theorem State.tellDegraded_fab (s : State) (v : Nat) : (s.tellDegraded v).fab = s.fab := by
  obtain ⟨_, _, _, _, h⟩ := s.tellDegraded_step v; rw [h]
@[simp] theorem State.tellDegraded_bulk (s : State) (v : Nat) : (s.tellDegraded v).bulk = s.bulk := by
  obtain ⟨_, _, _, _, h⟩ := s.tellDegraded_step v; rw [h]
@[simp] theorem State.tellDegraded_sec (s : State) (v : Nat) : (s.tellDegraded v).sec = s.sec := by
  obtain ⟨_, _, _, _, h⟩ := s.tellDegraded_step v; rw [h]
@[simp] theorem State.tellDegraded_cks (s : State) (v : Nat) : (s.tellDegraded v).cks = s.cks := by
  obtain ⟨_, _, _, _, h⟩ := s.tellDegraded_step v; rw [h]

@[simp] theorem State.degrade_pending (s : State)  : (s.degrade ).pending = s.pending := by
  obtain ⟨_, _, _, _, h⟩ := s.degrade_step ; rw [h]
@[simp] theorem State.degrade_freeCtr (s : State)  : (s.degrade ).freeCtr = s.freeCtr := by
  obtain ⟨_, _, _, _, h⟩ := s.degrade_step ; rw [h]
@[simp] theorem State.degrade_dev (s : State)  : (s.degrade ).dev = s.dev := by
  obtain ⟨_, _, _, _, h⟩ := s.degrade_step ; rw [h]
@[simp] theorem State.degrade_run (s : State)  : (s.degrade ).run = s.run := by
  obtain ⟨_, _, _, _, h⟩ := s.degrade_step ; rw [h]
@[simp] theorem State.degrade_ses (s : State)  : (s.degrade ).ses = s.ses := by
  obtain ⟨_, _, _, _, h⟩ := s.degrade_step ; rw [h]
@[simp] theorem State.degrade_txt (s : State)  : (s.degrade ).txt = s.txt := by
  obtain ⟨_, _, _, _, h⟩ := s.degrade_step ; rw [h]
@[simp] theorem State.degrade_fab (s : State)  : (s.degrade ).fab = s.fab := by
  obtain ⟨_, _, _, _, h⟩ := s.degrade_step ; rw [h]
@[simp] theorem State.degrade_bulk (s : State)  : (s.degrade ).bulk = s.bulk := by
  obtain ⟨_, _, _, _, h⟩ := s.degrade_step ; rw [h]
@[simp] theorem State.degrade_sec (s : State)  : (s.degrade ).sec = s.sec := by
  obtain ⟨_, _, _, _, h⟩ := s.degrade_step ; rw [h]
@[simp] theorem State.degrade_cks (s : State)  : (s.degrade ).cks = s.cks := by
  obtain ⟨_, _, _, _, h⟩ := s.degrade_step ; rw [h]

@[simp] theorem State.record_pending (s : State) (e : ErrIn) : (s.record e).pending = s.pending := by
  obtain ⟨_, _, _, _, h⟩ := s.record_step e; rw [h]
@[simp] theorem State.record_freeCtr (s : State) (e : ErrIn) : (s.record e).freeCtr = s.freeCtr := by
  obtain ⟨_, _, _, _, h⟩ := s.record_step e; rw [h]
@[simp] theorem State.record_dev (s : State) (e : ErrIn) : (s.record e).dev = s.dev := by
  obtain ⟨_, _, _, _, h⟩ := s.record_step e; rw [h]
@[simp] theorem State.record_run (s : State) (e : ErrIn) : (s.record e).run = s.run := by
  obtain ⟨_, _, _, _, h⟩ := s.record_step e; rw [h]
@[simp] theorem State.record_ses (s : State) (e : ErrIn) : (s.record e).ses = s.ses := by
  obtain ⟨_, _, _, _, h⟩ := s.record_step e; rw [h]
@[simp] theorem State.record_txt (s : State) (e : ErrIn) : (s.record e).txt = s.txt := by
  obtain ⟨_, _, _, _, h⟩ := s.record_step e; rw [h]
@[simp] theorem State.record_fab (s : State) (e : ErrIn) : (s.record e).fab = s.fab := by
  obtain ⟨_, _, _, _, h⟩ := s.record_step e; rw [h]
@[simp] theorem State.record_bulk (s : State) (e : ErrIn) : (s.record e).bulk = s.bulk := by
  obtain ⟨_, _, _, _, h⟩ := s.record_step e; rw [h]
@[simp] theorem State.record_sec (s : State) (e : ErrIn) : (s.record e).sec = s.sec := by
  obtain ⟨_, _, _, _, h⟩ := s.record_step e; rw [h]
@[simp] theorem State.record_cks (s : State) (e : ErrIn) : (s.record e).cks = s.cks := by
  obtain ⟨_, _, _, _, h⟩ := s.record_step e; rw [h]

@[simp] theorem State.fatal_pending (s : State) (code source unit addr : Nat) : (s.fatal code source unit addr).pending = s.pending := by
  unfold State.fatal; split <;> simp
@[simp] theorem State.fatal_freeCtr (s : State) (code source unit addr : Nat) : (s.fatal code source unit addr).freeCtr = s.freeCtr := by
  unfold State.fatal; split <;> simp
@[simp] theorem State.fatal_run (s : State) (code source unit addr : Nat) : (s.fatal code source unit addr).run = s.run := by
  unfold State.fatal; split <;> simp
@[simp] theorem State.fatal_ses (s : State) (code source unit addr : Nat) : (s.fatal code source unit addr).ses = s.ses := by
  unfold State.fatal; split <;> simp
@[simp] theorem State.fatal_txt (s : State) (code source unit addr : Nat) : (s.fatal code source unit addr).txt = s.txt := by
  unfold State.fatal; split <;> simp
@[simp] theorem State.fatal_fab (s : State) (code source unit addr : Nat) : (s.fatal code source unit addr).fab = s.fab := by
  unfold State.fatal; split <;> simp
@[simp] theorem State.fatal_bulk (s : State) (code source unit addr : Nat) : (s.fatal code source unit addr).bulk = s.bulk := by
  unfold State.fatal; split <;> simp
@[simp] theorem State.fatal_sec (s : State) (code source unit addr : Nat) : (s.fatal code source unit addr).sec = s.sec := by
  unfold State.fatal; split <;> simp
@[simp] theorem State.fatal_cks (s : State) (code source unit addr : Nat) : (s.fatal code source unit addr).cks = s.cks := by
  unfold State.fatal; split <;> simp
/-- An entry whose ring has no slot free and none reserved is lost, and counted. -/
theorem State.event_lost {s : State} {q : Nat} (e : CqEntry) (h : s.dev.siteFatal = false) (hr : (s.qp q).room false = false) :
    s.event q e = (s.setQp q { s.qp q with overflow := true }).count 0x9000 5 q := by simp [State.event, h, hr]

/-- After a FATAL error no entry is written. -/
theorem State.event_fatal {s : State} (q : Nat) (e : CqEntry) (h : s.dev.siteFatal = true) : s.event q e = s := by simp [State.event, h]
theorem State.settle_fatal {s : State} (sq q : Nat) (e : CqEntry) (h : s.dev.siteFatal = true) : s.settle sq q e = s := by simp [State.settle, h]


/-- A FATAL error stops the device (16 R453). -/
@[simp] theorem State.fatal_siteFatal (s : State) (code source unit addr : Nat) : (s.fatal code source unit addr).dev.siteFatal = true := by
  unfold State.fatal; split
  · rename_i h; simpa using h
  · rfl

/-! ### Commands of a ring (11 R324, R325) -/

/-- A command that cannot be taken changes nothing. -/
theorem State.command_waits {s : State} {sq : Nat} {h : CmdHdr} {c : HostCmd} (hosts : List (Nat × Nat)) (f : State → CmdOut)
    (hm : s.mayTake sq (.cmd h c) = false) : s.command sq h c hosts f = s := by simp [State.command, hm]

/-- A command whose checks pass does what `f` says, and completes with its status where `f` completes it. -/
theorem State.command_passes {s : State} {sq : Nat} {h : CmdHdr} {c : HostCmd} {hosts : List (Nat × Nat)} (f : State → CmdOut)
    (hm : s.mayTake sq (.cmd h c) = true) (hq : s.cqOk sq (.cmd h c) = true) (he : s.evOk sq h.ctx.toNat c = true)
    (hh : ∀ w ∈ hosts, s.hostOk (s.target sq (.cmd h c)) w.1 w.2 = true) (hc : s.ctxOk sq h.ctx.toNat = true) (hk : sq = 64 → ksCmd c = true) :
    s.command sq h c hosts f = (f (s.takeEntry sq (s.target sq (.cmd h c)))).finish sq (s.target sq (.cmd h c))
      (s.qctx (s.target sq (.cmd h c))) ((s.takeEntry sq (s.target sq (.cmd h c))).sqHeadOf sq) h.tag c := by
  have hany : (hosts.any fun w => !s.hostOk (s.target sq (.cmd h c)) w.1 w.2) = false := by
    simp only [List.any_eq_false, Bool.not_eq_true', Bool.not_eq_false]
    exact fun w hw => hh w hw
  have hks : (decide (sq = 64) && !ksCmd c) = false := by
    by_cases hs : sq = 64
    · simp [hk hs]
    · simp [hs]
  simp [State.command, hm, hq, he, hany, hc, hks]

/-- A command of a ring answers a next state. -/
theorem State.ringCmd_next {s : State} {sq : Nat} (h : CmdHdr) (c : HostCmd) (hosts : List (Nat × Nat)) (f : State → CmdOut) :
    s.ringCmd sq h c hosts f = .next (s.command sq h c hosts f) := rfl

/-! ### Instructions of a core (03 R74) -/

/-- Where core `k` stands at `i`: it holds the core and the step, the step runs, and the core is ready. -/
theorem State.atIsn_some {s : State} {k : Nat} {i : Isn} {c : Core} {p : Step} (h : s.atIsn k i = some (c, p)) :
    s.core k = some c ∧ s.running c.step = some p ∧ c.ready s.aclk = true ∧ c.cur = some i := by
  unfold State.atIsn at h
  split at h
  · cases h
  · rename_i c' hc
    split at h
    · cases h
    · rename_i p' hp
      split at h
      · rename_i hr
        simp only [Option.some.injEq, Prod.mk.injEq] at h
        obtain ⟨rfl, rfl⟩ := h
        simp only [Bool.and_eq_true, beq_iff_eq] at hr
        exact ⟨hc, hp, hr.1, hr.2⟩
      · cases h

theorem State.coreIsn_at {s : State} {k : Nat} {i : Isn} {c : Core} {p : Step} (f : Core → Step → Did)
    (h : s.atIsn k i = some (c, p)) : s.coreIsn k i f = .next (s.did k c (f c p)) := by simp [State.coreIsn, h]

theorem State.coreIsn'_at {s : State} {k : Nat} {i : Isn} {c : Core} {p : Step} (f : Core → Step → State)
    (h : s.atIsn k i = some (c, p)) : s.coreIsn' k i f = .next (f c p) := by simp [State.coreIsn', h]

/-- A core that stands elsewhere does nothing. -/
theorem State.coreIsn_away {s : State} {k : Nat} {i : Isn} (f : Core → Step → Did) (h : s.atIsn k i = none) :
    s.coreIsn k i f = .next s := by simp [State.coreIsn, h]

theorem State.coreIsn'_away {s : State} {k : Nat} {i : Isn} (f : Core → Step → State) (h : s.atIsn k i = none) :
    s.coreIsn' k i f = .next s := by simp [State.coreIsn', h]

/-- A core inside its program goes on. -/
theorem State.retireIsn_inside {s : State} {k : Nat} {c : Core} (cost : Nat) (h : c.ip + 1 < c.istore.length) :
    s.retireIsn k c cost = s.setCore k { c with ip := c.ip + 1, busyUntil := s.aclk + cost, ph := .run } := by
  simp [State.retireIsn, State.goTo, h]

theorem State.goTo_inside {s : State} {k : Nat} {c : Core} (cost : Nat) {t : Nat} (h : t < c.istore.length) :
    s.goTo k c cost t = s.setCore k { c with ip := t, busyUntil := s.aclk + cost, ph := .run } := by simp [State.goTo, h]

/-! ### Management messages (14 R391) -/

/-- A request that passes the first four checks is answered by its plan, and takes effect after the answer. -/
theorem State.mgmtMsg_heard {s : State} {m : MgmtHdr} {op : Nat} {form : Bool} (plan : State → Nat → MgmtPlan) (hu : s.mgmtUp = true)
    (ha : s.authentic m = true) (hv : m.mver = 1) (hb : m.bodyOk = true) (hf : form = true) (hs : m.seq ≠ 0)
    (he : m.bootEpoch.toNat = s.dev.bootEpoch) (hm : s.dev.mgmt ≠ 0) (hw : (tblGet winNone s.mg.wins m.keySlot.toNat).below m.seq.toNat = false)
    (hn : m.seq.toNat ∉ (tblGet winNone s.mg.wins m.keySlot.toNat).seen) :
    let p := plan s (s.obj 0x1201 2 m.keySlot.toNat)
    let r := s.mgmtReply m op p.status p.item p.body
    s.mgmtMsg m op form plan = .next (p.effect ((s.modMg fun g => { g with
      wins := tblIns g.wins m.keySlot.toNat ((tblGet winNone s.mg.wins m.keySlot.toNat).accept m.seq.toNat r) }).say r)) := by
  have hz : (m.seq.toNat == 0) = false := by
    rw [beq_eq_false_iff_ne]
    exact fun h => hs (BitVec.eq_of_toNat_eq (by simpa using h))
  simp [State.mgmtMsg, hu, ha, hv, hb, hf, hz, he, hm, hw, hn]

/-! ### Byte strings and sealed copies (06 R168; 12 R343) -/

@[simp] theorem leBytes_length (n v : Nat) : (leBytes n v).length = n := by
  induction n generalizing v with
  | zero => rfl
  | succ n ih => simp [leBytes, ih]

@[simp] theorem leNat_leBytes (n v : Nat) : leNat (leBytes n v) = v % 256 ^ n := by
  induction n generalizing v with
  | zero => simp [leBytes, leNat, Nat.mod_one]
  | succ n ih =>
    simp only [leBytes, leNat, ih, BitVec.toNat_ofNat]
    have h : v % 256 ^ (n + 1) = v % 256 + 256 * (v / 256 % 256 ^ n) := by rw [Nat.pow_succ', Nat.mod_mul]
    rw [h]

theorem leNat_append (a b : List Byte) : leNat (a ++ b) = leNat a + 256 ^ a.length * leNat b := by
  induction a with
  | nil => simp [leNat]
  | cons x a ih =>
    simp only [List.cons_append, leNat, ih, List.length_cons, Nat.pow_succ']
    ring

/-- The key stream applied twice changes nothing. -/
@[simp] theorem ctr_ctr (key nonce : Nat) (bs : List Byte) : ctr key nonce (ctr key nonce bs) = bs := by
  unfold ctr
  apply List.ext_getElem
  · simp
  · intro i h1 h2
    simp

@[simp] theorem ctr_length (key nonce : Nat) (bs : List Byte) : (ctr key nonce bs).length = bs.length := by simp [ctr]

/-- A copy opens under the key, the nonce and the additional data that sealed it. -/
theorem openCopy_sealCopy (key nonce : Nat) (aad pay : List Byte) (h : nonce < 2 ^ 96) :
    openCopy key aad (sealCopy key nonce aad pay) = some pay := by
  have hc : (crc32c pay).toNat < 2 ^ 32 := (crc32c pay).isLt
  have ht : (Config.gcmTag key nonce aad (ctr key nonce pay)).toNat < 2 ^ 128 := BitVec.isLt _
  have hl : (sealCopy key nonce aad pay).length - 32 = (ctr key nonce pay).length := by simp [sealCopy]
  have hd : sealCopy key nonce aad pay = ctr key nonce pay ++ (leBytes 4 (crc32c pay).toNat ++ leBytes 12 nonce
      ++ leBytes 16 (Config.gcmTag key nonce aad (ctr key nonce pay)).toNat) := by simp [sealCopy]
  have hn : leNat (leBytes 4 (crc32c pay).toNat ++ leBytes 12 nonce ++ leBytes 16 (Config.gcmTag key nonce aad (ctr key nonce pay)).toNat)
      = (crc32c pay).toNat + 2 ^ 32 * nonce + 2 ^ 128 * (Config.gcmTag key nonce aad (ctr key nonce pay)).toNat := by
    simp only [leNat_append, leNat_leBytes, leBytes_length, List.length_append]
    norm_num
    omega
  unfold openCopy
  dsimp only
  rw [hl]
  rw [hd, List.take_left, List.drop_left, hn]
  have b1 : bits ((crc32c pay).toNat + 2 ^ 32 * nonce + 2 ^ 128 * (Config.gcmTag key nonce aad (ctr key nonce pay)).toNat) 127 32 = nonce := by
    unfold bits; norm_num at h hc ht ⊢; omega
  have b2 : bits ((crc32c pay).toNat + 2 ^ 32 * nonce + 2 ^ 128 * (Config.gcmTag key nonce aad (ctr key nonce pay)).toNat) 255 128
      = (Config.gcmTag key nonce aad (ctr key nonce pay)).toNat := by
    unfold bits; norm_num at h hc ht ⊢; omega
  rw [b1, b2, ctr_ctr, if_pos]
  simp

/-! ### A device that is not live -/

theorem State.running_dead {s : State} (n : Nat) (h : s.live = false) : s.running n = none := by
  unfold State.running; split <;> simp [h]
theorem State.atIsn_dead {s : State} (k : Nat) (i : Isn) (h : s.live = false) : s.atIsn k i = none := by
  unfold State.atIsn; split <;> simp [State.running_dead _ h]
theorem State.mayTake_dead {s : State} (sq : Nat) (e : Entry) (h : s.live = false) : s.mayTake sq e = false := by
  simp [State.mayTake, State.takeable, State.taking, State.oper, h]
theorem State.ringCmd_dead {s : State} {sq : Nat} (h : CmdHdr) (c : HostCmd) (hosts : List (Nat × Nat)) (f : State → CmdOut)
    (hl : s.live = false) : s.ringCmd sq h c hosts f = .next s := by
  rw [State.ringCmd_next h c hosts f, State.command_waits hosts f (State.mayTake_dead sq _ hl)]

end Sys2Proof.Machine
end

