-- ==== Sys2Proof/Tests/Slice0.lean ====
section
/-! SUPPORT. Tests. Small states built by the helpers below, an ill-formed command for each check of `Instr.wf`, the
manual's own numbers for its encodings, and for each statement a witness for each of its clauses: `wit_<statement>`
shows a state and operands that meet the hypotheses together, at the ends of their ranges where a clause has one. -/

namespace Sys2Proof.Tests
open Sys2Proof Sys2Proof.Machine
set_option Elab.async false

/-! ### Fixtures -/

/-- Root-locked, started, OPERATIONAL, every stack in service; 500,000 cycles of ACLK have passed. -/
def dev0 : Dev := { nclk := 1000000, locked := true, power := .up, mgmt := 2, hbmSt := List.replicate 12 1 }
/-- A running device with no context. -/
def live0 : State := { State.reset with dev := dev0, mg := { banks := [] } }

/-- A core at the first of two instructions, its registers zero but P[1] = 64, and C[0] = 1. -/
def core0 (isn : List (BitVec 128)) : Core :=
  { step := 0, pos := 0, p := [0, 64] ++ List.replicate 14 0, c := 1 :: List.replicate 7 0, k := List.replicate 4 0,
    sg := List.replicate 8 0, q := List.replicate 8 0, tags := List.replicate 8 none, liens := 0, ip := 0, drift := false,
    srOrd := 0, ph := .run, busyUntil := 0, istore := isn, ls := ⟨[], []⟩, cs := ⟨[], []⟩, queue := [], arm := none, rem := [],
    nsync := 0, seg := [], ahead := [] }

/-- A running step of context 1 on core 0, its descriptor `d`. -/
def step0 (d : StepDesc) : Step :=
  { d := d, sq := 0, jobId := 0, seqs := [], ph := .running, release := 0, order := 0, quads := [0], lent := false, dies := [0],
    cores := [0], started := 0, executed := 0, gap := 0, posts := [], discarded := 0, msgs := [], sync := [], sparseBad := false,
    appends := [], undo := [], saved := [], ring := none, stall := [], cost := 0 }

/-- An all-zero descriptor. -/
def d0 : StepDesc := decDesc 0
/-- The instruction word of an opcode and the other bits. -/
def sw (op rest : Nat) : BitVec 128 := BitVec.ofNat 128 (op * 2 ^ 120 + rest)
/-- Core `c` of step `p`. -/
def onCore (c : Core) (p : Step) : State :=
  { live0 with run := { cores := [(0, c)], steps := [(0, p)], jobs := [(0, ⟨1, 1, 1, 0, 0, 0, 1, 0, false, false, true, [], 0, 0, 0, [], [], 1⟩)] } }
/-- Core 0 at the instruction word `w`, a NOP after it. -/
def at0 (w : BitVec 128) : State := onCore (core0 [w, 0]) (step0 d0)

/-! ### Ill-formed commands, one for each check -/

theorem test_wf_core : (Instr.nop 1024).wf = false := by decide
theorem test_wf_ring : (Instr.bindRemove 65 ⟨0, 0, 0⟩ 0).wf = false := by decide
theorem test_wf_mover : (Instr.pageLand 16).wf = false := by decide
theorem test_wf_line : (Instr.patrolRead 12884901888 .clean).wf = false := by decide
theorem test_wf_frame_port : (Instr.linkFrameReceive 18 ⟨0, 0, 0, false, 0, 0, 0, []⟩).wf = false := by decide
theorem test_wf_port : (Instr.portTrainingDone 18 4).wf = false := by decide
theorem test_wf_lane_port : (Instr.portLaneLoss 18 0).wf = false := by decide
theorem test_wf_module : (Instr.ucieFlitReplay 4).wf = false := by decide
theorem test_wf_pair : (Instr.qpEnable ⟨⟨0, 0⟩, 64⟩).wf = false := by decide
theorem test_wf_kind : (Instr.imageVerified 5).wf = false := by decide
theorem test_wf_die : (Instr.memoryIslandFailure 4).wf = false := by decide
theorem test_wf_good : (Instr.nop 1023).wf = true ∧ (Instr.bindRemove 64 ⟨0, 0, 0⟩ 0).wf = true ∧ (Instr.imageVerified 4).wf = true := by decide

/-! ### The block -/

theorem wit_EmptyQueueAdvancesTheClock :
    State.reset.pending = [] ∧ State.reset.dev.locked = false ∧ live0.pending = [] ∧ live0.dev.locked = true
    ∧ ∃ s : State, s.pending = [] ∧ s.dev.locked = true ∧ s.dev.siteFatal = true :=
  ⟨rfl, rfl, rfl, rfl, { live0 with dev := { dev0 with siteFatal := true } }, rfl, rfl, rfl⟩

/-! ### Core instructions -/

theorem wit_PointerAndCounterWrites :
    AtCore (at0 (sw 0x00 0)) 0 .nop (core0 [sw 0x00 0, 0]) (step0 d0)
    ∧ AtCore (at0 (sw 0x01 (15 * 2 ^ 116))) 0 (.setp (decC (15 * 2 ^ 116))) (core0 [sw 0x01 (15 * 2 ^ 116), 0]) (step0 d0)
    ∧ AtCore (at0 (sw 0x02 0)) 0 (.addp (decC 0)) (core0 [sw 0x02 0, 0]) (step0 d0)
    ∧ (AtCore (at0 (sw 0x03 (7 * 2 ^ 116))) 0 (.setc (decC (7 * 2 ^ 116))) (core0 [sw 0x03 (7 * 2 ^ 116), 0]) (step0 d0)
      ∧ (decC (7 * 2 ^ 116)).dst.toNat < 8)
    ∧ (AtCore (at0 (sw 0x05 (3 * 2 ^ 116))) 0 (.setk (decC (3 * 2 ^ 116))) (core0 [sw 0x05 (3 * 2 ^ 116), 0]) (step0 d0)
      ∧ (decC (3 * 2 ^ 116)).dst.toNat < 4) := by decide +kernel

theorem wit_CountersAndBranches :
    (AtCore (at0 (sw 0x04 0x17FFC0)) 0 (.ldc (decC 0x17FFC0)) (core0 [sw 0x04 0x17FFC0, 0]) (step0 d0)
      ∧ (decC 0x17FFC0).dst.toNat < 8
      ∧ 0x17FFC0 = ((core0 [sw 0x04 0x17FFC0, 0]).p.getD (decC 0x17FFC0).src.toNat 0
          + ((decC 0x17FFC0).imm64.setWidth 21).setWidth 64).toNat
      ∧ 0x17FFC0 % 64 = 0 ∧ 0x17FFC0 + 4 ≤ 0x180000
      ∧ leNat ((core0 [sw 0x04 0x17FFC0, 0]).ls.read 0x17FFC0 4) ≤ (decC 0x17FFC0).imm32.toNat)
    ∧ (AtCore (at0 (sw 0x06 0)) 0 (.loop (decC 0)) (core0 [sw 0x06 0, 0]) (step0 d0)
      ∧ (0 : W32) = (core0 [sw 0x06 0, 0]).c.getD (decC 0).dst.toNat 0 - 1)
    ∧ (AtCore (at0 (sw 0x06 (7 * 2 ^ 116 + 1))) 0 (.loop (decC (7 * 2 ^ 116 + 1))) (core0 [sw 0x06 (7 * 2 ^ 116 + 1), 0]) (step0 d0)
      ∧ (decC (7 * 2 ^ 116 + 1)).dst.toNat < 8
      ∧ (core0 [sw 0x06 (7 * 2 ^ 116 + 1), 0]).c.getD (decC (7 * 2 ^ 116 + 1)).dst.toNat 0 - 1 ≠ 0
      ∧ (decC (7 * 2 ^ 116 + 1)).imm64.toNat % 2048 < 2)
    ∧ (AtCore (at0 (sw 0x07 (3 * 2 ^ 109 + 1))) 0 (.brc (decC (3 * 2 ^ 109 + 1))) (core0 [sw 0x07 (3 * 2 ^ 109 + 1), 0]) (step0 d0)
      ∧ cmpOf (decC (3 * 2 ^ 109 + 1)).cmp 1 (decC (3 * 2 ^ 109 + 1)).imm32 = some true
      ∧ (decC (3 * 2 ^ 109 + 1)).imm64.toNat % 2048 < 2)
    ∧ (AtCore (at0 (sw 0x08 1)) 0 (.jmp (decC 1)) (core0 [sw 0x08 1, 0]) (step0 d0)
      ∧ (decC 1).imm64.toNat % 2048 < (core0 [sw 0x08 1, 0]).istore.length) := by decide +kernel

/-- A core whose local store holds one byte 1 at address 0. -/
def coreB (w : BitVec 128) : Core := { core0 [w, 0] with ls := (core0 []).ls.write 0 [1] }

theorem wit_SequencerStops :
    AtCore (at0 (sw 0xFF 0)) 0 (.unlisted 0xFF) (core0 [sw 0xFF 0, 0]) (step0 d0)
    ∧ (AtCore (at0 (sw 0x03 (8 * 2 ^ 116))) 0 (.setc (decC (8 * 2 ^ 116))) (core0 [sw 0x03 (8 * 2 ^ 116), 0]) (step0 d0)
      ∧ 8 ≤ (decC (8 * 2 ^ 116)).dst.toNat)
    ∧ (AtCore (at0 (sw 0x05 (4 * 2 ^ 116))) 0 (.setk (decC (4 * 2 ^ 116))) (core0 [sw 0x05 (4 * 2 ^ 116), 0]) (step0 d0)
      ∧ 4 ≤ (decC (4 * 2 ^ 116)).dst.toNat)
    ∧ (AtCore (at0 (sw 0x07 (4 * 2 ^ 109))) 0 (.brc (decC (4 * 2 ^ 109))) (core0 [sw 0x07 (4 * 2 ^ 109), 0]) (step0 d0)
      ∧ 4 ≤ (decC (4 * 2 ^ 109)).cmp.toNat)
    ∧ (AtCore (at0 (sw 0x08 2)) 0 (.jmp (decC 2)) (core0 [sw 0x08 2, 0]) (step0 d0)
      ∧ (core0 [sw 0x08 2, 0]).istore.length ≤ (decC 2).imm64.toNat % 2048)
    ∧ (AtCore (onCore (coreB (sw 0x04 0)) (step0 d0)) 0 (.ldc (decC 0)) (coreB (sw 0x04 0)) (step0 d0)
      ∧ (decC 0).imm32.toNat < leNat ((coreB (sw 0x04 0)).ls.read 0 4))
    ∧ (let s := onCore (core0 [sw 0x00 0]) (step0 d0)
       s.atIsn 0 .nop = some (core0 [sw 0x00 0], step0 d0) ∧ (core0 [sw 0x00 0]).istore.length ≤ (core0 [sw 0x00 0]).ip + 1)
    ∧ (let s := onCore (core0 [sw 0x01 0]) (step0 d0)
       s.atIsn 0 (.setp (decC 0)) = some (core0 [sw 0x01 0], step0 d0))
    ∧ (let s := onCore (core0 [sw 0x02 0]) (step0 d0)
       s.atIsn 0 (.addp (decC 0)) = some (core0 [sw 0x02 0], step0 d0)) := by decide +kernel

/-- A step whose core at position 1 has failed in cycle `x`. -/
def stepFailed (x : Nat) : Step := { step0 d0 with fail := some ⟨stAddrFault, 1, 0, x⟩ }
theorem wit_SequencerStops_failures :
    (let s := at0 0
     tblWf s.run.steps = true ∧ tblWf s.run.cores = true ∧ s.stp 0 = some (step0 d0) ∧ (step0 d0).fail = none ∧ (step0 d0).cores[0]? = some 0
     ∧ s.core 0 = some (core0 [0, 0]) ∧ (core0 [0, 0]).step = 0)
    ∧ (let s := onCore (core0 [0, 0]) (stepFailed 500000)
       s.stp 0 = some (stepFailed 500000) ∧ s.aclk = 500000 ∧ 0 < 1 ∧ ¬(500000 = s.aclk ∧ 1 < 1))
    ∧ (let s := onCore (core0 [0, 0]) (stepFailed 499999)
       s.stp 0 = some (stepFailed 499999) ∧ ¬(499999 = s.aclk ∧ 0 < 1) ∧ s.run.steps = [(0, stepFailed 499999)] ∧ 499999 < s.aclk) := by
  decide +kernel

theorem wit_RetiringChangesOnlyItsCore :
    ∃ s t : State, ∃ c, t = retired s 0 c 1 := ⟨at0 0, retired (at0 0) 0 (core0 [0, 0]) 1, core0 [0, 0], rfl⟩

/-- A step whose course has shown a barrier. -/
def stepSync : Step := { step0 d0 with sync := [.barrier] }
/-- A core that has finished. -/
def coreDone : Core := { core0 [sw 0x09 0] with ph := .ended }

theorem wit_EndOfAProgram :
    ((at0 (sw 0x09 0)).atIsn 0 .endProg = some (core0 [sw 0x09 0, 0], step0 d0)
      ∧ (at0 (sw 0x09 0)).reach (step0 d0) (core0 [sw 0x09 0, 0]) .fin = some [.fin])
    ∧ ((onCore (core0 [sw 0x09 0]) stepSync).atIsn 0 .endProg = some (core0 [sw 0x09 0], stepSync)
      ∧ (onCore (core0 [sw 0x09 0]) stepSync).reach stepSync (core0 [sw 0x09 0]) .fin = none)
    ∧ ((onCore coreDone (step0 d0)).stp 0 = some (step0 d0) ∧ (step0 d0).ringDone = true ∧ (step0 d0).fail = none
      ∧ (step0 d0).ph = .running ∧ (step0 d0).cores ≠ []
      ∧ ∀ e ∈ (onCore coreDone (step0 d0)).cores (step0 d0), e.2.ph = .ended
        ∧ ∀ r ∈ e.2.queue, r.kind = .wr → (onCore coreDone (step0 d0)).uncopied (step0 d0).ctx r.caddr r.len = [])
    ∧ ((at0 (sw 0x09 0)).stp 0 = some (step0 d0)
      ∧ ∃ e ∈ (at0 (sw 0x09 0)).cores (step0 d0), e.2.ph ≠ .ended) := by decide +kernel

/-- Format T with LEN 64, from P[0] to P[1] = 64; `wT` whole clusters. -/
def tT : Nat := 1 * 2 ^ 112 + 64 * 2 ^ 16
def dWhole : StepDesc := { d0 with wholeCl := true }

theorem wit_StoreCopies :
    (let f := decT tT
     let c := core0 [sw 0x20 tT, 0]
     AtCore (at0 (sw 0x20 tT)) 0 (.dmaLs f) c (step0 d0) ∧ memWf c.ls.mem = true
      ∧ f.len.toNat % 64 = 0 ∧ 64 ≤ f.len.toNat ∧ f.len.toNat ≤ 1572864
      ∧ (padd c f.ps f.soff).toNat % 64 = 0 ∧ (padd c f.pd f.doff).toNat % 64 = 0
      ∧ (padd c f.ps f.soff).toNat + f.len.toNat ≤ 0x180000 ∧ (padd c f.pd f.doff).toNat + f.len.toNat ≤ 0x180000)
    ∧ (let f := decT tT
       AtCore (at0 (sw 0x21 tT)) 0 (.dmaCs f) (core0 [sw 0x21 tT, 0]) (step0 d0) ∧ (step0 d0).d.wholeCl = false)
    ∧ (let f := decT (tT + 2 ^ 108)
       let w := sw 0x21 (tT + 2 ^ 108)
       AtCore (onCore (core0 [w, 0]) (step0 dWhole)) 0 (.dmaCs f) (core0 [w, 0]) (step0 dWhole)
        ∧ (step0 dWhole).d.wholeCl = true ∧ f.dir = true ∧ 0 ≤ (padd (core0 [w, 0]) f.ps f.soff).toNat
        ∧ (padd (core0 [w, 0]) f.ps f.soff).toNat + f.len.toNat ≤ 0x28000
        ∧ (padd (core0 [w, 0]) f.pd f.doff).toNat + f.len.toNat ≤ 0x180000)
    ∧ (let f := decT (tT + (0x27FC0 - 64) * 2 ^ 40)
       let w := sw 0x21 (tT + (0x27FC0 - 64) * 2 ^ 40)
       AtCore (onCore (core0 [w, 0]) (step0 dWhole)) 0 (.dmaCs f) (core0 [w, 0]) (step0 dWhole) ∧ f.dir = false
        ∧ (padd (core0 [w, 0]) f.ps f.soff).toNat + f.len.toNat ≤ 0x180000
        ∧ (padd (core0 [w, 0]) f.pd f.doff).toNat + f.len.toNat = 0x28000) := by decide +kernel

theorem wit_BadOperandAddressStops :
    (let n := 64 * 2 ^ 16 + 1 * 2 ^ 72
     AtCore (at0 (sw 0x20 n)) 0 (.dmaLs (decT n)) (core0 [sw 0x20 n, 0]) (step0 d0)
      ∧ lsOk (padd (core0 [sw 0x20 n, 0]) (decT n).ps (decT n).soff).toNat (decT n).len.toNat = false)
    ∧ (let n := 13 * 2 ^ 114 + 1 * 2 ^ 81
     AtCore (at0 (sw 0x14 n)) 0 (.vec (decV n)) (core0 [sw 0x14 n, 0]) (step0 d0) ∧ (decV n).func.toNat ≤ 13
      ∧ lsOk ((core0 [sw 0x14 n, 0]).addr (decV n).pa (decV n).aoff.toNat) (4 * elems (decV n).n) = false)
    ∧ (let n := 5 * 2 ^ 116 + 5 * 2 ^ 112 + 1 * 2 ^ 110 + 1 * 2 ^ 81
     AtCore (at0 (sw 0x15 n)) 0 (.cvt (decX n)) (core0 [sw 0x15 n, 0]) (step0 d0)
      ∧ (decX n).fromF.toNat ≤ 5 ∧ (decX n).toF.toNat ≤ 5 ∧ (decX n).rnd.toNat ≤ 1
      ∧ lsOk ((core0 [sw 0x15 n, 0]).addr (decX n).pa (decX n).aoff.toNat) (cvtBytes (decX n).fromF.toNat (elems (decX n).n)) = false) := by
  decide +kernel

/-- VEC, N 1, function 0, A at P[0], B and D at P[1]. -/
def tV : Nat := 1 * 2 ^ 106 + 1 * 2 ^ 102 + 1 * 2 ^ 23
/-- CVT of 32 elements from FP32 to a block format, stochastic; and of 1 element from FP32 to FP32. -/
def tX : Nat := 0 * 2 ^ 116 + 11 * 2 ^ 112 + 2 * 2 ^ 110 + 1 * 2 ^ 102 + 32 * 2 ^ 44

theorem wit_VectorAndConversionResults :
    (let f := decV tV
     let c := core0 [sw 0x14 tV, 0]
     AtCore (at0 (sw 0x14 tV)) 0 (.vec f) c (step0 d0) ∧ f.func.toNat ≤ 13 ∧ lsOk (c.addr f.pa f.aoff.toNat) (4 * elems f.n) = true
      ∧ lsOk (c.addr f.pb f.boff.toNat) (4 * vecB 0 1) = true ∧ lsOk (c.addr f.pd f.doff.toNat) (4 * vecD 0 1) = true
      ∧ (vecFunc f.func.toNat [c.ls.f32 0] [c.ls.f32 64] []).isSome = true)
    ∧ (let f := decX tX
       let c := core0 [sw 0x15 tX, 0]
       AtCore (at0 (sw 0x15 tX)) 0 (.cvt f) c (step0 d0) ∧ f.fromF.toNat = 0 ∧ f.toF.toNat = 11 ∧ f.rnd.toNat = 2
        ∧ isMx 11 = true ∧ elems f.n % 32 = 0 ∧ lsOk (c.addr f.pa f.aoff.toNat) (cvtBytes 0 32) = true
        ∧ lsOk (c.addr f.pd f.doff.toNat) (cvtBytes 11 32) = true) := by decide +kernel


/-! ### Engine operations -/

/-- The part of every core succeeds, as `engParts` asks, read off by computation. -/
def engOkB (s : State) (p : Step) (run : Core → FmtE → Except Nat EngRes) : Bool :=
  (s.cores p).all fun e => match e.2.fmtE with
    | some f => (match run e.2 f with | .ok r => !r.bad && r.fails.isNone | .error _ => false)
        && (!f.append || match e.2.arm with | some g => (s.apndWait p g).isNone | none => true)
    | none => true

theorem engParts_of (s : State) (p : Step) (run : Core → FmtE → Except Nat EngRes) (h : engOkB s p run = true) : engParts s p run := by
  intro e he f hf
  have h1 := List.all_eq_true.mp h e he
  rw [hf] at h1
  simp only [Bool.and_eq_true, Bool.or_eq_true, Bool.not_eq_true'] at h1
  refine ⟨?_, fun ha g hg => ?_⟩
  · cases hr : run e.2 f with
    | ok r =>
      have h2 := h1.1
      simp only [hr, Bool.and_eq_true, Bool.not_eq_true', Option.isNone_iff_eq_none] at h2
      exact ⟨r, rfl, h2⟩
    | error _ => simp [hr] at h1
  · rcases h1.2 with h2 | h2
    · simp [ha] at h2
    · simpa [hg] using h2

/-- Engine instruction, engine 0, K = 32 bf16 by bf16; for ATS and ATV the page of tag 0. -/
def tE (a w : Nat) : Nat := 1 * 2 ^ 112 + a * 2 ^ 108 + w * 2 ^ 104 + 1 * 2 ^ 80
def sigE (a w : Nat) : EngSig := ⟨1, BitVec.ofNat 4 a, BitVec.ofNat 4 w, 0, 0, false, false, 1⟩
/-- A BF16 page of 32 channels, delivered whole. -/
def tag0 : PageTag := ⟨0, 1, 32, 32, 0, 1000000, 0, 0⟩
def coreE (w : BitVec 128) : Core := { core0 [w, 0] with tags := some tag0 :: List.replicate 7 none }
def stepE : Step := step0 { d0 with qfmt := 1 }
def atE (w : BitVec 128) : State := onCore (coreE w) stepE
/-- The signature of one core of two differs. -/
def atSkew : State :=
  { onCore (coreE (sw 0x10 (tE 1 1))) { stepE with cores := [0, 1] } with
    run := { cores := [(0, coreE (sw 0x10 (tE 1 1))), (1, { coreE (sw 0x10 (tE 1 2)) with pos := 1 })],
             steps := [(0, { stepE with cores := [0, 1] })] } }

theorem wit_EngineOperations :
    (EngReady (atE (sw 0x10 (tE 1 1))) 0 0x10 (sigE 1 1) stepE
      ∧ engParts (atE (sw 0x10 (tE 1 1))) stepE (fun c f => mmRun (atE (sw 0x10 (tE 1 1))) true stepE c f none)
      ∧ (atE (sw 0x10 (tE 1 1))).checksOn = true)
    ∧ (EngReady (atE (sw 0x11 (tE 1 0))) 0 0x11 (tagged (sigE 1 0)) stepE
      ∧ engParts (atE (sw 0x11 (tE 1 0))) stepE (fun c f => atsRun true stepE c f none))
    ∧ (EngReady (atE (sw 0x12 (tE 0 0))) 0 0x12 (tagged (sigE 0 0)) stepE
      ∧ engParts (atE (sw 0x12 (tE 0 0))) stepE (fun c f => atvRun true stepE c f none))
    ∧ (decE (tE 1 1)).append = false
    ∧ (∃ r, mmRun (atE 0) false stepE (coreE 0) (decE (tE 1 1)) none = .ok r)
    ∧ (∃ r, atsRun false stepE (coreE 0) (decE (tE 1 0)) none = .ok r) ∧ (∃ r, atvRun false stepE (coreE 0) (decE (tE 0 0)) none = .ok r) := by
  refine ⟨⟨by decide +kernel, engParts_of _ _ _ (by decide +kernel), by decide +kernel⟩,
    ⟨by decide +kernel, engParts_of _ _ _ (by decide +kernel)⟩, ⟨by decide +kernel, engParts_of _ _ _ (by decide +kernel)⟩,
    by decide +kernel, ?_⟩
  have ok {x : Except Nat EngRes} (h : (match x with | .ok _ => true | .error _ => false) = true) : ∃ r, x = .ok r := by
    cases x with
    | ok r => exact ⟨r, rfl⟩
    | error _ => simp at h
  exact ⟨ok (by decide +kernel), ok (by decide +kernel), ok (by decide +kernel)⟩

/-- A fault writes a large number into the first cell of a product of zeros. -/
def flt0 : EngFault := ⟨0, 0, 0, 0, 0x7F000000⟩
theorem wit_EngineOperations_failed :
    let s := atE (sw 0x10 (tE 1 1))
    let c := coreE (sw 0x10 (tE 1 1))
    EngReady s 0 0x10 (sigE 1 1) stepE ∧ s.cores stepE = [(0, c)] ∧ c.fmtE = some (decE (tE 1 1)) ∧ (decE (tE 1 1)).append = false
    ∧ flt0.pos = c.pos ∧ ∃ r, mmRun s s.checksOn stepE c (decE (tE 1 1)) (some flt0) = .ok r ∧ r.fails = some 0 := by
  intro s c
  have h : (match mmRun s s.checksOn stepE c (decE (tE 1 1)) (some flt0) with | .ok r => r.fails == some 0 | .error _ => false) = true := by
    decide +kernel
  refine ⟨by decide +kernel, by decide +kernel, by decide +kernel, by decide +kernel, rfl, ?_⟩
  generalize mmRun s s.checksOn stepE c (decE (tE 1 1)) (some flt0) = x at h
  cases x with
  | ok r => exact ⟨r, rfl, by simpa using h⟩
  | error _ => simp at h

/-- A core that has drifted. -/
def atDrift : State := onCore { coreE (sw 0x10 (tE 1 1)) with drift := true } stepE

theorem wit_CourseSkewAndRealignment :
    (atSkew.running 0 = some { stepE with cores := [0, 1] } ∧ (atSkew.engSkew { stepE with cores := [0, 1] }).isSome = true)
    ∧ (atDrift.running 0 = some stepE ∧ atDrift.engSkew stepE = none ∧ (∀ e ∈ atDrift.cores stepE, (e.2.engAt atDrift.aclk).isSome = true)
      ∧ ∃ e ∈ atDrift.cores stepE, e.2.drift = true) := by decide +kernel

/-! ### Stream requests -/

/-- A request for context memory, of 64 bytes. -/
def req0 (kind : StreamKind) : StreamReq := ctxReq kind (decT (64 * 2 ^ 16)) (step0 d0) 0 0 0 0
/-- A core with `n` requests waiting. -/
def coreQ (w : BitVec 128) (n : Nat) : Core := { core0 [w, 0] with queue := List.replicate n (req0 .rd) }
/-- Format T with LEN 64 from local store 0 to context address 2^48 − 64, or the other way. -/
def tS : Nat := 64 * 2 ^ 16
def coreEdge (w : BitVec 128) (n r : Nat) : Core := { coreQ w n with p := (List.replicate 16 (0 : W64)).set r (BitVec.ofNat 64 (2 ^ 48 - 64)) }
def tR : Nat := 15 * 2 ^ 116 + tS
def tW : Nat := 15 * 2 ^ 112 + tS

/-- A step whose one sequence is a session of one landed page of a 16-channel binding, streamed or not. -/
def seq1 (stream : Bool) : SeqEnt := { decSeq 1 with t := 256, e := 256, stream := stream, stall := 1 }
def bind16 : BindRec := ⟨16, 16, 1, 1, 1, 1, 1⟩
def pte1 : Pte := { pteNone with valid := true, tier := 1, fmt := 1, frame := 7 }
def sess1 (e : Pte) : Session := { sesFree 1 with state := .active, tokens := 256, dir := { dirNone with ents := [(0, e)], tier := 1 } }
def dP : StepDesc := { d0 with seqCount := 1, lgCount := 1, ctx := 1, hbmShare := 1 }
def stepP (stream : Bool) : Step := { step0 dP with seqs := [seq1 stream] }
/-- STR.PAGE of page 0, LEN64 1. -/
def tP : Nat := 1 * 2 ^ 37
def atP (c : Core) (p : Step) (e : Pte) : State :=
  { onCore c p with ses := { tbl := [(1, sess1 e)], binds := [(256, bind16)] } }

/-- The page named, an address range, and room in the queue or not: what R84's clauses ask of STR.PAGE. -/
abbrev pageGood (s : State) (c : Core) (p : Step) (f : FmtP) (h m : Nat) (e : Pte) : Prop :=
  AtCore s 0 (.strPage f) c p ∧ pageFields f p ∧ s.pageNamed p f.seq.toNat f.lg.toNat f.page.toNat = .own h m e
  ∧ e.lost = false ∧ e.valid = true ∧ f.poff.toNat + 64 * f.len64.toNat ≤ pageBytes (s.stepBind p) e.fmt
  ∧ lsOk (c.addr f.pd f.doff.toNat) (64 * f.len64.toNat) = true

/-- `windowGood` for a page outside a segment. -/
theorem windowGood_none {s : State} {c : Core} {p : Step} {f : FmtP} {pg : PageAt} (h : segKey p f.seq.toNat f.lg.toNat pg = none) :
    windowGood s c p f pg := by intro k hk; simp [h] at hk
/-- `windowGood` for a page of a segment, by computation. -/
theorem windowGood_some {s : State} {c : Core} {p : Step} {f : FmtP} {pg : PageAt} {k : Nat} (h : segKey p f.seq.toNat f.lg.toNat pg = some k)
    (hb : c.windowBad p s k f.page.toNat = false) : windowGood s c p f pg := by
  intro j hj
  obtain rfl : k = j := by simpa [h] using hj
  simp only [Core.windowBad, Bool.or_eq_false_iff, decide_eq_false_iff_not] at hb
  refine ⟨fun m hm => ?_, by omega⟩
  have h1 := hb.1
  simpa [hm] using h1

/-- A page still arriving, of a streaming sequence. -/
def pteAway : Pte := { pte1 with copyPend := true }
/-- A ring step of two members, whose first chunk is the other member's and has landed or not. -/
def seqR : SeqEnt := { seq1 true with ringN := 2, chunkPages := 1, ringPos := 1, e := 256 }
def visit0 : VisitPage := { page := 0, fmt := 1, fill := 255, crc := 0, frame := 0, sent := false, done := false }
def stepR (v : List VisitPage) : Step :=
  { step0 dP with seqs := [seqR], ring := some { visits := [(1, v)], credits := 0, released := 0, sentRound := 0, frames := [] } }
/-- Sixteen cores of one cluster, each with a spread at the head of its queue. -/
def atSpread : State :=
  let c := { core0 [0, 0] with queue := [req0 .spread] }
  let p := { step0 dWhole with cores := List.range 16, quads := [0, 1, 2, 3] }
  { live0 with run := { cores := (List.range 16).map fun i => (i, { c with pos := i }), steps := [(0, p)] } }

theorem wit_StreamQueueOfACore_issue_read :
    ((coreEdge 0 7 15).queue.length < 8 ∧ lenGood (decT tR)
    ∧ AtCore (onCore (coreEdge (sw 0x22 tR) 7 15) (step0 d0)) 0 (.strRd (decT tR)) (coreEdge (sw 0x22 tR) 7 15) (step0 d0)
    ∧ lsOk (padd (coreEdge 0 7 15) (decT tR).pd (decT tR).doff).toNat 64 = true
    ∧ (padd (coreEdge 0 7 15) (decT tR).ps (decT tR).soff).toNat + 64 = 2 ^ 48) := by decide +kernel

theorem wit_StreamQueueOfACore_issue_write :
    (AtCore (onCore (coreEdge (sw 0x23 tW) 7 15) (step0 d0)) 0 (.strWr (decT tW)) (coreEdge (sw 0x23 tW) 7 15) (step0 d0)
    ∧ lsOk (padd (coreEdge 0 7 15) (decT tW).ps (decT tW).soff).toNat 64 = true
    ∧ (padd (coreEdge 0 7 15) (decT tW).pd (decT tW).doff).toNat + 64 = 2 ^ 48) := by decide +kernel

theorem wit_StreamQueueOfACore_issue_spread :
    (let s := onCore (coreEdge (sw 0x24 tR) 7 15) (step0 dWhole)
     AtCore s 0 (.strSpread (decT tR)) (coreEdge (sw 0x24 tR) 7 15) (step0 dWhole) ∧ (step0 dWhole).d.wholeCl = true
      ∧ ∀ e ∈ s.clusterCores 0, e.1 = 0) := by decide +kernel

theorem wit_StreamQueueOfACore_page_own :
    (pageGood (atP (core0 [sw 0x25 tP, 0]) (stepP false) pte1) (core0 [sw 0x25 tP, 0]) (stepP false) (decP tP) 1 0 pte1
    ∧ pte1.landed = true ∧ segKey (stepP false) 0 0 (.own 1 0 pte1) = none) := by decide +kernel

theorem wit_StreamQueueOfACore_page_arriving :
    (pageGood (atP (core0 [sw 0x25 tP, 0]) (stepP true) pteAway) (core0 [sw 0x25 tP, 0]) (stepP true) (decP tP) 1 0 pteAway
    ∧ pteAway.landed = false ∧ ((stepP true).seqs.getD 0 (decSeq 0)).stream = true
    ∧ segKey (stepP true) 0 0 (.own 1 0 pteAway) = some 0
    ∧ (core0 [sw 0x25 tP, 0]).windowBad (stepP true) (atP (core0 [sw 0x25 tP, 0]) (stepP true) pteAway) 0 0 = false) := by decide +kernel

theorem wit_StreamQueueOfACore_page_visiting :
    (let s := atP (core0 [sw 0x25 tP, 0]) (stepR [visit0]) pte1
     AtCore s 0 (.strPage (decP tP)) (core0 [sw 0x25 tP, 0]) (stepR [visit0]) ∧ pageFields (decP tP) (stepR [visit0])
      ∧ s.pageNamed (stepR [visit0]) 0 0 0 = .visiting 1 (some visit0)
      ∧ 64 ≤ pageBytes (s.stepBind (stepR [visit0])) visit0.fmt) := by decide +kernel

theorem wit_StreamQueueOfACore_full :
    (8 ≤ (coreEdge 0 8 15).queue.length
    ∧ AtCore (onCore (coreEdge (sw 0x22 tR) 8 15) (step0 d0)) 0 (.strRd (decT tR)) (coreEdge (sw 0x22 tR) 8 15) (step0 d0)
    ∧ AtCore (onCore (coreEdge (sw 0x23 tW) 8 15) (step0 d0)) 0 (.strWr (decT tW)) (coreEdge (sw 0x23 tW) 8 15) (step0 d0)
    ∧ AtCore (onCore (coreEdge (sw 0x24 tR) 8 15) (step0 dWhole)) 0 (.strSpread (decT tR)) (coreEdge (sw 0x24 tR) 8 15) (step0 dWhole)
    ∧ pageGood (atP (coreQ (sw 0x25 tP) 8) (stepP false) pte1) (coreQ (sw 0x25 tP) 8) (stepP false) (decP tP) 1 0 pte1) := by decide +kernel

theorem wit_StreamQueueOfACore_complete_read :
    (let c := { core0 [0, 0] with queue := [req0 .rd] }
     AtRequest (onCore c (step0 d0)) 0 c (step0 d0) (req0 .rd) ∧ (onCore c (step0 d0)).cbad 0 0 64 = none) := by decide +kernel

theorem wit_StreamQueueOfACore_complete_write :
    (let c := { core0 [0, 0] with queue := [req0 .wr] }
     AtRequest (onCore c (step0 d0)) 0 c (step0 d0) (req0 .wr) ∧ (onCore c (step0 d0)).uncopied 0 0 64 = []) := by decide +kernel

theorem wit_StreamQueueOfACore_complete_page :
    (let c := { core0 [0, 0] with queue := [req0 .page] }
     AtRequest (atP c (stepP false) pte1) 0 c (stepP false) (req0 .page)
      ∧ (atP c (stepP false) pte1).pageNamed (stepP false) 0 0 0 = .own 1 0 pte1 ∧ (atP c (stepP false) pte1).hbad pte1.frame 0 64 = none) := by decide +kernel

theorem wit_StreamQueueOfACore_complete_spread :
    (let p := { step0 dWhole with cores := List.range 16, quads := [0, 1, 2, 3] }
     let c := { core0 [0, 0] with queue := [req0 .spread] }
     AtRequest atSpread 0 c p (req0 .spread) ∧ (atSpread.clusterCores 0).length = 16
      ∧ (∀ e ∈ atSpread.clusterCores 0, e.2.step = 0 ∧ (e.2.queue.head?.map (·.kind)) = some .spread) ∧ atSpread.cbad 0 0 64 = none) := by decide +kernel

/-- R304, R310: a doorbell at cycle 0 of NCLK and a first operand at cycle 1000 are 400 ns apart. -/
theorem test_dispatchMax :
    (let s := onCore { core0 [0, 0] with queue := [req0 .rd] } { step0 d0 with door := some 0 }
     match exec (.streamRequestComplete 0 none) { s with dev := { s.dev with nclk := 1000 } } with
     | .next t => t.obj 0x5007 3 == 400 && (t.stp 0).any fun p => p.door.isNone
     | _ => false) = true := by decide +kernel

theorem wit_StreamQueueOfACore_pop :
    (coreQ 0 1).queue = [req0 .rd] := by decide +kernel

theorem wit_StreamQueueOfACore_windows :
    windowGood (atP (core0 [sw 0x25 tP, 0]) (stepP false) pte1) (core0 [sw 0x25 tP, 0]) (stepP false) (decP tP) (.own 1 0 pte1)
    ∧ windowGood (atP (core0 [sw 0x25 tP, 0]) (stepR [visit0]) pte1) (core0 [sw 0x25 tP, 0]) (stepR [visit0]) (decP tP) (.visiting 1 (some visit0)) :=
  ⟨windowGood_none (by decide +kernel), windowGood_some (k := 1) (by decide +kernel) (by decide +kernel)⟩


/-- Core 0 at the oldest request `r`; the first frame of its context is not yet copied by a cut. -/
def atUncopied : State :=
  { onCore { core0 [0, 0] with queue := [req0 .wr] } (step0 d0) with cks := { tbl := [(0, { ckptNone with state := 2, uncopied := [0] })] } }

theorem wit_StreamRequestsThatDoNotComplete :
    (let c := { core0 [0, 0] with queue := [req0 .rd] }
     AtRequest (onCore c (step0 d0)) 0 c (step0 d0) (req0 .rd) ∧ 63 < (req0 .rd).len)
    ∧ (let c := { core0 [0, 0] with queue := [req0 .wr] }
       AtRequest atUncopied 0 c (step0 d0) (req0 .wr) ∧ atUncopied.uncopied 0 0 64 ≠ []) := by decide +kernel

/-! ### Messages and remote operations -/

/-- Format M, LEN64 1, from P[0] to P[1] = 64 of position 0; the highest LEN64 of GET is 64. -/
def tM : Nat := 1 * 2 ^ 112 + 1 * 2 ^ 80
def tMr : Nat := tM + 2 ^ 101

theorem wit_RemoteOperations_put :
    let c := { core0 [sw 0x30 tMr, 0] with liens := 15 }
    let s := onCore c (step0 d0)
    c.liens < 16 ∧ s.coreTxn 0 = some 0 ∧ AtCore s 0 (.put (decM tMr)) c (step0 d0) ∧ (decM tMr).remote = true
      ∧ (decM tMr).len64.toNat ≠ 0 ∧ lsOk (padd c (decM tMr).ps (decM tMr).soff).toNat 64 = true := by decide +kernel
theorem wit_RemoteOperations_get :
    let n := tM + 63 * 2 ^ 80
    let c := core0 [sw 0x34 n, 0]
    AtCore (onCore c (step0 d0)) 0 (.get (decM n)) c (step0 d0) ∧ (decM n).len64.toNat = 64
      ∧ lsOk (padd c (decM n).ps (decM n).soff).toNat (64 * 64) = true := by decide +kernel
theorem wit_RemoteOperations_signal :
    let c := core0 [sw 0x32 tMr, 0]
    AtCore (onCore c (step0 d0)) 0 (.signal (decM tMr)) c (step0 d0) ∧ (decM tMr).remote = true := by decide +kernel
theorem wit_RemoteOperations_atom :
    let n := tM + 4 * 2 ^ 90
    let c := core0 [sw 0x35 n, 0]
    AtCore (onCore c (step0 d0)) 0 (.atom (decM n)) c (step0 d0) ∧ (decM n).aop.toNat = 4
      ∧ lsOk (padd c (decM n).ps (decM n).soff).toNat 16 = true := by decide +kernel
theorem wit_RemoteOperations_limit :
    let c := { core0 [sw 0x32 tMr, 0] with liens := 16 }
    let d := { core0 [sw 0x35 tM, 0] with liens := 16 }
    16 ≤ c.liens ∧ AtCore (onCore c (step0 d0)) 0 (.signal (decM tMr)) c (step0 d0) ∧ (decM tMr).remote = true
      ∧ AtCore (onCore d (step0 d0)) 0 (.atom (decM tM)) d (step0 d0) ∧ (decM tM).aop.toNat ≤ 4
      ∧ lsOk (padd d (decM tM).ps (decM tM).soff).toNat 16 = true := by decide +kernel
theorem wit_RemoteOperations_limitMoves :
    let c := { core0 [sw 0x30 tMr, 0] with liens := 16 }
    let d := { core0 [sw 0x34 tM, 0] with liens := 16 }
    16 ≤ c.liens ∧ AtCore (onCore c (step0 d0)) 0 (.put (decM tMr)) c (step0 d0) ∧ (decM tMr).remote = true ∧ (decM tMr).len64.toNat ≠ 0
      ∧ lsOk (padd c (decM tMr).ps (decM tMr).soff).toNat (64 * (decM tMr).len64.toNat) = true
      ∧ AtCore (onCore d (step0 d0)) 0 (.get (decM tM)) d (step0 d0) ∧ (decM tM).len64.toNat ≠ 0 ∧ (decM tM).len64.toNat ≤ 64
      ∧ lsOk (padd d (decM tM).ps (decM tM).soff).toNat (64 * (decM tM).len64.toNat) = true := by decide +kernel

theorem wit_CourseMessages_sent :
    AtCore (at0 (sw 0x30 tM)) 0 (.put (decM tM)) (core0 [sw 0x30 tM, 0]) (step0 d0) ∧ (decM tM).remote = false
    ∧ (decM tM).tpos.toNat < (step0 d0).cores.length ∧ (decM tM).len64.toNat ≠ 0
    ∧ AtCore (at0 (sw 0x31 (tM + 2 ^ 94))) 0 (.addput (decM (tM + 2 ^ 94))) (core0 [sw 0x31 (tM + 2 ^ 94), 0]) (step0 d0)
    ∧ (decM (tM + 2 ^ 94)).width.toNat = 1
    ∧ AtCore (at0 (sw 0x32 tM)) 0 (.signal (decM tM)) (core0 [sw 0x32 tM, 0]) (step0 d0)
    ∧ lsOk (padd (core0 []) (decM tM).ps (decM tM).soff).toNat 64 = true
    ∧ lsOk (padd (core0 []) (decM tM).pt (decM tM).toff).toNat 64 = true := by decide +kernel

/-- A step whose course carries a PUT and a SIGNAL from position 0 to itself. -/
def stepMsg : Step := { step0 d0 with msgs := [⟨0, 0, .put 64 [1]⟩, ⟨0, 0, .signal 7 3⟩] }
/-- A step whose oldest message is the SIGNAL. -/
def stepSig : Step := { step0 d0 with msgs := [⟨0, 0, .signal 7 3⟩] }

theorem wit_CourseMessages_delivered :
    (onCore (core0 [0, 0]) stepMsg).running 0 = some stepMsg
    ∧ takeMsg 0 0 stepMsg.msgs = some (⟨0, 0, .put 64 [1]⟩, [⟨0, 0, .signal 7 3⟩]) ∧ stepMsg.cores[0]? = some 0
    ∧ (onCore (core0 [0, 0]) stepMsg).core 0 = some (core0 [0, 0]) ∧ MsgBody.isSignal (.put 64 [1]) = false
    ∧ memWf (core0 [0, 0]).ls.mem = true ∧ takeMsg 0 0 stepSig.msgs = some (⟨0, 0, .signal 7 3⟩, [])
    ∧ (onCore (core0 [0, 0]) stepSig).running 0 = some stepSig ∧ MsgBody.isSignal (.signal 7 3) = true
    ∧ 7 < (core0 [0, 0]).sg.length := by decide +kernel

/-- WAIT SG[0] ≥ VALUE with bound 1: met at VALUE 0, unmet at VALUE 1. -/
def tWt (v : Nat) : Nat := v * 2 ^ 64 + 1 * 2 ^ 32
def coreWait (v till : Nat) : Core := { core0 [sw 0x33 (tWt v), 0] with ph := .waiting (decW (tWt v)) till }

theorem wit_Waits :
    (AtCore (at0 (sw 0x33 (tWt 0))) 0 (.wait (decW (tWt 0))) (core0 [sw 0x33 (tWt 0), 0]) (step0 d0)
      ∧ (decW (tWt 0)).sel.toNat ≠ 3 ∧ (decW (tWt 0)).bound.toNat ≠ 0 ∧ ((core0 []).met (decW (tWt 0))).isSome = true)
    ∧ (AtCore (at0 (sw 0x33 (tWt 1))) 0 (.wait (decW (tWt 1))) (core0 [sw 0x33 (tWt 1), 0]) (step0 d0)
      ∧ (core0 []).met (decW (tWt 1)) = none)
    ∧ ((onCore (coreWait 0 500001) (step0 d0)).core 0 = some (coreWait 0 500001)
      ∧ (onCore (coreWait 0 500001) (step0 d0)).running 0 = some (step0 d0)
      ∧ ((coreWait 0 500001).met (decW (tWt 0))).isSome = true ∧ (coreWait 0 500001).ip + 1 < (coreWait 0 500001).istore.length)
    ∧ ((onCore (coreWait 1 499999) (step0 d0)).running 0 = some (step0 d0) ∧ (coreWait 1 499999).met (decW (tWt 1)) = none
      ∧ (onCore (coreWait 1 499999) (step0 d0)).pastA 499999 = true)
    ∧ ((decW (tWt 0)).sel.toNat = 0 ∧ (decW (2 ^ 118)).sel.toNat = 1 ∧ (decW (2 ^ 119)).sel.toNat = 2) := by decide +kernel

/-! ### Common points, appends, posts -/

/-- A core at a barrier, and one at a PPOINT with the ranges of `f`. -/
def coreBar : Core := { core0 [sw 0x40 0, 0] with ph := .atBarrier, nsync := 1 }
def corePp : Core := { core0 [sw 0x41 0, 0] with ph := .atPpoint (decPp 0), nsync := 1 }

theorem wit_BarriersHoldAndRelease_reach :
    (AtCore (at0 (sw 0x40 0)) 0 .barrier (core0 [sw 0x40 0, 0]) (step0 d0)
      ∧ (at0 (sw 0x40 0)).reach (step0 d0) (core0 [sw 0x40 0, 0]) .barrier = some [.barrier])
    ∧ (AtCore (at0 (sw 0x41 256)) 0 (.ppoint (decPp 256)) (core0 [sw 0x41 256, 0]) (step0 d0)
      ∧ rangesOk (liveRanges (decPp 256)) = true
      ∧ (at0 (sw 0x41 256)).reach (step0 d0) (core0 [sw 0x41 256, 0]) .ppoint = some [.ppoint])
    ∧ (AtCore (at0 (sw 0x41 257)) 0 (.ppoint (decPp 257)) (core0 [sw 0x41 257, 0]) (step0 d0)
      ∧ rangesOk (liveRanges (decPp 257)) = false) := by decide +kernel
theorem wit_BarriersHoldAndRelease_release :
    (onCore coreBar (step0 d0)).running 0 = some (step0 d0) ∧ allAt (onCore coreBar (step0 d0)) (step0 d0) (· = .atBarrier) :=
  ⟨by decide +kernel, by decide +kernel, by decide +kernel, by decide +kernel⟩
theorem wit_BarriersHoldAndRelease_held :
    (onCore coreBar stepMsg).running 0 = some stepMsg ∧ stepMsg.msgs ≠ []
    ∧ (at0 0).running 0 = some (step0 d0) ∧ ∃ e ∈ (at0 0).cores (step0 d0), e.2.ph ≠ .atBarrier := by decide +kernel

theorem wit_PreemptionPoints :
    (onCore corePp (step0 d0)).running 0 = some (step0 d0) ∧ (allAt (onCore corePp (step0 d0)) (step0 d0) fun h => ∃ f, h = .atPpoint f)
    ∧ (∀ e ∈ (onCore corePp (step0 d0)).cores (step0 d0), e.2.queue = [] ∧ e.2.getOutside = false)
    ∧ corePp.ph = .atPpoint (decPp 0) ∧ inRanges (liveRanges (decPp 256)) 255 = true ∧ inRanges (liveRanges (decPp 256)) 256 = false := by
  have h1 : (onCore corePp (step0 d0)).cores (step0 d0) = [(0, corePp)] := by decide +kernel
  refine ⟨by decide +kernel, ⟨by decide +kernel, by decide +kernel, ?_⟩, by decide +kernel, by decide +kernel, by decide +kernel, by decide +kernel⟩
  intro e he
  rw [h1] at he
  obtain rfl := List.mem_singleton.mp he
  exact ⟨⟨decPp 0, rfl⟩, by decide +kernel⟩

theorem wit_PreemptionPoints_armed :
    let p := { step0 dP with lent := true }
    let s := { onCore corePp p with run := { (onCore corePp p).run with arms := [(1, ⟨2 ^ 40, false⟩)] } }
    s.running 0 = some p ∧ (∀ e ∈ s.cores p, e.2.queue = [] ∧ e.2.getOutside = false) ∧ p.lent = true ∧ s.armed p.ctx = true := by decide +kernel

/-- APND of one row of 16 channels, armed or written, of an appending step. -/
def tA (arm : Nat) : Nat := arm * 2 ^ 119 + 1 * 2 ^ 99 + 16 * 2 ^ 41
def stepA : Step := { step0 { dP with append := true } with seqs := [{ decSeq 1 with appendN := 1, t := 0, e := 1 }] }
def pteOpen : Pte := { pte1 with fill := 0 }

theorem wit_AppendsAndPosts_apnd :
    let c := core0 [sw 0x42 (tA 1), 0]
    let d := core0 [sw 0x42 (tA 0), 0]
    AtCore (atP c stepA pteOpen) 0 (.apndArm (decA (tA 1))) c stepA ∧ (atP c stepA pteOpen).apndBad stepA (decA (tA 1)) = none
    ∧ AtCore (atP d stepA pteOpen) 0 (.apndWrite (decA (tA 0))) d stepA ∧ (atP d stepA pteOpen).apndBad stepA (decA (tA 0)) = none
    ∧ lsOk (d.addr (decA (tA 0)).ps (decA (tA 0)).soff.toNat) (4 * 16 * 1) = true
    ∧ (atP d stepA pteOpen).apndWait stepA (decA (tA 0)) = none := by decide +kernel
theorem wit_AppendsAndPosts_post :
    let p := { step0 d0 with posts := List.replicate 15 ⟨0, 0, 0⟩ }
    let q := { step0 d0 with posts := List.replicate 16 ⟨0, 0, 0⟩ }
    let c := core0 [sw 0x43 0, 0]
    AtCore (onCore c p) 0 (.post (decPost 0)) c p ∧ p.posts.length < 16
    ∧ AtCore (onCore c q) 0 (.post (decPost 0)) c q ∧ 16 ≤ q.posts.length := by decide +kernel
theorem wit_AppendsAndPosts_bad :
    let c := core0 [sw 0x42 (2 ^ 119), 0]
    let d := core0 [sw 0x42 0, 0]
    AtCore (atP c stepA pteOpen) 0 (.apndArm (decA (2 ^ 119))) c stepA
    ∧ (atP c stepA pteOpen).apndBad stepA (decA (2 ^ 119)) = some stInstr ∧ (decA (2 ^ 119)).rows.toNat = 0
    ∧ AtCore (atP d stepA pteOpen) 0 (.apndWrite (decA 0)) d stepA ∧ (atP d stepA pteOpen).apndBad stepA (decA 0) = some stInstr := by
  decide +kernel

/-- A lent step at its WCET, its deadline and its PP_GAP. -/
def stepLim : Step := { step0 { d0 with wcet := 1, deadline := 1, ppGap := 1 } with executed := 2, gap := 2, lent := true }
/-- A core whose page request waits for a page that has not arrived. -/
def coreStall : Core := { core0 [0, 0] with queue := [req0 .page] }

theorem wit_StepsEnd_limits :
    (onCore (core0 [0, 0]) stepLim).live = true ∧ (onCore (core0 [0, 0]) stepLim).stp 0 = some stepLim ∧ stepLim.ph = .running
    ∧ (onCore (core0 [0, 0]) stepLim).pastCount stepLim.d.wcet.toNat stepLim.executed = true ∧ stepLim.d.deadline.toNat ≠ 0
    ∧ (onCore (core0 [0, 0]) stepLim).past (stepLim.release + stepLim.d.deadline.toNat) = true ∧ stepLim.lent = true
    ∧ (onCore (core0 [0, 0]) stepLim).pastCount stepLim.d.ppGap.toNat stepLim.gap = true ∧ tblWf (onCore (core0 [0, 0]) stepLim).run.steps = true := by decide +kernel
theorem wit_StepsEnd_stall :
    let p := { stepP true with stall := [(0, 0)] }
    let s := { atP coreStall p pteAway with dev := { dev0 with nclk := 2500001 } }
    s.live = true ∧ s.stp 0 = some p ∧ s.waitsOn p = [(0, coreStall, 0)] ∧ p.stallMs 0 = 1 ∧ tblFind p.stall 0 = some 0
    ∧ s.past (0 + p.stallMs 0 * 625000) = true := by decide +kernel
theorem wit_StepsEnd_credit :
    let p := { stepR [] with stall := [(creditKey, 0)] }
    let s := { atP (core0 [0, 0]) p pte1 with dev := { dev0 with nclk := 2500001 } }
    s.live = true ∧ s.stp 0 = some p ∧ p.ph = .running ∧ s.waitsOn p = [] ∧ p.awaitsCredit = true ∧ tblFind p.stall creditKey = some 0
    ∧ p.stallMs creditKey = 1 ∧ s.past (0 + p.stallMs creditKey * 625000) = true := by decide +kernel

/-! ### Entries in a submission ring -/

/-- Object element set in `live0`: index, subindex, row, column, value. -/
def withObjs (l : List (Nat × Nat × Nat × Nat × Nat)) (s : State) : State := l.foldl (fun t o => t.setObj o.1 o.2.1 o.2.2.1 o.2.2.2.1 o.2.2.2.2) s
/-- Context 1 enabled with pair 0, a handle block from 0, quotas, two quads of die 0 granted and one of them its reserve. -/
def op0 : State := withObjs [(0x5000, 1, 1, 0, 1), (0x5001, 1, 0, 0, 1), (0x3101, 1, 1, 1, 4096), (0x3102, 1, 1, 0, 64), (0x3106, 1, 1, 0, 4),
  (0x5002, 1, 1, 0, 3), (0x5002, 2, 1, 0, 2), (0x5002, 3, 1, 0, 1), (0x5005, 1, 0, 0, 100), (0x5006, 1, 1, 0, 1)] live0
/-- Queue pair 0: enabled, a completion ring of 16 entries in the site, one entry submitted. -/
def pair0 : Qp := { qpReset with want := true, enabled := true, cqInSite := true, cqLog2 := 4, sqTail := 1 }
/-- The host site with entry `e` at the head of ring 0. -/
def site0 (e : Nat) : Site :=
  { linkUp := true, resetting := false, qps := pair0 :: List.replicate 63 qpReset, rings := memWrite [] 0x100000 (leBytes 128 e) }
/-- `s` with entry `e` at the head of ring 0. -/
def ringed (s : State) (e : Nat) : State := { s with site := site0 e }
/-- A command entry of context 1, CQ 0, TAG 0: type and operand bits from W0 on. -/
def ent (code ops : Nat) : Nat := code + 1 * 2 ^ 8 + ops * 2 ^ 128
def h0 : CmdHdr := ⟨0, 0, 1⟩
/-- `s` with entry `e` taken from ring 0. -/
def took (s : State) (e : Nat) : State := (ringed s e).takeEntry 0 0

/-- Everything `Accepted` asks of ring 0, as one check. -/
def accB (s : State) (h : CmdHdr) (c : HostCmd) (hosts : List (Nat × Nat)) : Bool :=
  s.mayTake 0 (.cmd h c) && s.cqOk 0 (.cmd h c) && s.target 0 (.cmd h c) == 0 && s.evOk 0 h.ctx.toNat c
    && hosts.all (fun w => s.hostOk 0 w.1 w.2) && s.ctxOk 0 h.ctx.toNat

theorem acc_ok {s : State} {h : CmdHdr} {c : HostCmd} {hosts : List (Nat × Nat)} (ok : accB s h c hosts = true) :
    Accepted s (s.takeEntry 0 0) 0 0 h c hosts := by
  simp only [accB, Bool.and_eq_true, beq_iff_eq] at ok
  obtain ⟨⟨⟨⟨⟨h1, h2⟩, h3⟩, h4⟩, h5⟩, h6⟩ := ok
  exact ⟨⟨h1, h2, h3.symm, rfl⟩, h4, fun w hw => List.all_eq_true.mp h5 w hw, h6, by simp⟩

/-- An `Except` that succeeds. -/
def okE {α ε : Type} (x : Except ε α) : Bool := match x with | .ok _ => true | .error _ => false
theorem okE_of {α ε : Type} {x : Except ε α} (h : okE x = true) : ∃ v, x = .ok v := by
  cases x with
  | ok v => exact ⟨v, rfl⟩
  | error _ => simp [okE] at h
theorem errE_of {α ε : Type} {x : Except ε α} {e : ε} (h : (match x with | .error f => some f | .ok _ => none) = some e) :
    x = .error e := by
  cases x with
  | ok v => simp at h
  | error f => simpa using h

/-! ### Step descriptors -/

/-- A computing descriptor of one quad of context 1: class 1, PROG_LEN 1, HBM_SHARE 1, WCET 1. -/
def dE : Nat := 1 + 1 * 2 ^ 8 + 1 * 2 ^ 16 + 1 * 2 ^ 24 + 1 * 2 ^ 112 + 1 * 2 ^ 128 + 1 * 2 ^ 224
/-- The same as a decode step over one sequence, appending one token. -/
def dSeq : Nat := dE + 1 * 2 ^ 36 + 3 * 2 ^ 32 + 1 * 2 ^ 20 + 1 * 2 ^ 296 + 1 * 2 ^ 304 + 1 * 2 ^ 376
/-- Session 1 holds one open page with one token and counts two. -/
def opSeq : State :=
  { op0 with ses := { tbl := [(1, { sess1 { pte1 with fill := 1 } with state := .idle, tokens := 2 })], binds := [(256, bind16)]
                      cmem := memWrite [] (2 ^ 48) (leBytes 32 (1 + 2 ^ 24)) } }

/-- `Taken` for ring 0. -/
theorem taken_ok {s : State} {e : Entry} (h : (s.mayTake 0 e && s.cqOk 0 e && s.target 0 e == 0) = true) :
    Taken s (s.takeEntry 0 0) 0 0 e := by
  simp only [Bool.and_eq_true, beq_iff_eq] at h
  exact ⟨h.1.1, h.1.2, h.2.symm, rfl⟩

theorem wit_StepDescriptors_admitted :
    Taken (ringed op0 dE) (took op0 dE) 0 0 (.step (decDesc dE)) ∧ (decDesc dE).dver.toNat = 1
    ∧ ∃ v, ((took op0 dE).sweepNamed (decDesc dE)).admission 0 (decDesc dE)
        (((took op0 dE).sweepNamed (decDesc dE)).ctxOk 0 (decDesc dE).ctx.toNat) = .ok v :=
  ⟨taken_ok (by decide +kernel), by decide +kernel, okE_of (by decide +kernel)⟩
theorem wit_StepDescriptors_version :
    Taken (ringed op0 (dE + 1)) (took op0 (dE + 1)) 0 0 (.step (decDesc (dE + 1))) ∧ (decDesc (dE + 1)).dver.toNat ≠ 1 :=
  ⟨taken_ok (by decide +kernel), by decide +kernel⟩
theorem wit_StepDescriptors_rejected :
    let e := dE + 2048 * 2 ^ 112
    Taken (ringed op0 e) (took op0 e) 0 0 (.step (decDesc e)) ∧ (decDesc e).dver.toNat = 1
    ∧ ((took op0 e).sweepNamed (decDesc e)).admission 0 (decDesc e) (((took op0 e).sweepNamed (decDesc e)).ctxOk 0 (decDesc e).ctx.toNat)
      = .error (stDescField, false) :=
  ⟨taken_ok (by decide +kernel), by decide +kernel, errE_of (by decide +kernel)⟩
theorem wit_StepDescriptors_reservation :
    Taken (ringed opSeq dSeq) (took opSeq dSeq) 0 0 (.step (decDesc dSeq)) ∧ (decDesc dSeq).dver.toNat = 1
    ∧ ((took opSeq dSeq).sweepNamed (decDesc dSeq)).admission 0 (decDesc dSeq)
        (((took opSeq dSeq).sweepNamed (decDesc dSeq)).ctxOk 0 (decDesc dSeq).ctx.toNat) = .error (stAppendOverlap, true) :=
  ⟨taken_ok (by decide +kernel), by decide +kernel, errE_of (by decide +kernel)⟩
theorem wit_StepDescriptors_order :
    (decDesc 2).dver.toNat ≠ 1 ∧ (decDesc dE).dver.toNat = 1
    ∧ ((decDesc (dE + 2 ^ 18)).wholeCl = true ∧ descQuads (decDesc (dE + 2 ^ 18)) % 4 ≠ 0)
    ∧ ((decDesc (dE + 2048 * 2 ^ 112)).wholeCl = false ∧ descOk (decDesc (dE + 2048 * 2 ^ 112)) = false) := by decide +kernel

/-! ### Dispatch, periods, arms -/

/-- `op0` with the waiting step of descriptor `d`, its job with `own` reserved. -/
def waiting (d own : Nat) : State × Step :=
  let p := { step0 (decDesc d) with ph := .waiting, quads := [], cores := [], dies := [] }
  ({ op0 with run := { steps := [(0, p)], jobs := [(0, ⟨1, 0, 1, 0, 0, 0, 1, 1, false, false, true, [], 0, 1, 0, (if own = 0 then [] else [0]), [], 1⟩)]
                       nextStep := 1, nextJob := 1, nextOrder := 1, tokens := [(8, 1)] } }, p)
def dKs : Nat := dE - 1 * 2 ^ 16
def dPer : Nat := dE + 1 * 2 ^ 19 + 1000000 * 2 ^ 160

theorem wit_StepsAreDispatched_keystone :
    (waiting dKs 0).1.stp 0 = some (waiting dKs 0).2 ∧ (waiting dKs 0).1.mayDispatch (waiting dKs 0).2 = true
    ∧ (waiting dKs 0).1.slotOk 1 = true ∧ (waiting dKs 0).2.ks = true := by decide +kernel
theorem wit_StepsAreDispatched_periodic :
    (waiting dPer 1).1.stp 0 = some (waiting dPer 1).2 ∧ (waiting dPer 1).1.mayDispatch (waiting dPer 1).2 = true
    ∧ (waiting dPer 1).1.slotOk 1 = true ∧ (waiting dPer 1).2.ks = false ∧ (waiting dPer 1).2.d.periodic = true
    ∧ ((tblFind (waiting dPer 1).1.run.jobs (waiting dPer 1).2.jobId).map (·.resQuads)).getD [] = [0] ∧ [0] ≠ ([] : List Nat)
    ∧ (waiting dPer 1).1.shareMore (waiting dPer 1).2 [0] = true := by decide +kernel
theorem wit_StepsAreDispatched_ordinary :
    (waiting dE 0).1.stp 0 = some (waiting dE 0).2 ∧ (waiting dE 0).1.mayDispatch (waiting dE 0).2 = true
    ∧ (waiting dE 0).1.slotOk 1 = true ∧ (waiting dE 0).2.ks = false ∧ (waiting dE 0).2.d.periodic = false
    ∧ (waiting dE 0).1.chosenStep = some (0, (waiting dE 0).2) ∧ (waiting dE 0).1.place1 (waiting dE 0).2 [] = some ([0], false) := by
  decide +kernel
/-- The first step of a periodic job: no quad is reserved yet. -/
theorem wit_StepsAreDispatched_first :
    (waiting dPer 0).1.stp 0 = some (waiting dPer 0).2 ∧ (waiting dPer 0).1.mayDispatch (waiting dPer 0).2 = true
    ∧ (waiting dPer 0).1.slotOk 1 = true ∧ (waiting dPer 0).2.ks = false ∧ (waiting dPer 0).2.d.periodic = true
    ∧ ((tblFind (waiting dPer 0).1.run.jobs (waiting dPer 0).2.jobId).map (·.resQuads)).getD [] = []
    ∧ (waiting dPer 0).1.place1 (waiting dPer 0).2 ((waiting dPer 0).1.blocked 0) = some ([0], false) := by decide +kernel
theorem wit_StepsAreDispatched_cores :
    ((sortNat [1, 0]).flatMap fun q => [4 * q, 4 * q + 1, 4 * q + 2, 4 * q + 3])[7]? = some 7 := by decide +kernel

/-- A course that restores until now: its one core holds a lien settled with `st`. -/
def restoring (st : Nat) : State × Step :=
  let c := { core0 [0, 0] with liens := 1 }
  let p := { step0 d0 with ph := .restoring 500000 0, saved := [⟨c, [], [⟨0, .get, 0, 0, 0, 64, 0, some (st, 0)⟩], [], []⟩] }
  ({ live0 with run := { steps := [(0, p)] } }, p)

theorem wit_StepsAreDispatched_resumed :
    (restoring stOk).1.live = true ∧ (restoring stOk).1.stp 0 = some (restoring stOk).2 ∧ (restoring stOk).2.ph = .restoring 500000 0
    ∧ 500000 ≤ (restoring stOk).1.aclk ∧ (restoring stOk).2.restoreBad = none ∧ (∀ v ∈ (restoring stOk).2.saved, v.held = [])
    ∧ (restoring stOk).2.cores.Nodup ∧ ((restoring stOk).2.cores[0]?).isSome = true ∧ ((restoring stOk).2.saved[0]?).isSome = true
    ∧ (restoring stTimeout).1.stp 0 = some (restoring stTimeout).2 ∧ (restoring stTimeout).2.ph = .restoring 500000 0
    ∧ (((restoring stTimeout).2.restoreBad).map fun b => (b.2.1, b.2.2.1, b.2.2.2)) = some (0, 0, stTimeout) := by decide +kernel

/-- A periodic job whose release fell, with no step waiting, once more after `m` releases without one. -/
def released (m : Nat) (steps : Table Step) : State :=
  { op0 with run := { steps := steps, jobs := [(0, ⟨1, 0, 1, 0, 0, 250000, 1, 1, false, true, false, [], 0, 1, m, [0], [0], 1⟩)] } }

theorem wit_PeriodsAndRefills_releases :
    (released 0 []).live = true ∧ (∃ b, (released 0 []).jobOf 1 0 = some (0, b) ∧ b.periodic = true ∧ b.t0 + b.rel * b.period = (released 0 []).tick)
    ∧ (released 0 []).jobWaiting 0 = [] ∧ (released 0 (waiting dPer 1).1.run.steps).jobWaiting 0 ≠ []
    ∧ (∃ b, (released 1 []).jobOf 1 0 = some (0, b) ∧ 1 ≤ b.missed) :=
  ⟨by decide +kernel, ⟨_, rfl, by decide +kernel, by decide +kernel⟩, by decide +kernel, by decide +kernel, ⟨_, rfl, by decide +kernel⟩⟩
theorem wit_PeriodsAndRefills_refill :
    op0.live = true ∧ op0.run.refill < op0.tick / 62500 ∧ tblWf op0.run.tokens = true ∧ op0.ctxOn 1 = true := by decide +kernel

/-- The KEYSTONE ring with entry `e` at its head. -/
def ksRinged (e : Nat) : State :=
  { op0 with site := { site0 0 with qps := { pair0 with sqTail := 0 } :: List.replicate 63 qpReset, ks := ⟨true, 0, 0, 1, none⟩
                                    rings := memWrite [] 0x500000 (leBytes 128 e) } }

theorem wit_KeystoneArms_arm :
    Accepted (ringed op0 (ent 0xC0 1000000)) (took op0 (ent 0xC0 1000000)) 0 0 h0 (.keystoneArm 1000000) []
    ∧ (1000000 : BitVec 20).toNat = 1000000 := ⟨acc_ok (by decide +kernel), by decide +kernel⟩
theorem wit_KeystoneArms_zero :
    Accepted (ringed op0 (ent 0xC0 0)) (took op0 (ent 0xC0 0)) 0 0 h0 (.keystoneArm 0) [] ∧ (0 : BitVec 20).toNat = 0 :=
  ⟨acc_ok (by decide +kernel), by decide +kernel⟩
theorem wit_KeystoneArms_disarm :
    Accepted (ringed op0 (ent 0xC1 0)) (took op0 (ent 0xC1 0)) 0 0 h0 .keystoneDisarm [] := acc_ok (by decide +kernel)
theorem wit_KeystoneArms_expiry :
    let s := { op0 with run := { arms := [(1, ⟨249999, false⟩)] } }
    s.live = true ∧ tblFind s.run.arms 1 = some ⟨249999, false⟩ ∧ s.past 249999 = true ∧ tblWf s.run.arms = true := by decide +kernel

/-! ### Commands on sessions -/

theorem wit_CommandsAreCheckedInOrder :
    (let c := HostCmd.bindRemove 0
     let s := ringed op0 (ent 0x87 0 + 1 * 2 ^ 16)
     s.mayTake 0 (.cmd ⟨0, 1, 1⟩ c) = true ∧ s.target 0 (.cmd ⟨0, 1, 1⟩ c) = 0 ∧ s.cqOk 0 (.cmd ⟨0, 1, 1⟩ c) = false)
    ∧ (let c := HostCmd.sessionQuery 0 0
       let s := ringed op0 (ent 0x85 0)
       s.mayTake 0 (.cmd h0 c) = true ∧ s.cqOk 0 (.cmd h0 c) = true ∧ s.evOk 0 1 c = true ∧ ∃ w ∈ [((0 : Nat), 256)], s.hostOk 0 w.1 w.2 = false)
    ∧ (let c := HostCmd.bindRemove 0
       let s := ringed op0 (ent 0x87 0 + 1 * 2 ^ 8)
       s.mayTake 0 (.cmd ⟨0, 0, 2⟩ c) = true ∧ s.cqOk 0 (.cmd ⟨0, 0, 2⟩ c) = true ∧ s.evOk 0 2 c = true ∧ s.ctxOk 0 2 = false)
    ∧ (let c := HostCmd.bindRemove 0
       let s := ksRinged (ent 0x87 0)
       s.mayTake 64 (.cmd h0 c) = true ∧ s.cqOk 64 (.cmd h0 c) = true ∧ s.evOk 64 1 c = true ∧ s.ctxOk 64 1 = true ∧ ksCmd c = false) := by
  decide +kernel

theorem someE {α : Type} {x : Option α} (h : x.isSome = true) : ∃ v, x = some v := Option.isSome_iff_exists.mp h

/-- `op0` with session 1 as given, the 16-channel binding, and leases 0 (Tier 2, demoting to 1) and 1 (Tier 3) of 16 frames. -/
def leaseRec0 (tier dto : Nat) : LeaseRec := ⟨BitVec.ofNat 64 (2 ^ 48), 5, 16, 0, BitVec.ofNat 12 dto, 0, tier == 2, false, BitVec.ofNat 3 tier⟩
def lease0 (tier dto : Nat) : Lease := ⟨leaseRec0 tier dto, false, true, 0, [], 0, []⟩
def opS (x : Session) : State :=
  { op0 with ses := { tbl := [(1, x)], binds := [(256, bind16)], leases := [(4096, lease0 2 1), (4097, lease0 3 0)] } }
/-- Session 1 with its one landed page, in state `st`. -/
def sessIn (st : SState) : Session := { sess1 pte1 with state := st }
/-- `named` answers the session. -/
def namedB (s : State) (x : Session) : Bool := match (s.named 1 1).2 with | .ok y => y == x | .error _ => false
theorem named_of {s : State} {x : Session} (h : namedB s x = true) : (s.named 1 1).2 = .ok x := by
  unfold namedB at h
  cases hr : (s.named 1 1).2 with
  | ok y => rw [hr] at h; exact congrArg _ (by simpa using h)
  | error _ => rw [hr] at h; simp at h

/-- `op0` with an installed binding and no session. -/
def opB : State := { op0 with ses := { binds := [(256, bind16)] } }

theorem wit_SessionCommands_create :
    let e := ent 0x80 1
    let t := took opB e
    Accepted (ringed opB e) t 0 0 h0 (.sessionCreate 1 0 0 0) [] ∧ t.handleIn 1 1 = true ∧ t.sess 1 = none
    ∧ tblFind t.ses.migIn 1 = none ∧ t.islandUp 1 = true ∧ (tblFind t.ses.binds 256).isSome = true ∧ t.awakeFull = false
    ∧ ∃ r, t.dirFresh 1 0 = some r :=
  ⟨acc_ok (by decide +kernel), by decide +kernel, by decide +kernel, by decide +kernel, by decide +kernel, by decide +kernel,
    by decide +kernel, someE (by decide +kernel)⟩
theorem wit_SessionCommands_drop :
    let e := ent 0x81 1
    let s := opS (sessIn .idle)
    Accepted (ringed s e) (took s e) 0 0 h0 (.sessionDrop 1) [] ∧ ((took s e).named 1 1).2 = .ok (sessIn .idle)
    ∧ (sessIn .idle).stepPins = 0 ∧ (sessIn .idle).state = .idle :=
  ⟨acc_ok (by decide +kernel), named_of (by decide +kernel), rfl, rfl⟩
theorem wit_SessionCommands_release :
    let e := ent 0x83 1
    let x := { sesFree 1 with tomb := true }
    Accepted (ringed (opS x) e) (took (opS x) e) 0 0 h0 (.sessionRelease 1) [] ∧ (took (opS x) e).sess 1 = some x ∧ x.tomb = true :=
  ⟨acc_ok (by decide +kernel), by decide +kernel, rfl⟩

/-- SESSION_PIN of 64 indices up to the last, 16,383. -/
def tPin (set : Nat) : Nat := 1 + set * 2 ^ 24 + 16320 * 2 ^ 64 + 64 * 2 ^ 96
theorem wit_SessionCommands_pin :
    let s := opS (sessIn .idle)
    Accepted (ringed s (ent 0x84 (tPin 0))) (took s (ent 0x84 (tPin 0))) 0 0 h0 (.sessionPin 1 false 16320 64) []
    ∧ Accepted (ringed s (ent 0x84 (tPin 1))) (took s (ent 0x84 (tPin 1))) 0 0 h0 (.sessionPin 1 true 16320 64) []
    ∧ ((took s (ent 0x84 (tPin 1))).named 1 1).2 = .ok (sessIn .idle) ∧ (sessIn .idle).pins.length + (64 : W32).toNat ≤ 64
    ∧ (16320 : W32).toNat + (64 : W32).toNat = 16384 :=
  ⟨acc_ok (by decide +kernel), acc_ok (by decide +kernel), named_of (by decide +kernel), by decide +kernel, by decide +kernel⟩
/-- A host window of one unit for pair 0. -/
def windowed (s : State) (e : Nat) : State := { s with site := { site0 e with wins := [(0, ⟨true, 0, 1, 0⟩)] } }
theorem wit_SessionCommands_query :
    let s := windowed (opS (sessIn .idle)) (ent 0x85 (1 + 3840 * 2 ^ 64))
    Accepted s (s.takeEntry 0 0) 0 0 h0 (.sessionQuery 1 3840) [(3840, 256)] ∧ ((s.takeEntry 0 0).named 1 1).2 = .ok (sessIn .idle)
    ∧ (3840 : W64).toNat % 64 = 0 := ⟨acc_ok (by decide +kernel), named_of (by decide +kernel), by decide +kernel⟩
theorem wit_SessionCommands_truncate :
    let e := ent 0x82 (1 + 256 * 2 ^ 64)
    let s := opS (sessIn .idle)
    Accepted (ringed s e) (took s e) 0 0 h0 (.sessionTruncate 1 256) [] ∧ ((took s e).named 1 1).2 = .ok (sessIn .idle)
    ∧ (sessIn .idle).tokens = 256 ∧ (sessIn .idle).lostFirst = 0xFFFFFFFF ∧ ((took s e).named 1 1).1.tailOk (sessIn .idle) 256 = true
    ∧ (sessIn .idle).dir.tier = 1 := ⟨acc_ok (by decide +kernel), named_of (by decide +kernel), rfl, rfl, by decide +kernel, rfl⟩

/-! ### Bindings and adapters -/

def opA (a : Table Adapter) : State :=
  withObjs [(0x3107, 3, 1, 1, 16)] { op0 with ses := { binds := [(256, bind16)], adapters := a } }
/-- An adapter record of binding 0: number 15, version 1. -/
def adRec : AdapterRec := ⟨0, 0, 0, 0, 1, 0, 15, 1⟩
def ad0 : Adapter := ⟨1, 0, 0, [⟨0, ⟨0, 0, 0, 0, 0, 0, 15, 1⟩, true, 0, 0⟩]⟩

theorem wit_BindingsAndAdapters_install :
    let e := ent 0x86 (1 + bindNum bind16 * 2 ^ 128)
    Accepted (ringed opB e) (took opB e) 0 0 h0 (.bindInstall 1 bind16) [] ∧ bindOk bind16 = true
    ∧ tblFind (took opB e).ses.binds 257 = none ∧ tblCount (took opB e).ses.binds (fun j _ => j / 256 == 1) < (took opB e).obj 0x3106 1 1
    ∧ (took opB e).ses.binds.length < 1024 :=
  ⟨acc_ok (by decide +kernel), by decide +kernel, by decide +kernel, by decide +kernel, by decide +kernel⟩
theorem wit_BindingsAndAdapters_remove :
    let t := took opB (ent 0x87 0)
    Accepted (ringed opB (ent 0x87 0)) t 0 0 h0 (.bindRemove 0) [] ∧ (tblFind t.ses.binds 256).isSome = true
    ∧ tblAny t.ses.tbl (fun _ x => x.ctx == 1 && x.binding == 0 && x.state != .free) = false
    ∧ tblAny t.run.steps (fun _ p => p.d.ctx.toNat == 1 && p.d.binding.toNat == 0) = false :=
  ⟨acc_ok (by decide +kernel), by decide +kernel, by decide +kernel, by decide +kernel⟩
theorem wit_BindingsAndAdapters_adapterInstall :
    let e := ent 0x88 ((1 + 15 * 2 ^ 12 + 1 * 2 ^ 32) * 2 ^ 64)
    let t := took (opA [(4111, ad0)]) e
    Accepted (ringed (opA [(4111, ad0)]) e) t 0 0 h0 (.adapterInstall 0 adRec) [] ∧ t.adapterIn 1 15 = true
    ∧ (tblFind t.ses.binds 256).isSome = true ∧ tblFind t.ses.adapters 4111 = some ad0 ∧ ad0.binding = adRec.binding.toNat
    ∧ ad0.last < adRec.version.toNat ∧ ad0.vers.length < 4 :=
  ⟨acc_ok (by decide +kernel), by decide +kernel, by decide +kernel, by decide +kernel, by decide +kernel, by decide +kernel, by decide +kernel⟩
theorem wit_BindingsAndAdapters_adapterRemove :
    let t := took (opA [(4111, ad0)]) (ent 0x89 15)
    Accepted (ringed (opA [(4111, ad0)]) (ent 0x89 15)) t 0 0 h0 (.adapterRemove 15) [] ∧ tblFind t.ses.adapters 4111 = some ad0
    ∧ t.adapterIn 1 15 = true ∧ ad0.cur.isSome = true :=
  ⟨acc_ok (by decide +kernel), by decide +kernel, by decide +kernel, by decide +kernel⟩

/-! ### Parking and revival -/

/-- PARK of session 1 to PK8 in lease 0, expiry DEMOTE, with its directory. -/
def tPark : Nat := 1 + 13 * 2 ^ 24 + 1 * 2 ^ 40 + 1 * 2 ^ 43
theorem wit_ParkingAndRevival_park :
    let e := ent 0x90 tPark
    let s := opS (sessIn .idle)
    let t := took s e
    Accepted (ringed s e) t 0 0 h0 (.park 1 13 0 1 false true 0) [] ∧ (t.named 1 1).2 = .ok (sessIn .idle) ∧ isParkFmt 13 = true
    ∧ bit ((t.named 1 1).1.sbind (sessIn .idle)).parkMask.toNat 0 = true ∧ (t.named 1 1).1.parkLeaseOk 1 0 1 false = true
    ∧ ∃ r, ((t.named 1 1).1.unhold 1).takeMove 1 0 (((t.named 1 1).1.unhold 1).parkPages ((((t.named 1 1).1.unhold 1).sess 1).getD (sessIn .idle)) 13)
        (some (extentFrames ((((t.named 1 1).1.unhold 1).sess 1).getD (sessIn .idle)).dir)) = some r :=
  ⟨acc_ok (by decide +kernel), named_of (by decide +kernel), by decide +kernel, by decide +kernel, by decide +kernel, someE (by decide +kernel)⟩

/-- Session 1 PARKED: its page in lease 0, its directory in Tier 1. -/
def pteParked : Pte := { pte1 with tier := 2, fmt := 13, frame := 0 }
def sessParked : Session := { sess1 pteParked with state := .parked }
theorem wit_ParkingAndRevival_revive :
    let t := took (opS sessParked) (ent 0x91 1)
    let u := took (opS sessParked) (ent 0x92 1)
    Accepted (ringed (opS sessParked) (ent 0x91 1)) t 0 0 h0 (.revive 1 false) [] ∧ (t.named 1 1).2 = .ok sessParked ∧ sessParked.pdir = none
    ∧ (∃ v, (t.named 1 1).1.reviveAccept 1 false false = .ok v)
    ∧ Accepted (ringed (opS sessParked) (ent 0x92 1)) u 0 0 h0 (.reviveHint 1 false) [] ∧ ∃ v, (u.named 1 1).1.reviveAccept 1 false true = .ok v :=
  ⟨acc_ok (by decide +kernel), named_of (by decide +kernel), rfl, okE_of (by decide +kernel), acc_ok (by decide +kernel), okE_of (by decide +kernel)⟩
theorem wit_ParkingAndRevival_ttl :
    let e := ent 0x93 (1 + 1 * 2 ^ 40)
    let t := took (opS sessParked) e
    Accepted (ringed (opS sessParked) e) t 0 0 h0 (.ttlSet 1 1 0) [] ∧ (t.named 1 1).2 = .ok sessParked
    ∧ dirCopyLease sessParked.dir = some 0 ∧ (t.named 1 1).1.leaseOk 1 0 = true ∧ (t.named 1 1).1.lease 1 0 = some (lease0 2 1)
    ∧ (lease0 2 1).rcd.tier.toNat = 2 ∧ (lease0 2 1).rcd.demoteEn = true :=
  ⟨acc_ok (by decide +kernel), named_of (by decide +kernel), by decide +kernel, by decide +kernel, by decide +kernel, by decide +kernel, by decide +kernel⟩
theorem wit_ParkingAndRevival_later :
    (let x := { sessIn .parking with parkPend := true }
     (opS x).live = true ∧ (opS x).plinthDown = false ∧ (opS x).sess 1 = some x ∧ x.state = .parking ∧ x.parkPend = true
     ∧ x.parkAt < (opS x).dev.nclk)
    ∧ (let x := { sessIn .idle with pdir := some sessParked.dir, move := { moveNone with held := true } }
       let s := { opS x with dev := { dev0 with nclk := 2 ^ 60 } }
       s.live = true ∧ s.sess 1 = some x ∧ x.state = .idle ∧ x.move.held = true ∧ x.parkAt < s.dev.nclk
       ∧ s.past (x.move.start + s.obj 0x310B 1 x.ctx * 625000) = true)
    ∧ (let x := { sessParked with ttlDeadline := 249999, expiry := 1 }
       (opS x).sess 1 = some x ∧ x.state = .parked ∧ x.demoting = false ∧ x.mig = .none ∧ (opS x).past x.ttlDeadline = true)
    ∧ (let x := { sessParked with ttlDeadline := 249999 }
       (opS x).sess 1 = some x ∧ x.state = .parked ∧ x.demoting = false ∧ x.mig = .none ∧ (opS x).past x.ttlDeadline = true ∧ x.expiry ≠ 1) := by decide +kernel

/-! ### Page movers -/

/-- What mover 15 takes next in `s`, where context 1 has the turn. -/
abbrev nextIs (s : State) (it : MoverItem) : Prop :=
  s.live = true ∧ s.quiescing = false ∧ tblFind s.ses.movers 15 = none
  ∧ s.fqPick 2 (s.ctxs.filter fun c => !((s.moverItems c).filter fun i => i.2.2.2.free || decide (0 < s.tok c 1)).isEmpty && s.slotOk c) = some 1
  ∧ (firstItem ((s.moverItems 1).filter fun i => i.2.2.2.free || decide (0 < s.tok 1 1))).map (·.2.2.2) = some it
/-- `opS` with tokens for bytes. -/
def opM (x : Session) (st : List MoverJob) : State :=
  { opS x with run := { tokens := [(9, 1)] }, ses := { (opS x).ses with staged := st } }

theorem wit_PageMovers_stage :
    nextIs (opM (sessIn .reviving) [⟨1, 0, false, true, []⟩]) (.stage ⟨1, 0, false, true, []⟩)
    ∧ nextIs (opM { sessIn .parked with demoting := true } [⟨1, 0, false, false, [0]⟩]) (.stage ⟨1, 0, false, false, [0]⟩) := by decide +kernel
theorem wit_PageMovers_park :
    nextIs (opM { sessIn .parking with runs := [(0, 0)], move := { moveNone with kind := 1 } } []) (.park 1 0)
    ∧ nextIs (opM { sessIn .parking with dirRun := some 0, move := { moveNone with kind := 1 } } []) (.park 1 dirIdx) := by decide +kernel
theorem wit_PageMovers_send : nextIs (opM { sessIn .migrating with mig := .sending } []) (.send 1 0) := by decide +kernel
theorem wit_PageMovers_drain :
    nextIs { opM (sessIn .idle) [] with cks := { tbl := [(1, { ckptNone with state := 3 })] } } (.drain 1 0) := by decide +kernel
/-! ### Migration -/

/-- Context 1 joined with device 9 as its context 3; device 9 stands at node 7. -/
def joined (s : State) : State :=
  { s with sec := { ctx := [(1, ⟨0, 0, 0, 0, 0, [(9, 3)]⟩)] }, fab := { s.fab with map := ⟨1, [(9, ⟨1, false, 7⟩)], [], []⟩ } }

theorem wit_Migration_migrate :
    let e := ent 0x94 (1 + 9 * 2 ^ 24 + 2 * 2 ^ 64)
    let s := joined (opS (sessIn .idle))
    Accepted (ringed s e) (took s e) 0 0 h0 (.migrate 1 9 2) [] ∧ ((took s e).named 1 1).2 = .ok (sessIn .idle)
    ∧ (((took s e).named 1 1).1.peerCtx 1 9).isSome = true := ⟨acc_ok (by decide +kernel), named_of (by decide +kernel), by decide +kernel⟩
theorem wit_Migration_migrateIn :
    let e := ent 0x95 (2 + 9 * 2 ^ 24 + 5 * 2 ^ 64)
    let s := opS (sessIn .idle)
    Accepted (ringed s e) (took s e) 0 0 h0 (.migrateIn 2 9 0 false 5) [] ∧ (took s e).inHandle 1 2 = stOk ∧ tblFind (took s e).ses.migIn 2 = none :=
  ⟨acc_ok (by decide +kernel), by decide +kernel, by decide +kernel⟩
theorem wit_Migration_cancel :
    let e := ent 0x95 (2 + 9 * 2 ^ 24 + 1 * 2 ^ 46 + 5 * 2 ^ 64)
    let s := { opS (sessIn .idle) with ses := { migIn := [(2, ⟨1, 9, 5, 0⟩)] } }
    Accepted (ringed s e) (took s e) 0 0 h0 (.migrateIn 2 9 0 true 5) [] ∧ (took s e).inHandle 1 2 = stOk
    ∧ tblFind (took s e).ses.migIn 2 = some ⟨1, 9, 5, 0⟩ := ⟨acc_ok (by decide +kernel), by decide +kernel, by decide +kernel⟩

/-- Session 1 in phase `ph` with one message in the inbox. -/
def inboxed (ph : MigPh) (m : MigMsg) : State × Session :=
  let x := { sessIn .migrating with mig := ph, migDeadline := 250000 }
  ({ opS x with ses := { (opS x).ses with inbox := [(7, 1, migBytes m)] } }, x)
/-- The inbox holds `m`, from node 7 for context 1. -/
def heldB (s : State) (m : MigMsg) : Bool := match s.takeMsg m with | some (7, 1, _) => true | _ => false
theorem held_of {s : State} {m : MigMsg} (h : heldB s m = true) : ∃ t, s.takeMsg m = some (7, 1, t) := by
  unfold heldB at h
  split at h
  · exact ⟨_, by assumption⟩
  · simp at h
theorem wit_Migration_messages :
    ((inboxed .offered (.accept 1)).1.live = true ∧ (inboxed .offered (.accept 1)).1.plinthDown = false
      ∧ (inboxed .offered (.accept 1)).1.sess 1 = some (inboxed .offered (.accept 1)).2
      ∧ (∃ t, (inboxed .offered (.accept 1)).1.takeMsg (.accept 1) = some (7, 1, t)) ∧ (inboxed .offered (.accept 1)).2.mig = .offered)
    ∧ (∃ t, (inboxed .offered (.refuse 1 (3 : BitVec 16).toNat)).1.takeMsg (.refuse 1 (3 : BitVec 16).toNat) = some (7, 1, t))
    ∧ ((∃ t, (inboxed .sentLast (.ready 1)).1.takeMsg (.ready 1) = some (7, 1, t)) ∧ (inboxed .sentLast (.ready 1)).2.mig = .sentLast)
    ∧ ((∃ t, (inboxed .inReady (.release 1)).1.takeMsg (.release 1) = some (7, 1, t)) ∧ (inboxed .inReady (.release 1)).2.mig = .inReady)
    ∧ ((∃ t, (inboxed .inReceiving (.abort 1)).1.takeMsg (.abort 1) = some (7, 1, t)) ∧ (inboxed .inReceiving (.abort 1)).2.mig = .inReceiving)
    ∧ (inboxed .offered (.abort 0)).2.migDeadline ≤ (inboxed .offered (.abort 0)).1.tick :=
  ⟨⟨by decide +kernel, by decide +kernel, by decide +kernel, held_of (by decide +kernel), rfl⟩, held_of (by decide +kernel),
    ⟨held_of (by decide +kernel), rfl⟩, ⟨held_of (by decide +kernel), rfl⟩, ⟨held_of (by decide +kernel), rfl⟩, by decide +kernel⟩

/-- An OFFER of a session of one page, to handle 2. -/
def offer0 : Offer :=
  { srcDev := 9, srcHandle := 5, dstHandle := 2, ctx := 1, parked := false, homeDie := 0, binding := 0, rcd := bind16, total := 1, tokens := 1, ttlLeft := 0,
    ttlMs := 0, expiry := 0, parkFmt := 0, dual := false, dirTier := 1, dirRoot := 0, dirDepth := 0, leaves := [0], pins := [],
    pages := [⟨0, 1, 0, 1, 255, 0, 0, false, false⟩], leases := [] }
def offered (m : Table MigIn) : State :=
  joined { opB with ses := { binds := [(256, bind16)], migIn := m, inbox := [(7, 1, migBytes (.offer offer0))] } }
theorem wit_Migration_offer :
    (∃ t u v, (offered [(2, ⟨1, 9, 5, 0⟩)]).takeMsg (.offer offer0) = some (7, 1, t) ∧ t.migAccept offer0 = .ok u
      ∧ u.migSend 1 9 2 (.accept 5) [] = .ok v)
    ∧ ∃ t v, (offered []).takeMsg (.offer offer0) = some (7, 1, t) ∧ t.migAccept offer0 = .error stMigrateRefused
      ∧ (tblFind t.ses.migIn 2).isNone = true ∧ t.migSend 1 9 2 (.refuse 5 stMigrateRefused) [] = .ok v := by
  have h1 : (match (offered [(2, ⟨1, 9, 5, 0⟩)]).takeMsg (.offer offer0) with
      | some (7, 1, t) => (match t.migAccept offer0 with | .ok u => okE (u.migSend 1 9 2 (.accept 5) []) | .error _ => false)
      | _ => false) = true := by decide +kernel
  have h2 : (match (offered []).takeMsg (.offer offer0) with
      | some (7, 1, t) => (match t.migAccept offer0 with
        | .ok _ => false | .error e => e == stMigrateRefused && (tblFind t.ses.migIn 2).isNone && okE (t.migSend 1 9 2 (.refuse 5 stMigrateRefused) []))
      | _ => false) = true := by decide +kernel
  constructor
  · split at h1
    · rename_i t ht
      split at h1
      · rename_i u hu
        obtain ⟨v, hv⟩ := okE_of h1
        exact ⟨t, u, v, ht, hu, hv⟩
      · simp at h1
    · simp at h1
  · split at h2
    · rename_i t ht
      split at h2
      · simp at h2
      · rename_i e he
        simp only [Bool.and_eq_true, beq_iff_eq] at h2
        obtain ⟨v, hv⟩ := okE_of h2.2
        exact ⟨t, v, ht, h2.1.1 ▸ he, h2.1.2, hv⟩
    · simp at h2

/-- The handle waits for the offer, but the binding it names is not installed: refused, and the hold ends. -/
def offerBad : State := { offered [(2, ⟨1, 9, 5, 0⟩)] with ses := { (offered [(2, ⟨1, 9, 5, 0⟩)]).ses with binds := [] } }
theorem wit_Migration_refused :
    offerBad.live = true ∧ offerBad.plinthDown = false ∧ ∃ t st v, offerBad.takeMsg (.offer offer0) = some (7, 1, t) ∧ t.migAccept offer0 = .error st
      ∧ ((tblFind t.ses.migIn 2).any fun m => m.ctx == 1 && m.srcDev == 9 && m.srcHandle == 5) = true
      ∧ (t.modSes fun g => { g with migIn := tblDel g.migIn 2 }).migSend 1 9 2 (.refuse 5 st) [] = .ok v := by
  have h : (match offerBad.takeMsg (.offer offer0) with
      | some (7, 1, t) => (match t.migAccept offer0 with
        | .ok _ => false | .error e => ((tblFind t.ses.migIn 2).any fun m => m.ctx == 1 && m.srcDev == 9 && m.srcHandle == 5)
          && okE ((t.modSes fun g => { g with migIn := tblDel g.migIn 2 }).migSend 1 9 2 (.refuse 5 e) []))
      | _ => false) = true := by decide +kernel
  refine ⟨by decide +kernel, by decide +kernel, ?_⟩
  split at h
  · rename_i t ht
    split at h
    · simp at h
    · rename_i e he
      rw [Bool.and_eq_true] at h
      obtain ⟨v, hv⟩ := okE_of h.2
      exact ⟨t, e, v, ht, he, h.1, hv⟩
  · simp at h

/-! ### Leases, scrub, patrol -/

/-- `opS` with room for leases, and lease 2 as given. -/
def opL (l : Table Lease) : State := withObjs [(0x3109, 1, 1, 0, 4)] { opS (sessIn .idle) with ses := { tbl := [(1, sessIn .idle)], leases := l } }
/-- A record of four frames, pairing with lease `p` when `en`. -/
def leaseRec4 (dev p : Nat) (en : Bool) : LeaseRec := ⟨BitVec.ofNat 64 (dev * 2 ^ 48), 5, 4, BitVec.ofNat 12 p, 0, 0, false, en, 2⟩
def entLease (l : Nat) (r : LeaseRec) : Nat := ent 0x96 (l + leaseNum r * 2 ^ 64)

theorem wit_Leases_set :
    let e := entLease 0 (leaseRec4 1 0 false)
    let t := took (opL []) e
    Accepted (ringed (opL []) e) t 0 0 h0 (.leaseSet 0 0 (leaseRec4 1 0 false)) [] ∧ t.leaseSetOk 1 0 (leaseRec4 1 0 false) = true
    ∧ (leaseRec4 1 0 false).partnerEn = false
    ∧ ∃ r, (t.leaveBitmap 1 0).unitsAlloc 1 (t.leaveBitmap 1 0).lowDie .lease (((leaseRec4 1 0 false).len.toNat + 32767) / 32768) = some r :=
  ⟨acc_ok (by decide +kernel), by decide +kernel, rfl, someE (by decide +kernel)⟩
/-- A lease that names a partner which does not name it. -/
theorem wit_Leases_half :
    let y : Lease := ⟨leaseRec4 2 5 true, false, true, 0, [], 0, []⟩
    let r := leaseRec4 1 1 true
    let e := entLease 0 r
    let t := took (opL [(4097, y)]) e
    Accepted (ringed (opL [(4097, y)]) e) t 0 0 h0 (.leaseSet 0 0 r) [] ∧ t.leaseSetOk 1 0 r = true ∧ r.partnerEn = true
    ∧ (t.leaveBitmap 1 0).lease 1 1 = some y ∧ ¬(y.rcd.partnerEn = true ∧ y.rcd.partner.toNat = 0)
    ∧ ∃ a, (t.leaveBitmap 1 0).unitsAlloc 1 (t.leaveBitmap 1 0).lowDie .lease ((r.len.toNat + 32767) / 32768) = some a :=
  ⟨acc_ok (by decide +kernel), by decide +kernel, by decide +kernel, by decide +kernel, by decide +kernel, someE (by decide +kernel)⟩
theorem wit_Leases_pair :
    let y : Lease := ⟨leaseRec4 2 0 true, false, true, 0, [], 0, []⟩
    let r := leaseRec4 1 1 true
    let e := entLease 0 r
    let t := took (opL [(4097, y)]) e
    Accepted (ringed (opL [(4097, y)]) e) t 0 0 h0 (.leaseSet 0 0 r) [] ∧ t.leaseSetOk 1 0 r = true ∧ r.partnerEn = true
    ∧ (t.leaveBitmap 1 0).lease 1 1 = some y ∧ y.rcd.partnerEn = true ∧ y.rcd.partner.toNat = 0 :=
  ⟨acc_ok (by decide +kernel), by decide +kernel, by decide +kernel, by decide +kernel, by decide +kernel, by decide +kernel⟩
theorem wit_Leases_clear :
    let y : Lease := ⟨leaseRec4 1 0 false, false, true, 0, [], 0, []⟩
    let z : Lease := { y with lost := true }
    let t := took (opL [(4096, y)]) (ent 0x97 0)
    let u := took (opL [(4096, z)]) (ent 0x97 0)
    Accepted (ringed (opL [(4096, y)]) (ent 0x97 0)) t 0 0 h0 (.leaseClear 0) [] ∧ t.lease 1 0 = some y ∧ y.used = 0 ∧ t.paired 1 0 = none
    ∧ tblFind t.cks.tbl 1 = none
    ∧ Accepted (ringed (opL [(4096, z)]) (ent 0x97 0)) u 0 0 h0 (.leaseClear 0) [] ∧ u.lease 1 0 = some z :=
  ⟨acc_ok (by decide +kernel), by decide +kernel, by decide +kernel, by decide +kernel, by decide +kernel, acc_ok (by decide +kernel), by decide +kernel⟩
theorem wit_Leases_lost :
    let y : Lease := ⟨leaseRec4 1 0 false, false, true, 0, [], 0, []⟩
    let t := took (opL [(4096, y)]) (ent 0x98 0)
    Accepted (ringed (opL [(4096, y)]) (ent 0x98 0)) t 0 0 h0 (.leaseLost 0) [] ∧ t.leaseOk 1 0 = true := ⟨acc_ok (by decide +kernel), by decide +kernel⟩
theorem wit_Leases_sweep :
    ((opS (sessIn .idle)).live = true ∧ ((opS (sessIn .idle)).sweepSess 1).sess 1 = some (sessIn .idle) ∧ (sessIn .idle).pdir = none)
    ∧ (let x := { sessIn .reviving with pdir := some sessParked.dir }
       ((opS x).sweepSess 1).sess 1 = some x ∧ x.pdir.isSome = true ∧ x.move.suspended = false) := by decide +kernel

theorem wit_ScrubAndPatrol :
    (let s := { op0 with ses := { dirtyFrames := [(7, ())] } }
     s.live = true ∧ (tblFind s.ses.dirtyFrames 7).isSome = true) ∧ 12884901887 < 4 * 98304 * 32768 := by decide +kernel

/-! ### The line fabric -/

/-- A port that is up on four lanes. -/
def portUp : Port := { portReset with state := 2, lanes := 15, credits := vcBuffers }
/-- The device as node 0, identity 0, with every port as given and a map that owns its own identity. -/
def fabP (x : Port) : Fab := { node := 0, ownId := 0, named := true, ports := List.replicate 18 x, map := ⟨1, [(0, ⟨1, false, 0⟩)], [], []⟩ }
def opF : State := { op0 with fab := fabP portUp }
/-- 3,872 zeros, which are a PK3 page of the 16-channel binding, and their CRC-32C. -/
def zerosP : List Byte := List.replicate 3872 0
def crcP : W32 := crc32c zerosP
theorem hread_zeros (s : State) (n : Nat) (h : s.ses.hbm = []) : s.hread n 0 3872 = zerosP := by
  unfold State.hread zerosP
  rw [h]
  have z : ∀ (n a : Nat), memRead [] a n = List.replicate n 0 := by
    intro n
    induction n with
    | zero => intro a; rfl
    | succ n ih => intro a; simp only [memRead, List.replicate_succ, ih]; rfl
  exact z _ _
/-- FIPS 180-4: SHA-512 of "abc" begins DD AF 35 A1 93 61 7A BA. -/
theorem test_sha512_abc : leBytes 8 (Config.sha512 [0x61, 0x62, 0x63]).toNat = [0xDD, 0xAF, 0x35, 0xA1, 0x93, 0x61, 0x7A, 0xBA] := by decide +kernel

/-- Session 1 in a park whose one page, of zeros in PK3, is to go to frame 0 of lease 0, which node 7 serves. -/
def sessLeaving : Session :=
  { sess1 { pte1 with fmt := 15, crc := crcP } with state := .parking, runs := [(0, 0)], move := { moveNone with kind := 1, pfmt := 15 } }
def opLeaving : State := { opM sessLeaving [] with fab := { fabP portUp with map := ⟨1, [(1, ⟨1, false, 7⟩)], [], []⟩ } }
theorem wit_PageMovers_leaves :
    let x := sessLeaving
    let s := opLeaving
    nextIs s (.park 1 0) ∧ (0 ≠ dirIdx) ∧ s.sess 1 = some x ∧ tblFind x.runs 0 = some 0 ∧ x.move.dual = false ∧ x.move.kind = 1
    ∧ pageBytes (s.sbind x) (x.dir.ent 0).fmt = 3872
    ∧ (s.hbad (x.dir.ent 0).frame 0 3872 = none ∧ crc32c (s.hread (x.dir.ent 0).frame 0 3872) = (x.dir.ent 0).crc
      ∧ parkFmtOf x.move.pfmt (x.dir.ent 0) = (x.dir.ent 0).fmt)
    ∧ s.lease x.ctx x.move.lease = some (lease0 2 1) ∧ (lease0 2 1).valid = true ∧ (lease0 2 1).lost = false
    ∧ s.idOk (leaseAddr (lease0 2 1) 0) = true ∧ (s.ownerOf (leaseAddr (lease0 2 1) 0)).isSome = true := by
  refine ⟨by decide +kernel, by decide +kernel, rfl, by decide +kernel, by decide +kernel, by decide +kernel, by decide +kernel,
    ⟨by decide +kernel, ?_, by decide +kernel⟩, by decide +kernel, by decide +kernel, by decide +kernel, by decide +kernel, by decide +kernel⟩
  rw [hread_zeros _ _ rfl]
  rfl
/-- Session 1 in a revival whose one page lies in PK3 in frame 0 of lease 0; the copy that mover 15 holds. -/
def sessLanding : Session :=
  { sess1 { pte1 with fmt := 15, copyPend := true } with
    state := .reviving, pdir := some { dirNone with ents := [(0, { pte1 with tier := 2, fmt := 15, frame := 0, crc := crcP })], tier := 1 } }
def aadLanding : List Byte := sealAad 0 0 0 15 0 crcP 0
def copyLanding : List Byte := sealCopy 0 1 aadLanding zerosP
def opLanding : State :=
  { opS sessLanding with ses := { (opS sessLanding).ses with movers := [(15, ⟨1, 0, false, true, copyLanding⟩)] } }
theorem wit_PageMovers_lands :
    let x := sessLanding
    let s := opLanding
    let j : MoverJob := ⟨1, 0, false, true, copyLanding⟩
    s.live = true ∧ s.plinthDown = false ∧ tblFind s.ses.movers 15 = some j ∧ tblWf s.ses.movers = true ∧ s.sess 1 = some x ∧ s.slotOk x.ctx = true
    ∧ ∃ d, x.pdir = some d ∧ (x.dir.ent 0).copyPend = true
      ∧ (let p := s.readPte x.ctx (d.ent 0)
         p.valid = true ∧ openCopy (s.parkKey x.ctx) (s.pageAad x 0 (frameOff p.frame) p.fmt p.fill p.crc p.gen) j.data = some zerosP
         ∧ crc32c zerosP = p.crc) ∧ memWf s.ses.hbm = true := by
  refine ⟨by decide +kernel, by decide +kernel, rfl, by rfl, rfl, by decide +kernel, _, rfl, by decide +kernel,
    ⟨by decide +kernel, ?_, rfl⟩, by decide +kernel⟩
  have h : openCopy 0 aadLanding copyLanding = some zerosP := openCopy_sealCopy 0 1 _ _ (by decide)
  exact h

/-- A frame of eight empty flits with SEQ `n` and its CRC. -/
def frame0 (n : Nat) : LinkFrame :=
  let f : LinkFrame := ⟨0, BitVec.ofNat 12 n, 0, false, 0, 0, 0, List.replicate 8 0⟩
  { f with crc := crc32c (frameBytes f) }

theorem frameBytes_crc (f : LinkFrame) (c : W32) : frameBytes { f with crc := c } = frameBytes f := rfl
theorem frame0_crc (n : Nat) : (frame0 n).crc = crc32c (frameBytes (frame0 n)) := by
  unfold frame0
  exact congrArg crc32c (frameBytes_crc _ _).symm
theorem wit_LinksAndPorts_frames :
    17 < 18 ∧ opF.live = true ∧ (opF.port 17).up = true ∧ (frame0 0).data.length = 8
    ∧ ((frame0 0).crc = crc32c (frameBytes (frame0 0)) ∧ (frame0 0).seq.toNat = (opF.port 17).rxSeq)
    ∧ (frame0 4095).seq.toNat ≠ (opF.port 17).rxSeq
    ∧ ({ frame0 0 with crc := (frame0 0).crc + 1 } : LinkFrame).crc ≠ crc32c (frameBytes { frame0 0 with crc := (frame0 0).crc + 1 })
    ∧ (frame0 0).retry = false ∧ opF.fab.sendQ = [] ∧ opF.fab.ports.length = 18 := by
  refine ⟨by decide +kernel, by decide +kernel, by decide +kernel, by decide +kernel, ⟨frame0_crc 0, by decide +kernel⟩, by decide +kernel, ?_,
    by decide +kernel, by decide +kernel, by decide +kernel⟩
  have h : ∀ x : W32, x + 1 ≠ x := by intro x; bv_omega
  rw [frameBytes_crc, ← frame0_crc]
  exact h _
theorem wit_LinksAndPorts_training :
    (let s := { op0 with fab := { fabP { portUp with state := 1 } with named := false } }
     s.live = true ∧ s.fab.ports.length = 18 ∧ s.fab.named = false ∧ (s.port 17).state = 1 ∧ (s.port 17).replay = [] ∧ s.fab.sendQ = [])
    ∧ opF.fab.named = true ∧ (opF.port 0).up = true ∧ (opF.port 0).lanes = 15 := by decide +kernel

/-- A staged map whose one entry is the device's own. -/
def stage0 : Staging := ⟨2, 262144, 0, 0, memWrite [] 0 [0, 0, 4, 0]⟩
def opStaged : State := { opF with fab := { opF.fab with staging := some stage0 } }

theorem read_stage0 (i : Nat) : memRead stage0.bytes (4 * i) 4 = if i = 0 then [0, 0, 4, 0] else [0, 0, 0, 0] := by
  have h0 : stage0.bytes = [(2, 4)] := by decide
  rw [h0]
  by_cases hi : i = 0
  · subst hi; decide
  · have h : ∀ j, 4 ≤ j → memGet [(2, (4 : Byte))] j = 0 := by
      intro j hj; simp only [memGet, tblGet, tblFind]; split <;> first | omega | rfl
    simp only [hi, if_false, memRead]
    rw [h _ (by omega), h _ (by omega), h _ (by omega), h _ (by omega)]

theorem ids_stage0 : mapOf stage0 = ⟨2, [(0, ⟨1, false, 0⟩)], [], []⟩ := by
  have h : ∀ l : List Nat, (∀ x ∈ l, x ≠ 0) → l.filterMap (fun i =>
      if leNat (memRead stage0.bytes (4 * i) 4) = 0 then none
      else some (i, (⟨bits (leNat (memRead stage0.bytes (4 * i) 4)) 19 18, bit (leNat (memRead stage0.bytes (4 * i) 4)) 17,
        bits (leNat (memRead stage0.bytes (4 * i) 4)) 15 0⟩ : IdEnt))) = [] := by
    intro l hl
    rw [List.filterMap_eq_nil_iff]
    intro x hx
    rw [read_stage0, if_neg (hl x hx), if_pos (by decide)]
  have e : stage0.idBytes / 4 = 65535 + 1 := rfl
  unfold mapOf
  dsimp only
  rw [e, List.range_succ_eq_map, List.filterMap_cons, h _ (by simp)]
  decide +kernel

theorem ne_add_one (x : W32) : x ≠ x + 1 := by bv_omega
theorem wit_MapsAreStagedAndCommitted :
    opStaged.live = true ∧ opStaged.fab.named = true ∧ opStaged.fab.staging = some stage0 ∧ stage0.epoch = 2
    ∧ (2 : W32) = epSucc opStaged.fab.map.epoch
    ∧ (∃ crc, crc32c (memRead stage0.bytes 0 (stage0.idBytes + stage0.extBytes + stage0.gwBytes)) = crc)
    ∧ (∃ crc, crc32c (memRead stage0.bytes 0 (stage0.idBytes + stage0.extBytes + stage0.gwBytes)) ≠ crc)
    ∧ opStaged.mapOk stage0 (mapOf stage0) = true ∧ (3 : W32) ≠ epSucc opStaged.fab.map.epoch ∧ (List.replicate 4096 (0 : Byte)).length ≤ 4096
    ∧ opStaged.fabricUp = true ∧ opF.fabricUp = true ∧ opF.fab.staging = none
    ∧ ({ opStaged with fab := { opStaged.fab with node := 3 } } : State).mapOk stage0 (mapOf stage0) = false
    ∧ (∃ s : State, s.live = true ∧ s.fabricUp = true ∧ s.fab.named = true ∧ s.fab.mapAck = [(2, stOk)] ∧ s.requestsDue (fun _ => true) = false) := by
  refine ⟨by decide +kernel, by decide +kernel, rfl, rfl, by decide +kernel, ⟨_, rfl⟩, ⟨_, ne_add_one _⟩, ?_, by decide +kernel,
    by rw [List.length_replicate], by decide +kernel, by decide +kernel, rfl, ?_,
    ⟨{ opF with fab := { opF.fab with mapAck := [(2, stOk)] } }, by decide +kernel, by decide +kernel, by decide +kernel, rfl, by decide +kernel⟩⟩
  all_goals (rw [ids_stage0]; decide +kernel)

/-- A region of `n` blocks of 4 KiB of context 1 from address 4096 on, key 9, every permission. -/
def regRec (n : Nat) : RegionRec := ⟨4096, 9, 5, BitVec.ofNat 36 n, false, true, true, true⟩
def region0 (n : Nat) : Region := ⟨regRec n, 1, false, true⟩
/-- Context 1 with room for regions at slots 5 and 6, holding those given. -/
def opR (g : Table Region) : State :=
  { withObjs [(0x4101, 1, 1, 0, 4), (0x4101, 2, 1, 0, 5), (0x4101, 2, 1, 1, 2)] op0 with fab := { fabP portUp with regions := g } }
/-- REGION_SET at slot 5 of `n` blocks. -/
def entReg (n : Nat) : Nat := ent 0xB0 (5 + (0x70 + n * 2 ^ 124 + 5 * 2 ^ 160 + 9 * 2 ^ 176 + 4096 * 2 ^ 208) * 2 ^ 64)

theorem wit_RegionsAreSetAndCleared_set :
    let e := entReg (2 ^ 21)
    let t := took (opR []) e
    Accepted (ringed (opR []) e) t 0 0 h0 (.regionSet 5 (regRec (2 ^ 21))) [] ∧ t.regionFieldsOk 1 5 (regRec (2 ^ 21)) = true
    ∧ tblAny t.fab.regions (fun g x => overlaps 5 (regSlots (regRec (2 ^ 21))) g (regSlots x.rcd)) = false
    ∧ tblFind t.fab.lastKeys 5 ≠ some (regRec (2 ^ 21)).key ∧ regSlots (regRec (2 ^ 21)) = 2 :=
  ⟨acc_ok (by decide +kernel), by decide +kernel, by decide +kernel, by decide +kernel, by decide +kernel⟩
theorem wit_RegionsAreSetAndCleared_key :
    let s := { opR [] with fab := { fabP portUp with lastKeys := [(5, 9)] } }
    let t := took s (entReg 1)
    Accepted (ringed s (entReg 1)) t 0 0 h0 (.regionSet 5 (regRec 1)) [] ∧ t.regionFieldsOk 1 5 (regRec 1) = true
    ∧ tblFind t.fab.lastKeys 5 = some (regRec 1).key := ⟨acc_ok (by decide +kernel), by decide +kernel, by decide +kernel⟩
theorem wit_RegionsAreSetAndCleared_clear :
    let s := opR [(5, region0 1)]
    let t := took s (ent 0xB1 5)
    Accepted (ringed s (ent 0xB1 5)) t 0 0 h0 (.regionClear 5) [] ∧ tblFind t.fab.regions 5 = some (region0 1) ∧ (region0 1).ctx = 1
    ∧ (region0 1).closing = false := ⟨acc_ok (by decide +kernel), by decide +kernel, rfl, rfl⟩
theorem wit_RegionsAreSetAndCleared_done :
    (let s := { opR [] with fab := { fabP portUp with regions := [(5, region0 1)], closes := [(5, ⟨0, 0, 0, 1, 0⟩)] } }
     s.live = true ∧ tblFind s.fab.regions 5 = some (region0 1) ∧ tblFind s.fab.closes 5 = some ⟨0, 0, 0, 1, 0⟩
     ∧ s.requestsDue (regionCovers 5 (region0 1).rcd) = false)
    ∧ (let s := { opR [] with bulk := { quar := [(7 * 65536 + 5, 250000)] } }
       s.live = true ∧ tblFind s.bulk.quar (7 * 65536 + 5) = some 250000 ∧ 250000 ≤ s.tick) := by decide +kernel

/-- A request from node 7 for a byte of slot 5 of identity 0, under map epoch 1 and key `k`. -/
def req1 (op : Nat) (k : W32) : LineReq :=
  ⟨false, 1, k, BitVec.ofNat 64 (5 * 2 ^ 32 + 4032), 0, 7, 0, BitVec.ofNat 6 op, false, false, 0, 1, if op = 2 then List.replicate 64 1 else []⟩
/-- A request for a slot of an identity the map does not give. -/
def reqFar : LineReq := { req1 1 9 with addr := BitVec.ofNat 64 (3 * 2 ^ 48) }

theorem forNode {s : State} {r : LineReq} (h : (r.dstNode.toNat == s.fab.node && !s.resting && lineFormOk r && !s.gateway) = true) :
    ForThisNode s r := by
  simp only [Bool.and_eq_true, beq_iff_eq, Bool.not_eq_true'] at h
  exact ⟨h.1.1.1, h.1.1.2, h.1.2, fun g => absurd g (by simp [h.2])⟩
theorem wit_LineRequestsAreChecked_taken :
    (opR []).answering = true ∧ ((opR []).port 17).up = true ∧ (opR []).inBehind 17 (req1 1 9) = false ∧ (opR []).rspSlot (req1 1 9) = true
    ∧ ({ opR [] with fab := { fabP portUp with inQ := [⟨17, req1 1 9, none⟩] } } : State).inBehind 17 (req1 1 9) = true := by decide +kernel
theorem wit_LineRequestsAreChecked_early :
    (req1 1 9).dstNode.toNat = (opR []).fab.node
    ∧ ({ req1 1 9 with dstNode := 3 } : LineReq).dstNode.toNat ≠ (opR []).fab.node ∧ (opR []).resting = false
    ∧ lineFormOk { req1 1 9 with addr := 1 } = false
    ∧ (let s := { opR [] with dev := { dev0 with mgmt := 3 } }
       (req1 1 9).dstNode.toNat = s.fab.node ∧ s.resting = true) := by decide +kernel
theorem wit_LineRequestsAreChecked_moved :
    ForThisNode (opR []) reqFar ∧ (opR []).epochCheck reqFar.epoch reqFar.addr.toNat (reqFar.op != 1) = .error stMoved :=
  ⟨forNode (by decide +kernel), errE_of (by decide +kernel)⟩
/-- The slot that the epoch check answers. -/
theorem okE_is {α ε : Type} {x : Except ε α} {a : α} (h : (match x with | .ok v => some v | .error _ => none) = some a) : x = .ok a := by
  cases x with
  | ok v => simpa using h
  | error f => simp at h
theorem snd_of {α β : Type} {x : α × β} {b : β} (h : x.2 = b) : ∃ t, x = (t, b) := ⟨x.1, by rw [← h]⟩
theorem wit_LineRequestsAreChecked_key :
    let s := opR [(5, region0 1)]
    ForThisNode s (req1 1 8) ∧ s.epochCheck 1 (req1 1 8).addr.toNat ((req1 1 8).op != 1) = .ok 5
    ∧ ∃ t, s.regionCheck 7 5 (hallOff (req1 1 8).addr.toNat) (reqSize (req1 1 8)) 8 (linePerm (req1 1 8)) = (t, .error stKey) :=
  ⟨forNode (by decide +kernel), okE_is (by decide +kernel), snd_of (errE_of (by decide +kernel))⟩
/-- The request passes every check at slot 5 with key 9 and acts on address 8128 of context 1. -/
abbrev passes (op : Nat) : Prop :=
  let s := opR [(5, region0 1)]
  ForThisNode s (req1 op 9) ∧ s.epochCheck 1 (req1 op 9).addr.toNat ((req1 op 9).op != 1) = .ok 5
  ∧ (∃ t, s.regionCheck 7 5 (hallOff (req1 op 9).addr.toNat) (reqSize (req1 op 9)) 9 (linePerm (req1 op 9)) = (t, .ok (1, 8128))
    ∧ t.uncopied 1 8128 (reqSize (req1 op 9)) = [])
theorem passes_of {op : Nat} (h1 : ForThisNode (opR [(5, region0 1)]) (req1 op 9))
    (h2 : (opR [(5, region0 1)]).epochCheck 1 (req1 op 9).addr.toNat ((req1 op 9).op != 1) = .ok 5)
    (h3 : ((opR [(5, region0 1)]).regionCheck 7 5 (hallOff (req1 op 9).addr.toNat) (reqSize (req1 op 9)) 9 (linePerm (req1 op 9))).2 = .ok (1, 8128))
    (h4 : ((opR [(5, region0 1)]).regionCheck 7 5 (hallOff (req1 op 9).addr.toNat) (reqSize (req1 op 9)) 9
      (linePerm (req1 op 9))).1.uncopied 1 8128 (reqSize (req1 op 9)) = []) : passes op :=
  ⟨h1, h2, _, by rw [← h3], h4⟩
theorem wit_LineRequestsAreChecked_performed : passes 1 ∧ passes 2 ∧ passes 0x13 :=
  ⟨passes_of (forNode (by decide +kernel)) (okE_is (by decide +kernel)) (okE_is (by decide +kernel)) (by decide +kernel),
    passes_of (forNode (by decide +kernel)) (okE_is (by decide +kernel)) (okE_is (by decide +kernel)) (by decide +kernel),
    passes_of (forNode (by decide +kernel)) (okE_is (by decide +kernel)) (okE_is (by decide +kernel)) (by decide +kernel)⟩
/-- The cut of a checkpoint of context 1 has not copied the frame a write or an atomic goes to. -/
theorem wit_LineRequestsAreChecked_held :
    let s := { opR [(5, region0 1)] with cks := { tbl := [(1, { ckptNone with state := 2, uncopied := [2 ^ 36, 2 ^ 36 + 1] })] } }
    ForThisNode s (req1 2 9) ∧ s.epochCheck 1 (req1 2 9).addr.toNat ((req1 2 9).op != 1) = .ok 5
    ∧ ∃ t, s.regionCheck 7 5 (hallOff (req1 2 9).addr.toNat) (reqSize (req1 2 9)) 9 (linePerm (req1 2 9)) = (t, .ok (1, 8128))
      ∧ (req1 2 9).op.toNat ≠ 1 ∧ t.uncopied 1 8128 (reqSize (req1 2 9)) ≠ [] := by
  intro s
  have h : (s.regionCheck 7 5 (hallOff (req1 2 9).addr.toNat) (reqSize (req1 2 9)) 9 (linePerm (req1 2 9))).2 = .ok (1, 8128) :=
    okE_is (by decide +kernel)
  exact ⟨forNode (by decide +kernel), okE_is (by decide +kernel), _, by rw [← h], by decide, by decide +kernel⟩
theorem wit_LineRequestsAreChecked_regions :
    let s := opR [(5, region0 1)]
    let g := region0 1
    s.regionAt 5 = some (5, g) ∧ g.rcd.key ≠ 8 ∧ g.rcd.len.toNat * 4096 < (5 - 5) * 2 ^ 32 + 4033 + 64
    ∧ (opR [(5, { g with closing := true })]).regionAt 5 = some (5, { g with closing := true })
    ∧ (tblFind s.bulk.quar (7 * 65536 + 5) = none ∧ g.valid = true ∧ g.closing = false ∧ g.rcd.key = 9
      ∧ (5 - 5) * 2 ^ 32 + 4032 + 64 ≤ g.rcd.len.toNat * 4096 ∧ regPermits g.rcd .read = true
      ∧ regPermits ({ g.rcd with read := false } : RegionRec) .read = false) := by decide +kernel

theorem wit_LineOperationsOnMemory :
    255 < 256 ∧ 2 ^ 48 - 64 + 64 ≤ 2 ^ 48 ∧ memWf op0.ses.cmem = true ∧ (2 ^ 48 - 64) % 64 = 0
    ∧ ({ op0 with sec := { ctx := [(255, ⟨5, 0, 0, 0, 0, []⟩)] } } : State).memKey 255 = some 5
    ∧ ((req1 1 9).op.toNat = 1 ∧ op0.cbad 255 (2 ^ 48 - 64) 64 = none)
    ∧ (({ req1 2 9 with operand := BitVec.ofNat 64 (2 ^ 64 - 1) } : LineReq).operand.toNat = 2 ^ 64 - 1 ∧ (req1 2 9).op.toNat = 2
      ∧ (req1 2 9).payload.length = 64)
    ∧ (0x10 ≤ (req1 0x10 9).op.toNat ∧ (req1 0x13 9).op.toNat ≤ 0x13 ∧ op0.cbad 255 (2 ^ 48 - 64) 8 = none) := by decide +kernel

/-! ### Line transactions -/

/-- A read or an atomic of slot 5 of identity 0 that core 0 asked for. -/
def lineItem0 : LineItem := ⟨0, BitVec.ofNat 64 (5 * 2 ^ 32), 1, []⟩
def lineSent0 (w : LineWait) : LineSent := ⟨lineItem0, [], w, none⟩
def txn0 (op order : Nat) (comb : Bool) : Txn :=
  { owner := .core 0 0, ctx := 1, op := op, key := 9, comb := comb, todo := [lineItem0], sent := [], again := [], shared := [], status := 0
    deadline := none, order := order, rank := 1, epoch := none }
def opT (l : Table Txn) : State := { op0 with fab := { fabP portUp with txns := l } }

theorem wit_LineTransactions_again :
    let x := { txn0 1 0 false with todo := [], again := [lineSent0 .none] }
    let s := opT [(49151, x)]
    s.live = true ∧ s.txn 49151 = some x ∧ s.lineReady x = true ∧ x.head = some (lineSent0 .none, true)
    ∧ ∃ t, s.lineTx 49151 { x with again := x.again.erase (lineSent0 .none) } (lineSent0 .none) true true true = some t :=
  ⟨by decide +kernel, by decide +kernel, by decide +kernel, by decide +kernel, someE (by decide +kernel)⟩
theorem wit_LineTransactions_alone :
    let x := txn0 1 0 false
    let s := opT [(0, x)]
    s.lineReady x = true ∧ x.head = some (lineSent0 .none, false) ∧ (s.combine 0 x lineItem0).length = 1
    ∧ (lineSent0 .none).parts = []
    ∧ ∃ t, s.lineTx 0 { x with todo := x.todo.erase lineItem0 } (lineSent0 .none) false true false = some t :=
  ⟨by decide +kernel, by decide +kernel, by decide +kernel, rfl, someE (by decide +kernel)⟩
theorem wit_LineTransactions_combined :
    let x := txn0 0x10 0 true
    let s := opT [(0, x), (1, txn0 0x10 1 true)]
    s.lineReady x = true ∧ x.head = some (lineSent0 .none, false)
    ∧ s.combine 0 x lineItem0 = (0, lineItem0) :: [(1, lineItem0)]
    ∧ ∃ t, s.lineTx 0 { x with todo := x.todo.erase lineItem0, shared := x.shared ++ [lineItem0] }
        { lineSent0 .none with parts := [(0, lineItem0), (1, lineItem0)] } false true false = some t :=
  ⟨by decide +kernel, by decide +kernel, by decide +kernel, someE (by decide +kernel)⟩
/-- A response to the one request of transaction 0. -/
def rsp0 (st : Nat) : LineRsp := ⟨1, 0, 0, 0, 0, 0, 7, 0, 1, BitVec.ofNat 16 st, []⟩
theorem wit_LineTransactions_responses :
    let x := { txn0 1 0 false with todo := [], sent := [lineSent0 .none], deadline := some 250000 }
    let s := opT [(0, x)]
    s.txn 0 = some x ∧ 17 < 18 ∧ (s.port 17).up = true ∧ (rsp0 0).txn.toNat = 0 ∧ (rsp0 0).dstNode.toNat = s.fab.node ∧ (rsp0 0).op.toNat = x.op
    ∧ x.sent.find? (fun l => x.op != 1 || l.item.line == (rsp0 0).line.toNat) = some (lineSent0 .none)
    ∧ (rsp0 stOk).status.toNat = stOk ∧ (rsp0 stMoved).status.toNat = stMoved ∧ (rsp0 stEpochWait).status.toNat = stEpochWait
    ∧ 250000 ≤ s.tick := by decide +kernel
theorem wit_LineTransactions_waits :
    let x := { txn0 1 0 false with todo := [], again := [lineSent0 (.epoch 250000)] }
    let y := { txn0 1 0 false with todo := [], again := [lineSent0 (.gateway 250000)] }
    (opT [(0, x)]).txn 0 = some x ∧ 250000 ≤ (opT [(0, x)]).tick
    ∧ (∃ t, (opT [(0, x)]).lineTx 0 { x with again := [] } (lineSent0 (.epoch 250000)) true false true = some t)
    ∧ ∃ t, (opT [(0, y)]).lineTx 0 { y with again := [] } (lineSent0 (.gateway 250000)) true false false = some t :=
  ⟨by decide +kernel, by decide +kernel, someE (by decide +kernel), someE (by decide +kernel)⟩

/-! ### Bulk -/

/-- Keys of the flow to node 7: 5 to send, 6 to receive. -/
def keys0 : FlowKeys := ⟨some ⟨5, 0⟩, none, some ⟨6, 0⟩, none, 0, none⟩
def flow0 : Flow := live0.flowInit 7
def opN (f : Flow) (k : FlowKeys) : State :=
  { op0 with fab := fabP portUp, bulk := { flows := [(7, f)], keys := tblPut noKeys [] 7 k }, run := { tokens := [(11, 1)] } }
/-- A message of `n` bytes of context 1 to an inbox. -/
def msg0 (n : Nat) : BulkMsg := bulkMsg 1 1 3 1 0 0 n (List.replicate n 1) .nothing
/-- A packet sent at tick 0. -/
def pkt0 (again : Bool) : PktSt := ⟨0, 0, 17, false, again, false, 0, [(0, 0)]⟩

theorem wit_BulkSending_batches :
    let s := { opN flow0 keys0 with fab := { fabP portUp with batches := [(14, ⟨[0], 0, [0]⟩)] } }
    s.live = true ∧ tblFind s.fab.batches (2 * 7) = some ⟨[0], 0, [0]⟩ ∧ s.obj 0x4205 3 * 5 ≤ (s.tick - 0) * 8
    ∧ tblFind s.fab.batches (2 * 7 + 1) = none := by decide +kernel
theorem wit_BulkSending_hello :
    let f := { flow0 with waiting := [msg0 64] }
    (opN f noKeys).bulk.noFlow = [] ∧ (opN f noKeys).flow 7 = some f ∧ f.waiting ≠ [] ∧ (opN f noKeys).txKey 7 f = none
    ∧ ((opN f noKeys).hop 7 0).isSome = true
    ∧ (let s := { op0 with fab := fabP portUp, bulk := { flows := [(4096, f)] } }
       s.live = true ∧ s.bulk.noFlow = [] ∧ s.flow 4096 = some f ∧ s.hop 4096 0 = none) := by decide +kernel
theorem wit_BulkSending_again :
    let f := { flow0 with nextSeq := 2, msgs := [(1, { msg0 64 with next := 64, first := some 0, pkts := [(0, pkt0 true)] })] }
    (opN f keys0).flow 7 = some f ∧ (opN f keys0).txKey 7 f = some 5 ∧ (opN f keys0).dueAgain f = some (1, 0)
    ∧ ∃ t, (opN f keys0).resend 7 1 0 = some t := ⟨by decide +kernel, by decide +kernel, by decide +kernel, someE (by decide +kernel)⟩
theorem wit_BulkSending_open :
    let m := { msg0 8192 with next := 4096, first := some 0 }
    let f := { flow0 with nextSeq := 2, msgs := [(1, m)] }
    (opN f keys0).flow 7 = some f ∧ (opN f keys0).txKey 7 f = some 5 ∧ (opN f keys0).dueAgain f = none
    ∧ (opN f keys0).openMsg f = some (1, m) ∧ f.inflight + m.counted m.next ≤ f.win ∧ ∃ t, (opN f keys0).bulkTx 7 1 m.next f m = some t := by
  refine ⟨rfl, by decide +kernel, by decide +kernel, rfl, by decide +kernel, someE (by decide +kernel)⟩
theorem wit_BulkSending_new :
    let f := { flow0 with waiting := [msg0 64] }
    (opN f keys0).flow 7 = some f ∧ (opN f keys0).txKey 7 f = some 5 ∧ (opN f keys0).dueAgain f = none ∧ (opN f keys0).openMsg f = none
    ∧ ∃ t, (opN f keys0).startMsg 7 f = some t :=
  ⟨by decide +kernel, by decide +kernel, by decide +kernel, by decide +kernel, someE (by decide +kernel)⟩

/-- An answer from node 7 to message `id` with its tag under key 5. -/
def ans0 (typ : Nat) (id : Nat) : BulkAns :=
  let a : BulkAns := ⟨1, 0, 0, 0, 0, 0, 7, 0, 0, false, BitVec.ofNat 4 typ, 1, BitVec.ofNat 64 id, 0⟩
  { a with tag := Config.gcmTag 5 (ansNonce a 0) (ansAad a) [] }
theorem ansOk_of {s : State} {n x k : Nat} (a : BulkAns) (h : keyFor (s.fkeys n).tx (s.fkeys n).txPrev x = some k) :
    s.ansOk n x { a with tag := Config.gcmTag k (ansNonce a x) (ansAad a) [] } = true := by
  unfold State.ansOk
  simp only [h]
  exact beq_self_eq_true (Config.gcmTag k (ansNonce a x) (ansAad a) [])

theorem wit_BulkAnswersAndTimeouts_ack :
    let m := { msg0 64 with next := 64, first := some 0, pkts := [(0, pkt0 false)] }
    let f := { flow0 with nextSeq := 2, msgs := [(1, m)] }
    let a := ans0 8 1
    (opN f keys0).live = true ∧ ((opN f keys0).port 17).up = true ∧ a.dstNode.toNat = (opN f keys0).fab.node ∧ (opN f keys0).relayAns a = none
    ∧ (opN f keys0).flow a.srcNode.toNat = some f ∧ a.typ.toNat = 8 ∧ a.hver.toNat = 1 ∧ a.msgId.toNat / 2 ^ 48 = (opN f keys0).dev.bootEpoch
    ∧ tblFind f.msgs (a.msgId.toNat % 2 ^ 48) = some m ∧ tblFind m.pkts a.offset.toNat = some (pkt0 false) ∧ answered (pkt0 false).tx a = some 0
    ∧ (opN f keys0).ansOk a.srcNode.toNat 0 a = true ∧ (pkt0 false).acked = false ∧ live0.flow a.srcNode.toNat = none :=
  ⟨by decide +kernel, by decide +kernel, by decide +kernel, by rfl, by decide +kernel, by decide +kernel, by decide +kernel, by decide +kernel,
    by decide +kernel, by decide +kernel, by decide +kernel, ansOk_of _ (by decide +kernel), rfl, by decide +kernel⟩
theorem wit_BulkAnswersAndTimeouts_placed :
    let l : FlushOut := ⟨0, 0, 0, 0, true, [(0, 0)], 17, []⟩
    let f := { flow0 with flush := some l }
    let a := ans0 9 0
    (opN f keys0).relayAns a = none ∧ (opN f keys0).flow a.srcNode.toNat = some f ∧ f.flush = some l ∧ a.typ.toNat = 9 ∧ a.hver.toNat = 1
    ∧ a.msgId.toNat = l.upto + (opN f keys0).dev.bootEpoch * 2 ^ 48 ∧ answered l.tx a = some 0 ∧ (opN f keys0).ansOk a.srcNode.toNat 0 a = true :=
  ⟨by rfl, by decide +kernel, rfl, by decide +kernel, by decide +kernel, by decide +kernel, by decide +kernel, ansOk_of _ (by decide +kernel)⟩
theorem wit_BulkAnswersAndTimeouts_flush :
    (let l : FlushOut := ⟨0, 0, 0, 0, false, [], 17, []⟩
     let f := { flow0 with flush := some l }
     (opN f keys0).flow 7 = some f ∧ l.tx = [] ∧ l.upto ≤ f.floor ∧ f.inflight + 64 ≤ f.win ∧ (opN f keys0).txKey 7 f = some 5)
    ∧ (let l : FlushIn := ⟨0, 0, 0, false, 0⟩
       let f := { flow0 with pendFlush := [l] }
       (opN f keys0).flow 7 = some f ∧ f.pendFlush.find? (fun l => decide (l.upto ≤ f.lw)) = some l
       ∧ keyFor ((opN f keys0).fkeys 7).rx ((opN f keys0).fkeys 7).rxPrev l.xmit = some 6) := by decide +kernel
theorem wit_BulkAnswersAndTimeouts_resent :
    let m := { msg0 64 with next := 64, first := some 0, pkts := [(0, pkt0 false)] }
    let f := { flow0 with nextSeq := 2, msgs := [(1, m)] }
    let s := opN f keys0
    s.flow 7 = some f ∧ tblFind f.msgs 1 = some m ∧ tblFind m.pkts 0 = some (pkt0 false) ∧ (pkt0 false).acked = false ∧ (pkt0 false).again = false
    ∧ (pkt0 false).sentAt + (pkt0 false).timeout ≤ s.tick ∧ s.inTime m = true
    ∧ ∃ t, (s.setFlow 7 { f.cut true with msgs := tblIns f.msgs 1 { m with
        pkts := tblIns m.pkts 0 { pkt0 false with again := true, remap := false, waitTill := s.tick } } }).resend 7 1 0 = some t :=
  ⟨by decide +kernel, by decide +kernel, by decide +kernel, by decide +kernel, by decide +kernel, by decide +kernel, by decide +kernel, someE (by decide +kernel)⟩
theorem wit_BulkAnswersAndTimeouts_horizons :
    (let m := { msg0 64 with next := 64, first := some 0, pkts := [(0, pkt0 false)] }
     let f := { flow0 with nextSeq := 2, msgs := [(1, m)] }
     let s := { opN f keys0 with dev := { dev0 with nclk := 2500000000 } }
     s.live = true ∧ s.flow 7 = some f ∧ tblFind f.msgs 1 = some m ∧ m.first = some 0 ∧ 0 + 625000000 ≤ s.tick)
    ∧ (let g : GetRec := ⟨64, 0, 9, 1, .nothing, 250000⟩
       let s := { op0 with bulk := { gets := [(7 * 2 ^ 48 + 1, g)] } }
       tblFind s.bulk.gets (7 * 2 ^ 48 + 1) = some g ∧ g.deadline ≤ s.tick ∧ s.flow 7 = none)
    ∧ (let s := { op0 with dev := { dev0 with nclk := 2 ^ 53 }, ses := { hbm := memWrite [] (op0.lwAddr 7 1) [3] } }
       s.live = true ∧ s.lwGet 7 1 = some ⟨0, 0, 0⟩ ∧ s.obj 0x4201 1 * 625000 ≤ (s.tick % 2 ^ 52 + 2 ^ 52 - 0 * 2 ^ 20) % 2 ^ 52) := by
  decide +kernel

/-- A packet of 64 bytes from node 7 to node `dst`, finally to `fin`, with the tag that `t` makes of its true one. -/
def pktIn (dst fin : Nat) (t : BitVec 128 → BitVec 128) : BulkPkt :=
  let k : BulkPkt := ⟨1, 9, 0, 64, 0, BitVec.ofNat 16 dst, 7, 0, 0, 0, 64, 1, 0, false, false, BitVec.ofNat 16 fin, 1, 1, List.replicate 64 1, 0⟩
  { k with tag := t (Config.gcmTag 6 0 (bulkAad { k with dstNode := 0, ce := false }) k.payload) }
/-- A gateway. -/
def opG : State := { withObjs [(0x4205, 1, 0, 0, 1)] op0 with fab := fabP portUp }

theorem wit_BulkArrivals_taken :
    opF.dev.mgmt ≠ 0 ∧ (pktIn 0 0 id).dstNode.toNat = opF.fab.node ∧ opF.relays (pktIn 0 0 id) = false ∧ isKeyx (pktIn 0 0 id) = false := by
  refine ⟨by decide +kernel, by rfl, by rfl, by rfl⟩
theorem wit_BulkArrivals_relayed :
    opG.live = true ∧ (opG.port 17).up = true ∧ opG.relays (pktIn 0 9 id) = true ∧ 2000 ≤ 2000
    ∧ opG.hop (pktIn 0 9 id).finalNode.toNat (pairNum (pktIn 0 9 id).addr.toNat) = some (9, false)
    ∧ ∃ q t, opG.nextPort opG.fab.rotor 0 (bulkFlits (pktIn 0 9 id)) false none = some q
      ∧ opG.classTurn q 0 (bulkFlits (pktIn 0 9 id)) = some t := by
  have h : (match opG.nextPort opG.fab.rotor 0 (bulkFlits (pktIn 0 9 id)) false none with
    | some q => (opG.classTurn q 0 (bulkFlits (pktIn 0 9 id))).isSome | none => false) = true := by decide +kernel
  refine ⟨by decide +kernel, by decide +kernel, by decide +kernel, by decide, by decide +kernel, ?_⟩
  split at h
  · rename_i q hq
    obtain ⟨t, ht⟩ := someE h
    exact ⟨q, t, hq, ht⟩
  · simp at h
theorem load_of {s : State} {n : Nat} (P : State → Bool) (h : (match s.flowLoad n with | some t => P t | none => false) = true) :
    ∃ t, s.flowLoad n = some t ∧ P t = true := by
  split at h
  · exact ⟨_, by assumption, h⟩
  · simp at h
theorem wit_BulkArrivals_getData :
    let g : GetServe := ⟨1, 0, 64, 5, false⟩
    let s := { opN flow0 keys0 with bulk := { serves := [(7 * 2 ^ 48 + 1, g)] } }
    tblFind s.bulk.serves (7 * 2 ^ 48 + 1) = some g ∧ g.sent = false ∧ ∃ u, s.flowLoad 7 = some u ∧ ∃ f, u.flow 7 = some f := by
  intro g s
  obtain ⟨u, h, hf⟩ := load_of (s := s) (n := 7) (fun t => (t.flow 7).isSome) (by decide +kernel)
  exact ⟨by decide +kernel, rfl, u, h, someE hf⟩
theorem wit_BulkArrivals_forged :
    let s := opN flow0 keys0
    let k := pktIn 0 0 (· + 1)
    ∃ u f, s.flowLoad k.srcNode.toNat = some u ∧ u.flow k.srcNode.toNat = some f
      ∧ keyFor (u.fkeys k.srcNode.toNat).rx (u.fkeys k.srcNode.toNat).rxPrev k.xmit.toNat = some 6
      ∧ Config.gcmTag 6 k.xmit.toNat (bulkAad { k with dstNode := 0, ce := false }) k.payload ≠ k.tag := by
  intro s k
  obtain ⟨u, h, hf⟩ := load_of (s := s) (n := 7) (fun t => (t.flow 7).isSome && keyFor (t.fkeys 7).rx (t.fkeys 7).rxPrev 0 == some 6) (by decide +kernel)
  simp only [Bool.and_eq_true, beq_iff_eq] at hf
  obtain ⟨f, hf1⟩ := someE hf.1
  have ne : ∀ x : BitVec 128, x ≠ x + 1 := by intro x; bv_omega
  exact ⟨u, f, h, hf1, hf.2, ne _⟩

/-- A certificate that this module makes carries its issuer's signature. -/
theorem mkCert_sig (kind issuer pub boot : Nat) :
    (mkCert kind issuer pub boot).sig = Config.signature issuer (certBody (mkCert kind issuer pub boot)) := rfl
theorem edPub_small (k : Nat) : (BitVec.ofNat 256 (edPub k)).toNat = edPub k := by
  rw [BitVec.toNat_ofNat]; exact Nat.mod_eq_of_lt (Nat.mod_lt _ (by decide))
/-- The certificates of a device pass. -/
theorem certsOk_own (s : State) : certsOk idCert s.akCert = true := by
  have h1 : idCert.subject.toNat = dikPub := edPub_small _
  have h2 : s.akCert.sig = Config.signature dikPub (certBody s.akCert) := mkCert_sig _ _ _ _
  have h3 : idCert.sig = Config.signature mfgPub (certBody idCert) := mkCert_sig _ _ _ _
  have h4 : idCert.serial = s.akCert.serial := rfl
  unfold certsOk
  rw [h1, ← h2, ← h3, h4, BEq.rfl, BEq.rfl, BEq.rfl]
  rfl
/-- What a device sends, a device takes: with no allow list, from a machine at base level 1 and not under an untested image. -/
theorem keyxOf_ok (s t : State) (role start : Nat) (fresh peer : BitVec 256) (eph : Nat) (h1 : s.blevel = 1) (h2 : bit s.quoteFlags 2 = false)
    (h3 : t.obj 0x7002 1 ≠ 1) : t.keyxOk (s.keyxOf role start fresh peer eph) = true := by
  have a : (s.keyxOf role start fresh peer eph).quoteSig = quoteSig (s.keyxOf role start fresh peer eph).quote := rfl
  have b : (s.keyxOf role start fresh peer eph).quote.akPub = (s.keyxOf role start fresh peer eph).akCert.subject.toNat := (edPub_small _).symm
  have c : (s.keyxOf role start fresh peer eph).quote.nonce = keyxNonce (s.keyxOf role start fresh peer eph) := by
    simp only [State.keyxOf, State.mkQuote, keyxNonce, keyxHead]
  have d : (s.keyxOf role start fresh peer eph).quote.blevel = 1 := h1
  have e : bit (s.keyxOf role start fresh peer eph).quote.flags 2 = false := h2
  have f : certsOk (s.keyxOf role start fresh peer eph).idCert (s.keyxOf role start fresh peer eph).akCert = true := certsOk_own s
  have g : (s.keyxOf role start fresh peer eph).kver = 1 := rfl
  have i : (t.obj 0x7002 1 != 1) = true := bne_iff_ne.mpr h3
  unfold State.keyxOk
  dsimp only
  rw [a, b, c, d, e, f, g, i, BEq.rfl, BEq.rfl, BEq.rfl, BEq.rfl]
  rfl

/-- The device of node 7, and what it sends: a hello, the reply to hello number 2, the same spoiled. -/
def op7 : State := { op0 with fab := { fabP portUp with node := 7 } }
def keyx0 (role : Nat) : Keyx := op7.keyxOf role 0 1 2 3
theorem wit_KeyExchange :
    let s := opN flow0 { keys0 with hello := some ⟨2, 0, 0, 0⟩ }
    s.answering = true ∧ (s.port 17).up = true ∧ (keyx0 0).role.toNat = 0 ∧ (keyx0 1).role.toNat = 1 ∧ (keyx0 1).peerFresh = 2
    ∧ ∃ t, (s.takeFlits 17 0 31).flowLoad (keyx0 0).srcNode.toNat = some t ∧ t.keyxOk (keyx0 0) = true ∧ t.keyxOk (keyx0 1) = true
      ∧ t.keyxOk { keyx0 1 with kver := 2 } = false ∧ (t.fkeys 7).hello = some ⟨2, 0, 0, 0⟩ := by
  intro s
  obtain ⟨u, h, hf⟩ := load_of (s := s.takeFlits 17 0 31) (n := 7) (fun t => t.obj 0x7002 1 != 1 && (t.fkeys 7).hello == some ⟨2, 0, 0, 0⟩)
    (by decide +kernel)
  simp only [Bool.and_eq_true, beq_iff_eq, bne_iff_ne] at hf
  refine ⟨by decide +kernel, by decide +kernel, rfl, rfl, rfl, u, h, keyxOf_ok _ _ _ _ _ _ _ (by decide +kernel) (by decide +kernel) hf.1,
    keyxOf_ok _ _ _ _ _ _ _ (by decide +kernel) (by decide +kernel) hf.1, ?_, hf.2⟩
  unfold State.keyxOk
  rfl

/-! ### Owners, scales -/

theorem wit_OwnersOfAddresses :
    (let e : Extent := ⟨3, 10, 20, 7, 65525, 2⟩
     let m : CompMap := ⟨1, [(3, ⟨1, false, 0⟩)], [e], []⟩
     e ∈ m.exts ∧ e.id = 3 ∧ e.first ≤ 10 ∧ e.first ≤ 20 ∧ 20 ≤ e.last
     ∧ (∀ f ∈ m.exts, f.id = 3 → f.first ≤ 20 → 20 ≤ f.last → f = e) ∧ (∀ f ∈ m.exts, ¬(f.id = 3 ∧ f.first ≤ 21 ∧ 21 ≤ f.last)))
    ∧ (let s := { op0 with fab := { fabP portUp with map := ⟨1, [(3, ⟨1, false, 0⟩)], [⟨3, 10, 20, 0, 65525, 2⟩], []⟩ } }
       s.ownerOf (3 * 2 ^ 48 + 20 * 2 ^ 32) = some (s.fab.node, 65535, true) ∧ epNewer s.fab.prevMap.epoch 1 = false) := by decide +kernel
theorem wit_ScaleSignsAndNaNs : 127 % 128 = 127 ∧ 255 % 128 = 127 := by decide

/-! ### Text -/

/-- A vocabulary of one token, "A", of 2,121 bytes; a grammar that allows token 0 again and again, of 144 bytes. -/
def vocImg : Mem := [(0, 1), (17, 4), (18, 1), (20, 1), (44, 1), (48, 0x49), (49, 8), (2119, 1), (2120, 65)]
def gramImg : Mem := [(0, 1), (4, 1), (8, 144), (74, 4), (79, 0x80)]
def voc0 : Vocab := ⟨vocImg, 2121, false⟩
/-- Context 1 with space for images, a stop set, an instance and streams 5 and 6, and `x` in its text unit; `m` in its memory. -/
def opX (m : Mem) (x : Txt) : State :=
  { withObjs [(0x6001, 1, 1, 0, 1), (0x6001, 2, 1, 0, 1), (0x6003, 1, 1, 0, 5), (0x6003, 1, 1, 1, 2), (0x6005, 1, 1, 0, 1)] op0 with
    ses := { cmem := m.map fun e => (2 ^ 48 + e.1, e.2) }, run := { tokens := [(12, 1)] }, txt := x }
/-- Stream 6 over vocabulary 15, in the state given. -/
def strm0 (st : TxtState) : TStream := ⟨1, st, 15, none, false, 0, [], [], [], 0, [], none⟩
def txt0 (x : TStream) : Txt := { vocabs := [(31, voc0)], streams := [(6, x)] }

/-- A copy of `n + k` bytes is a copy of `n` and then of `k`. -/
theorem copy_add (m d : Mem) (a i n k : Nat) :
    memWrite d i (memRead m a (n + k)) = memWrite (memWrite d i (memRead m a n)) (i + n) (memRead m (a + n) k) := by
  induction n generalizing d a i with
  | zero => simp [memRead, memWrite]
  | succ n ih =>
    have e : n + 1 + k = (n + k) + 1 := by omega
    rw [e, memRead, memRead, memWrite, memWrite, ih, Nat.add_right_comm i 1 n, Nat.add_right_comm a 1 n, Nat.add_assoc i n 1, Nat.add_assoc a n 1]
theorem copy_vocImg : memWrite [] 0 (memRead (vocImg.map fun e => (2 ^ 48 + e.1, e.2)) (2 ^ 48) 2121) = vocImg := by
  have e : 2121 = 512 + (512 + (512 + (512 + 73))) := rfl
  have h1 : memWrite [] 0 (memRead (vocImg.map fun e => (2 ^ 48 + e.1, e.2)) (2 ^ 48) 512) = vocImg.take 7 := by decide +kernel
  have h2 : memWrite (vocImg.take 7) (0 + 512) (memRead (vocImg.map fun e => (2 ^ 48 + e.1, e.2)) (2 ^ 48 + 512) 512) = vocImg.take 7 := by
    decide +kernel
  have h3 : memWrite (vocImg.take 7) (0 + 512 + 512) (memRead (vocImg.map fun e => (2 ^ 48 + e.1, e.2)) (2 ^ 48 + 512 + 512) 512)
      = vocImg.take 7 := by decide +kernel
  have h4 : memWrite (vocImg.take 7) (0 + 512 + 512 + 512) (memRead (vocImg.map fun e => (2 ^ 48 + e.1, e.2)) (2 ^ 48 + 512 + 512 + 512) 512)
      = vocImg.take 7 := by decide +kernel
  rw [e, copy_add, h1, copy_add, h2, copy_add, h3, copy_add, h4]
  decide +kernel

theorem image_vocImg {s : State} (h : s.ses.cmem = vocImg.map fun e => (2 ^ 48 + e.1, e.2)) : s.image 1 0 2121 = vocImg := by
  unfold State.image State.cread
  rw [h]
  exact copy_vocImg
theorem vocOk_vocImg : vocOk vocImg 2121 = true := by decide +kernel

/-- No token event waits. -/
theorem noEvent {s : State} {c n : Nat} (h : s.txt.events = []) : NoEventFirst s c n := by
  unfold NoEventFirst; rw [h]; rfl
theorem wit_TextCommands_vocabLoad :
    let e := ent 0xA0 (15 + 2121 * 2 ^ 128)
    let t := took (opX vocImg {}) e
    Accepted (ringed (opX vocImg {}) e) t 0 0 h0 (.vocabLoad 15 0 2121) [] ∧ (2121 : W32).toNat ≤ 33554432
    ∧ (0 : BitVec 48).toNat + (2121 : W32).toNat ≤ 2 ^ 48
    ∧ BlocksFit t 1 (((tblFind t.txt.vocabs 31).map fun v => imgBlocks v.len).getD 0) (imgBlocks (2121 : W32).toNat)
    ∧ vocOk (t.image 1 0 2121) 2121 = true :=
  ⟨acc_ok (by decide +kernel), by decide +kernel, by decide +kernel, ⟨by decide +kernel, by decide +kernel⟩, by
    rw [image_vocImg (by decide +kernel)]; exact vocOk_vocImg⟩
theorem wit_TextCommands_vocabRemove :
    let s := opX [] { vocabs := [(31, voc0)] }
    let t := took s (ent 0xA1 15)
    Accepted (ringed s (ent 0xA1 15)) t 0 0 h0 (.vocabRemove 15) [] ∧ (tblFind t.txt.vocabs 31).isSome = true
    ∧ tblAny t.txt.streams (fun _ x => x.ctx == 1 && x.vocab == 15) = false := ⟨acc_ok (by decide +kernel), by decide +kernel, by decide +kernel⟩
/-- Sixteen strings, the first of 64 bytes, the others of one. -/
def lens0 : BitVec 128 := BitVec.ofNat 128 ((2 ^ 128 - 1) / 255 + 63)
theorem wit_TextCommands_stopset :
    let e := ent 0xA2 (255 + 15 * 2 ^ 8 + lens0.toNat * 2 ^ 128)
    let t := took (opX [] {}) e
    Accepted (ringed (opX [] {}) e) t 0 0 h0 (.stopsetSet 255 15 0 lens0) []
    ∧ (∀ x ∈ t.stopStrings 1 0 16 lens0, x ≠ [] ∧ x.length ≤ 64 ∧ utf8Ok x = true)
    ∧ (0 : BitVec 48).toNat + (64 * (15 : BitVec 4).toNat + bits lens0.toNat 127 120) ≤ 2 ^ 48
    ∧ tblCount t.txt.stops (fun j _ => j / 256 == 1) < t.obj 0x6001 2 1 ∧ t.txt.stops.length < 2048 :=
  ⟨acc_ok (by decide +kernel), by decide +kernel, by decide +kernel, by decide +kernel, by decide +kernel⟩
theorem wit_TextCommands_open :
    let e := ent 0xA3 (6 + 15 * 2 ^ 16 + 0xFFFF * 2 ^ 32)
    let e' := ent 0xA3 (6 + 15 * 2 ^ 16 + 255 * 2 ^ 32)
    let s := opX [] { vocabs := [(31, voc0)], stops := [(511, [[65]])] }
    Accepted (ringed s e) (took s e) 0 0 h0 (.streamOpen 6 15 0xFFFF false 0) [] ∧ NoEventFirst (ringed s e) 1 6
    ∧ Accepted (ringed s e') (took s e') 0 0 h0 (.streamOpen 6 15 255 false 0) []
    ∧ (took s e).strmIn 1 6 = true ∧ (took s e).strm 6 = none ∧ (took s e).voc 1 15 = some voc0 ∧ voc0.damaged = false
    ∧ (tblFind (took s e').txt.stops 511).isSome = true :=
  ⟨acc_ok (by decide +kernel), noEvent rfl, acc_ok (by decide +kernel), by decide +kernel, by decide +kernel, by decide +kernel, rfl, by decide +kernel⟩
/-- A token event of stream 6 that can be applied now. -/
theorem wit_TextCommands_eventFirst :
    let e : TokEvent := ⟨1, 0, 0, 6, 0, false, 1, 0, some 0⟩
    let s := opX [] { txt0 (strm0 .open) with events := [e] }
    s.txt.events.find? (fun e => e.stream == 6 && e.ctx == 1) = some e ∧ e.till.isSome = true := by decide +kernel
theorem wit_TextCommands_close :
    let s := opX [] (txt0 (strm0 .ended))
    let u := opX [] (txt0 (strm0 .open))
    Accepted (ringed s (ent 0xA4 6)) (took s (ent 0xA4 6)) 0 0 h0 (.streamClose 6) [] ∧ NoEventFirst (ringed s (ent 0xA4 6)) 1 6
    ∧ (took s (ent 0xA4 6)).ownStrm 1 6 = some (strm0 .ended) ∧ (strm0 .ended).state ≠ .open ∧ (strm0 .ended).queue = []
    ∧ Accepted (ringed u (ent 0xA4 6)) (took u (ent 0xA4 6)) 0 0 h0 (.streamClose 6) []
    ∧ (took u (ent 0xA4 6)).ownStrm 1 6 = some (strm0 .open) ∧ (strm0 .open).state = .open ∧ (strm0 .open).queue = [] :=
  ⟨acc_ok (by decide +kernel), noEvent rfl, by decide +kernel, by decide +kernel, rfl, acc_ok (by decide +kernel), by decide +kernel, rfl, rfl⟩
theorem wit_TextCommands_tokenize :
    let e := ent 0xA5 (6 + 1 * 2 ^ 16 + 16777216 * 2 ^ 128 + 64 * 2 ^ 192 + 16777219 * 2 ^ 256)
    let s := opX [] (txt0 (strm0 .open))
    Accepted (ringed s e) (took s e) 0 0 h0 (.tokenize 6 true 0 16777216 64 16777219) [] ∧ NoEventFirst (ringed s e) 1 6
    ∧ (took s e).ownStrm 1 6 = some (strm0 .open) ∧ (strm0 .open).state = .open
    ∧ 1 ≤ (16777216 : W32).toNat ∧ (16777216 : W32).toNat ≤ 16777216 ∧ (64 : BitVec 48).toNat % 64 = 0
    ∧ (16777216 : W32).toNat + 3 ≤ (16777219 : W32).toNat ∧ (0 : BitVec 48).toNat + (16777216 : W32).toNat ≤ 2 ^ 48
    ∧ (64 : BitVec 48).toNat + 4 * ((16777216 : W32).toNat + 3) ≤ 2 ^ 48 :=
  ⟨acc_ok (by decide +kernel), noEvent rfl, by decide +kernel, rfl, by decide +kernel, by decide +kernel, by decide +kernel, by decide +kernel,
    by decide +kernel, by decide +kernel⟩
/-- Stream 6 with a TOKENIZE of one byte at address 2120 whose lane work is done. -/
def strmT : TStream := { strm0 .open with queue := [⟨0, 0, 0, true, 2120, 1, 64, 0, 0, some 0, 0, 0⟩] }
theorem wit_TextCommands_done :
    let s := opX vocImg (txt0 strmT)
    let d := opX vocImg { vocabs := [(31, { voc0 with damaged := true })], streams := [(6, strmT)] }
    TokenizeRun s 6 strmT ⟨0, 0, 0, true, 2120, 1, 64, 0, 0, some 0, 0, 0⟩ [] voc0 ∧ memWf s.ses.cmem = true
    ∧ (tokenizeBytes voc0.image (s.obj 0x6002 1 strmT.ctx == 1) true strmT.carry (s.cread strmT.ctx 2120 1)).1.length ≤ 4
    ∧ s.uncopied strmT.ctx 64 (4 * (tokenizeBytes voc0.image (s.obj 0x6002 1 strmT.ctx == 1) true strmT.carry (s.cread strmT.ctx 2120 1)).1.length) = []
    ∧ TokenizeRun d 6 strmT ⟨0, 0, 0, true, 2120, 1, 64, 0, 0, some 0, 0, 0⟩ [] { voc0 with damaged := true } := by
  refine ⟨⟨?_, ?_, rfl, rfl, ?_, ?_⟩, ?_, ?_, ?_, ⟨?_, ?_, rfl, rfl, ?_, ?_⟩⟩ <;> decide +kernel

theorem wit_GrammarsAndTokenEvents_load :
    let e := ent 0xA6 63
    let t := took (opX gramImg {}) e
    Accepted (ringed (opX gramImg {}) e) t 0 0 h0 (.grammarLoad 63 0) [] ∧ 144 = t.cnum 1 (0 + 8) 4 ∧ 0 + max 64 144 ≤ 2 ^ 48
    ∧ 144 ≤ 16777216 ∧ BlocksFit t 1 (((tblFind t.txt.grammars 127).map fun v => imgBlocks v.len).getD 0) (imgBlocks 144)
    ∧ gramOk (t.image 1 0 144) = true :=
  ⟨acc_ok (by decide +kernel), by decide +kernel, by decide +kernel, by decide, ⟨by decide +kernel, by decide +kernel⟩, by decide +kernel⟩
/-- Stream 6 open, with grammar 63 installed. -/
def txtG (x : TStream) : Txt := { txt0 x with grammars := [(127, ⟨gramImg, 144, false⟩)] }
theorem wit_GrammarsAndTokenEvents_remove :
    let s := opX [] (txtG (strm0 .open))
    let t := took s (ent 0xA7 63)
    Accepted (ringed s (ent 0xA7 63)) t 0 0 h0 (.grammarRemove 63) [] ∧ (tblFind t.txt.grammars 127).isSome = true
    ∧ tblAny t.txt.streams (fun _ x => x.ctx == 1 && x.inst.any fun i => i.grammar == 63) = false :=
  ⟨acc_ok (by decide +kernel), by decide +kernel, by decide +kernel⟩
theorem wit_GrammarsAndTokenEvents_bind :
    let e := ent 0xA8 (6 + 63 * 2 ^ 16 + 0x3FFFF * 2 ^ 32 + 64 * 2 ^ 64)
    let s := opX [] (txtG (strm0 .open))
    let t := took s e
    Accepted (ringed s e) t 0 0 h0 (.grammarBind 6 63 0x3FFFF 64) [] ∧ NoEventFirst (ringed s e) 1 6
    ∧ (ringed s e).bindWaits 1 6 = false ∧ (64 : BitVec 48).toNat % 64 = 0 ∧ (64 : BitVec 48).toNat + 32832 ≤ 2 ^ 48 ∧ (ringed s e).uncopied 1 64 32832 = []
    ∧ t.ownStrm 1 6 = some (strm0 .open) ∧ (strm0 .open).inst = none ∧ t.gram 1 63 = some ⟨gramImg, 144, false⟩
    ∧ t.instsHeld 1 < t.obj 0x6005 1 1 ∧ tblCount t.txt.streams (fun _ y => y.inst.isSome) < 4096
    ∧ ((t.laneTake 1 (512 + (gramConf gramImg (gramStart gramImg) 0).length)).settleInst 6 1 gramImg
        ⟨63, 64, none, 0, gramStart gramImg, [], false, 0⟩).2.1 = false :=
  ⟨acc_ok (by decide +kernel), noEvent rfl, by decide +kernel, by decide +kernel, by decide +kernel, by decide +kernel, by decide +kernel, rfl, by decide +kernel, by decide +kernel, by decide +kernel, by decide +kernel⟩
theorem wit_GrammarsAndTokenEvents_unbind :
    let s := opX [] (txtG (strm0 .open))
    Accepted (ringed s (ent 0xA9 6)) (took s (ent 0xA9 6)) 0 0 h0 (.grammarUnbind 6) [] ∧ NoEventFirst (ringed s (ent 0xA9 6)) 1 6
    ∧ (took s (ent 0xA9 6)).ownStrm 1 6 = some (strm0 .open) := ⟨acc_ok (by decide +kernel), noEvent rfl, by decide +kernel⟩
/-- Token 0 waits for stream 6. -/
def ev0 : TokEvent := ⟨1, 0, 0, 6, 0, false, 1, 0, some 0⟩
def opEv (x : TStream) : State := opX [] { txtG x with events := [ev0] }
/-- Stream 6 bound, at a state its grammar says nothing of. -/
def bound0 : TStream := { strm0 .open with inst := some ⟨63, 64, none, 0, 5, [], false, 0⟩ }
theorem wit_GrammarsAndTokenEvents_events :
    (opEv (strm0 .open)).textUp = true ∧ (opEv (strm0 .open)).txt.events.find? (fun e => e.stream == 6) = some ev0
    ∧ (opEv (strm0 .open)).eventReady ev0 = true ∧ (opEv (strm0 .open)).ownStrm ev0.ctx 6 = some (strm0 .open)
    ∧ (opEv (strm0 .ended)).ownStrm ev0.ctx 6 = some (strm0 .ended) ∧ (strm0 .ended).state ≠ .open
    ∧ (opEv (strm0 .open)).voc 1 15 = some voc0 ∧ ev0.token < vocTokens voc0.image
    ∧ vocSpFirst voc0.image + vocSpCount voc0.image ≤ ev0.token
    ∧ (opEv bound0).ownStrm ev0.ctx 6 = some bound0 := by decide +kernel
theorem wit_GrammarsAndTokenEvents_steps :
    (opEv (strm0 .open)).gramStep 1 (strm0 .open).inst ev0.token = .free
    ∧ (opEv bound0).gramStep 1 bound0.inst ev0.token = .rejected := by
  refine ⟨rfl, ?_⟩
  have h : (match (opEv bound0).gramStep 1 bound0.inst ev0.token with | .rejected => true | _ => false) = true := by decide +kernel
  generalize (opEv bound0).gramStep 1 bound0.inst ev0.token = r at h
  cases r <;> first | rfl | simp at h

/-- Stream 6 bound at the start of its grammar, and in escape with token 0 as its escape token. -/
def bound1 : TStream := { strm0 .open with inst := some ⟨63, 64, none, 0, gramStart gramImg, [], false, 0⟩ }
def bound2 : TStream := { strm0 .open with inst := some ⟨63, 64, some 0, 1, gramStart gramImg, [], false, 0⟩ }
def gramCode (r : GramRes) : Nat := match r with | .free => 0 | .rejected => 1 | .escaped => 2 | .moved .. => 3
theorem wit_GrammarsAndTokenEvents_moved :
    gramCode ((opEv bound1).gramStep 1 bound1.inst ev0.token) = 3 ∧ (opEv bound1).uncopied 1 64 32832 = []
    ∧ (opEv bound1).ownStrm 1 6 = some bound1 ∧ gramCode ((opEv bound2).gramStep 1 bound2.inst ev0.token) = 2
    ∧ (opEv bound2).ownStrm 1 6 = some bound2 := by decide +kernel

/-! ### The host site -/

/-- The site with pair 63 as given, the others disabled. -/
def siteQ (p : Qp) : Site := { linkUp := true, resetting := false, qps := List.replicate 63 qpReset ++ [p] }
def opQ (p : Qp) : State := { op0 with site := siteQ p }
/-- A completion ring of 16 entries in host memory at address 0, enabled. -/
def pairH : Qp := { qpReset with want := true, enabled := true, cqLog2 := 4 }
def cqe0 : CqEntry := ⟨5, 0, 0, 1, 0, 0, 0, 0, 0⟩

theorem wit_HostSiteCommands_bringup :
    (let s := { live0 with dev := { dev0 with hostRail := 2 }, site := { (siteQ qpReset) with linkUp := false, bringing := true, retryAt := some 250000 } }
     s.dev.locked = true ∧ s.site.bringing = true ∧ s.dev.hostRail = 2 ∧ ([3, 0, 0, 0] : List Nat).length = 4
     ∧ (∀ x ∈ ([3, 0, 0, 0] : List Nat), x ≤ 3) ∧ (∃ x ∈ ([3, 0, 0, 0] : List Nat), x ≠ 0)
     ∧ s.site.retryAt = some 250000 ∧ s.site.linkUp = false ∧ 250000 ≤ s.tick) := by decide +kernel
theorem wit_HostSiteCommands_modules :
    (let s := { opQ qpReset with site := { siteQ qpReset with modules := [⟨3, 7, false⟩, ⟨3, 0, false⟩, ⟨0, 0, false⟩, ⟨1, 0, true⟩] } }
     s.live = true ∧ s.carries 0 = true ∧ s.carries 1 = true ∧ s.site.modules[0]? = some ⟨3, 7, false⟩ ∧ s.site.modules[1]? = some ⟨3, 0, false⟩
     ∧ s.site.modules[3]? = some ⟨1, 0, true⟩) := by decide +kernel
/-- `s` with module 1 up at full width; the header of its next transaction; `s` ready to apply it. -/
def carried (s : State) : State := { s with site := { s.site with modules := [⟨0, 0, false⟩, ⟨3, 2, false⟩, ⟨0, 0, false⟩, ⟨0, 0, false⟩] } }
def hdrS (n : Nat) : SiteHdr := ⟨1, BitVec.ofNat 12 n⟩
def turned (s : State) : State := (s.flitOk 1).modSite fun g => { g with hostHeld := [], hostSeq := (g.hostSeq + 1) % 4096 }
theorem inTurn_of {s : State} (h : (s.carries 1 && s.site.hostSeq == 4095 && s.site.hostHeld.isEmpty) = true) : InTurn s (turned s) (hdrS 4095) := by
  simp only [Bool.and_eq_true, beq_iff_eq, List.isEmpty_iff] at h
  exact ⟨h.1.1, h.1.2.symm, h.2, rfl⟩
/-- `s` whose next host transaction is the last before SEQ wraps. -/
def last_ (s : State) : State := { s with site := { s.site with hostSeq := 4095 } }
theorem wit_HostSiteCommands_turn :
    InTurn (last_ (carried (opQ qpReset))) (turned (last_ (carried (opQ qpReset)))) (hdrS 4095) ∧ (last_ (carried (opQ qpReset))).live = true
    ∧ (opQ qpReset).carries 1 = false
    ∧ (let s := carried (opQ qpReset)
       s.carries 1 = true ∧ 0 < ((hdrS 2047).seq.toNat + 4096 - s.site.hostSeq) % 4096
       ∧ ((hdrS 2047).seq.toNat + 4096 - s.site.hostSeq) % 4096 < 2048 ∧ tblFind s.site.hostHeld (hdrS 2047).seq.toNat = none
       ∧ 2048 ≤ ((hdrS 2048).seq.toNat + 4096 - s.site.hostSeq) % 4096)
    ∧ (let c := carried (opQ qpReset)
       let s := { c with site := { c.site with hostHeld := [(1, HostOp.sqTail 0 0)] } }
       s.carries 1 = true ∧ ((hdrS 1).seq.toNat + 4096 - s.site.hostSeq) % 4096 ≠ 0 ∧ (tblFind s.site.hostHeld (hdrS 1).seq.toNat).isSome = true) :=
  ⟨inTurn_of (by decide +kernel), by decide +kernel, by decide +kernel, by decide +kernel, by decide +kernel⟩
theorem wit_HostSiteCommands_writes :
    0x100000 % 16 = 0 ∧ (0x510000 - 4096) % 16 = 0 ∧ (List.replicate 4096 (0 : Byte)).length ≠ 0 ∧ (List.replicate 4096 (0 : Byte)).length % 16 = 0
    ∧ (List.replicate 4096 (0 : Byte)).length ≤ 4096
    ∧ 0x100000 ≤ 0x510000 - 4096 ∧ 0x510000 - 4096 + (List.replicate 4096 (0 : Byte)).length ≤ 0x510000 ∧ 8 % 16 ≠ 0
    ∧ (List.replicate 8 (0 : Byte)).length % 16 ≠ 0 ∧ 4096 < (List.replicate 4097 (0 : Byte)).length := by
  simp only [List.length_replicate]; decide
theorem wit_HostSiteCommands_doorbells :
    (let s := last_ (carried (opQ { pairH with cqCount := 15, cqTail := 15 }))
     InTurn s (turned s) (hdrS 4095) ∧ s.live = true ∧ (s.qp 63).enabled = true ∧ (14 : BitVec 16).toNat < (s.qp 63).cap
     ∧ (s.qp 63).cqHead < (s.qp 63).cap ∧ (14 : BitVec 16).toNat ≠ (s.qp 63).cqTail
     ∧ ((14 : BitVec 16).toNat + (s.qp 63).cap - (s.qp 63).cqHead) % (s.qp 63).cap ≤ (s.qp 63).cqCount
     ∧ (s.qp 63).cap ≤ (16 : BitVec 16).toNat)
    ∧ (let s := last_ (carried (opQ { pairH with cqCount := 2, cqTail := 2 }))
       InTurn s (turned s) (hdrS 4095) ∧ s.live = true ∧ (s.qp 63).enabled = true ∧ (3 : BitVec 16).toNat < (s.qp 63).cap
       ∧ (s.qp 63).cqHead < (s.qp 63).cap ∧ ((3 : BitVec 16).toNat ≠ (s.qp 63).cqTail ∨ (s.qp 63).cqCount ≠ (s.qp 63).cap)
       ∧ (s.qp 63).cqCount < ((3 : BitVec 16).toNat + (s.qp 63).cap - (s.qp 63).cqHead) % (s.qp 63).cap)
    ∧ (last_ (carried (ksRinged 0))).site.ks.enable = true :=
  ⟨⟨inTurn_of (by decide +kernel), by decide +kernel⟩, ⟨inTurn_of (by decide +kernel), by decide +kernel⟩, by decide +kernel⟩
theorem wit_HostSiteCommands_pairs :
    (let s := { opQ { qpReset with cqLog2 := 16 } with site := { siteQ { qpReset with cqLog2 := 16 } with wins := [(0, ⟨true, 63, 2048, 0⟩)] } }
     (s.qp 63).enabled = false ∧ (s.qp 63).cqInSite = false ∧ 4 ≤ (s.qp 63).cqLog2 ∧ (s.qp 63).cqLog2 ≤ 16
     ∧ s.hostOk 63 (s.qp 63).cqBase.toNat (128 * (s.qp 63).cap) = true ∧ s.site.qps.length = 64)
    ∧ (opQ pairH).pairBusy 63 = false ∧ (opQ { pairH with work := 1 }).pairBusy 63 = true ∧ (opQ pairH).site.qps.length = 64 := by decide +kernel
theorem wit_HostSiteCommands_latches :
    (opQ { pairH with latch := some 5 }).dev.siteFatal = false ∧ (opQ { pairH with latch := some 5 }).site.qps.length = 64 := by decide +kernel
theorem wit_HostSiteCommands_spill :
    (let s := opQ { pairH with spill := [cqe0] }
     s.live = true ∧ (s.qp 63).enabled = true ∧ (s.qp 63).spill = cqe0 :: [] ∧ (s.qp 63).cqCount < (s.qp 63).cap) := by decide +kernel
/-- An entry of type 0, of 0xFF, and of a command code between the groups. -/
theorem wit_HostSiteCommands_unknown :
    (ringed op0 (ent 0xFF 0)).headEntry 0 = some (.unknown 0xFF h0) ∧ (ringed op0 (ent 0xFF 0)).mayTake 0 (.unknown 0xFF h0) = true
    ∧ (ringed op0 (ent 0 0)).headEntry 0 = some (.unknown 0 h0) ∧ (ringed op0 (ent 0xB2 0)).headEntry 0 = some (.unknown 0xB2 h0)
    ∧ (ksRinged (ent 0xFF 0)).headEntry 64 = some (.unknown 0xFF h0) ∧ (ksRinged (ent 0xFF 0)).mayTake 64 (.unknown 0xFF h0) = true := by
  decide +kernel

theorem wit_CompletionsAndEvents :
    ((opQ pairH).site.qps.length = 64
      ∧ (let s := { opQ pairH with dev := { dev0 with siteFatal := true } }
         s.site.qps.length = 64 ∧ s.dev.siteFatal = true))
    ∧ ((opQ pairH).dev.siteFatal = false ∧ ((opQ pairH).qp 63).enabled = true ∧ ((opQ pairH).qp 63).spill = []
      ∧ ((opQ { pairH with cqCount := 15 }).qp 63).cqCount < ((opQ pairH).qp 63).cap
      ∧ ((opQ pairH).qp 63).cap ≤ ((opQ { pairH with cqCount := 16 }).qp 63).cqCount)
    ∧ ((opQ { pairH with cqCount := 16, resv := 240 }).qp 63).room false = false
    ∧ (((opQ pairH).qp 63).cqInSite = false ∧ ((opQ { pairH with cqTail := 15 }).qp 63).cqTail < ((opQ pairH).qp 63).cap)
    ∧ ((opQ { pairH with cqInSite := true }).qp 63).cqInSite = true ∧ memWf (opQ { pairH with cqInSite := true }).site.cqMem = true := by
  decide +kernel

/-! ### Checkpoints -/

/-- Context 1 with the checkpoint state `k`. -/
def opC (k : Ckpt) : State := { op0 with cks := { tbl := tblPut ckptNone [] 1 k } }
def man0 : Manifest := ⟨0, 0, 0, 0, 0, []⟩
/-- A step of context 1 that runs. -/
def runs1 (s : State) : State := { s with run := { steps := [(0, step0 dP)] } }

theorem wit_CheckpointEvents_cut :
    (opC { ckptNone with man := some man0, state := 1 }).live = true
    ∧ ((opC { ckptNone with man := some man0, state := 1 }).ckpt 1).man = some man0
    ∧ ((opC { ckptNone with man := some man0, state := 1 }).ckpt 1).state = 1
    ∧ (opC { ckptNone with man := some man0, state := 1 }).ctxRuns 1 = false
    ∧ opF.live = true ∧ opF.fabricUp = true
    ∧ ((runs1 (opC { ckptNone with man := some man0 })).ckpt 1).man = some man0
    ∧ (runs1 (opC { ckptNone with man := some man0 })).ctxRuns 1 = true := by decide +kernel
theorem wit_CheckpointEvents_hold :
    (let s := { runs1 (opC { ckptNone with state := 1 }) with dev := { dev0 with nclk := 2 ^ 60 } }
     s.live = true ∧ (s.ckpt 1).state = 1 ∧ s.ctxRuns 1 = true ∧ (s.ckpt 1).since + s.obj 0x8004 2 * 625 ≤ s.tick) := by decide +kernel
theorem wit_CheckpointEvents_copy :
    (let s := opC { ckptNone with state := 2 }
     (s.ckpt 1).state = 2 ∧ (s.ckpt 1).uncopied = [])
    ∧ (let f := 1 * 2 ^ 36 + (2 ^ 36 - 1)
       let s := { op0 with cks := { tbl := [(1, { ckptNone with state := 2, uncopied := [f] })], held := [(f, [])] } }
       (s.ckpt 1).state = 2 ∧ 1 * 2 ^ 36 + (2 ^ 36 - 1) ∈ (s.ckpt 1).uncopied ∧ (tblFind s.cks.held f).isSome = true) := by decide +kernel
/-- Contexts 0 and 1 whose cuts share a frame's die. -/
def opCuts : State :=
  { op0 with cks := { tbl := [(0, { ckptNone with state := 2, uncopied := [0] }), (1, { ckptNone with state := 2, uncopied := [0] })] } }
theorem wit_CheckpointEvents_waits : (opCuts.ckpt 1).state = 2 ∧ opCuts.cutWaits 1 = true := by
  refine ⟨by decide +kernel, ?_⟩
  have h1 : opCuts.cks.tbl = [(0, { ckptNone with state := 2, uncopied := [0] }), (1, { ckptNone with state := 2, uncopied := [0] })] := rfl
  have h2 : (opCuts.ckpt 1).uncopied = [0] := by decide +kernel
  unfold State.cutWaits
  rw [h1, h2]
  simp
/-- A ring sequence of one page, of `n` members; the page of the round after `rel` has landed. -/
def seqN (n : Nat) : SeqEnt := { seqR with ringTokens := 256, ringN := n }
def ring0 (rel : Nat) (v : VisitPage) : RingSt := { visits := [(rel + 1, [v])], credits := 0, released := rel, sentRound := 0, frames := [] }
theorem wit_CheckpointEvents_ring :
    (let r := ring0 0 visit0
     let p := { stepR [] with ring := some r, seqs := [seqN 2] }
     let s := onCore { core0 [0, 0] with ph := .ended } p
     s.stp 0 = some p ∧ p.ring = some r ∧ p.seqs.head? = some (seqN 2) ∧ p.waits = false ∧ p.fail = none ∧ tblGet [] r.visits (r.released + 1) = [visit0]
     ∧ r.released + 1 < (seqN 2).ringN ∧ ([visit0] : List VisitPage).length = ((seqN 2).block ((seqN 2).roundOf (r.released + 1))).length
     ∧ r.released + 2 = (seqN 2).ringN ∧ (∃ c ∈ s.run.cores, c.2.step = 0)
     ∧ ∀ c ∈ s.run.cores, c.2.step = 0 → c.2.ph = .ended ∨ ∃ a ∈ c.2.seg, a.1 % 64 = r.released + 2)
    ∧ (let v := { visit0 with done := true }
       let e := seqN 3
       let r := ring0 0 v
       let p := { stepR [] with ring := some r, seqs := [e] }
       let s := onCore { core0 [0, 0] with seg := [(2, 0)] } p
       s.stp 0 = some p ∧ r.released + 1 < e.ringN ∧ ([v] : List VisitPage).length = (e.block (e.roundOf (r.released + 1))).length
       ∧ (∀ w ∈ [v], w.done = true)
       ∧ ∀ c ∈ s.run.cores, c.2.step = 0 → c.2.ph = .ended ∨ ∃ a ∈ c.2.seg, a.1 % 64 = r.released + 2) := by decide +kernel

/-! ### Management -/

theorem serial_lt : serial < 2 ^ 128 := Nat.mod_lt _ (by decide)
theorem serial_ok : (BitVec.ofNat 128 serial).toNat = serial := by rw [BitVec.toNat_ofNat]; exact Nat.mod_eq_of_lt serial_lt
/-- Five images that fit each other: four empty modules of version 0, and a matrix whose one row names them. -/
def images0 : List (List Byte) := [[1], [1], [1], [1], [1, 0, 1]]
/-- The management controller in MGMT_STATE `st`, the key 5 in slot 15 with every right, other objects as given. -/
def mg0 (st : Nat) (o : List (Nat × Nat × Nat × Nat × Nat)) : State :=
  withObjs ([(0x1201, 1, 15, 0, 5), (0x1201, 2, 15, 0, 0x3F)] ++ o)
    { live0 with dev := { dev0 with mgmt := st }, mg := { banks := [], running := images0 } }
/-- A message with SEQ `n` under that key. -/
def hdr0 (n : Nat) : MgmtHdr := ⟨BitVec.ofNat 128 serial, 0, BitVec.ofNat 48 n, 15, 1, 2, 0, 128, true, some 5⟩

theorem auth_of {s : State} {n : Nat} (h : s.obj 0x1201 1 15 = 5) : s.authentic (hdr0 n) = true := by
  have e : (hdr0 n).keySlot.toNat = 15 := rfl
  unfold State.authentic
  dsimp only
  rw [e, h]
  simp only [hdr0, serial_ok, BEq.rfl]
  rfl
theorem heard_of {s : State} {n : Nat} (h : (s.mgmtUp && s.obj 0x1201 1 15 == 5 && (hdr0 n).seq != 0 && s.dev.bootEpoch == 0 && s.dev.mgmt != 0
    && !(tblGet winNone s.mg.wins 15).below (hdr0 n).seq.toNat && !decide ((hdr0 n).seq.toNat ∈ (tblGet winNone s.mg.wins 15).seen)) = true) :
    Heard s (hdr0 n) := by
  simp only [Bool.and_eq_true, beq_iff_eq, bne_iff_ne, Bool.not_eq_true', decide_eq_false_iff_not] at h
  exact ⟨h.1.1.1.1.1.1, auth_of h.1.1.1.1.1.2, rfl, rfl, h.1.1.1.1.2, by simpa [hdr0] using h.1.1.1.2.symm, h.1.1.2, h.1.2, h.2⟩

theorem wit_ManagementMessagesAreCheckedInOrder_early :
    live0.mgmtUp = false ∧ (mg0 2 []).mgmtUp = true ∧ (mg0 2 []).authentic { hdr0 1 with signer := none } = false := by
  refine ⟨by decide +kernel, by decide +kernel, ?_⟩
  unfold State.authentic
  rw [Bool.and_eq_false_iff]
  right
  decide +kernel
theorem wit_ManagementMessagesAreCheckedInOrder_format :
    (mg0 2 []).authentic (hdr0 0) = true ∧ (hdr0 0).seq = 0 ∧ 16 < (List.replicate 17 (item1 0x1203 2 0 1)).length
    ∧ ([] : List MgmtItem) = [] :=
  ⟨auth_of (by decide +kernel), by decide +kernel, by rw [List.length_replicate]; decide, rfl⟩
/-- Slot 15 has accepted SEQ `h`, and keeps the reply `r` to it. -/
def seen0 (h : Nat) (r : List (Nat × MgmtReply)) : State :=
  { mg0 2 [] with mg := { (mg0 2 []).mg with wins := [(15, ⟨h, [h], r⟩)] } }
theorem wit_ManagementMessagesAreCheckedInOrder_seq :
    (mg0 2 []).authentic (hdr0 1) = true ∧ (mg0 0 []).authentic (hdr0 1) = true ∧ (hdr0 1).mver = 1 ∧ (hdr0 1).bodyOk = true ∧ (hdr0 1).seq ≠ 0
    ∧ (hdr0 1).bootEpoch.toNat ≠ ({ mg0 2 [] with dev := { dev0 with bootEpoch := 1 } } : State).dev.bootEpoch
    ∧ (hdr0 1).bootEpoch.toNat = (mg0 2 []).dev.bootEpoch ∧ (mg0 2 []).dev.mgmt ≠ 0
    ∧ (mg0 0 []).mgmtUp = true ∧ (hdr0 1).bootEpoch.toNat = (mg0 0 []).dev.bootEpoch ∧ (mg0 0 []).dev.mgmt = 0
    ∧ (tblGet winNone (seen0 129 []).mg.wins 15).below (hdr0 1).seq.toNat = true
    ∧ (tblGet winNone (seen0 129 []).mg.wins 15).below (hdr0 2).seq.toNat = false
    ∧ (let w := tblGet winNone (seen0 1 [(1, ⟨3, 1, 0, 255, 0, [], 0⟩)]).mg.wins 15
       w.below (hdr0 1).seq.toNat = false ∧ (hdr0 1).seq.toNat ∈ w.seen ∧ tblFind w.replies (hdr0 1).seq.toNat = some ⟨3, 1, 0, 255, 0, [], 0⟩)
    ∧ (let w := tblGet winNone (seen0 1 []).mg.wins 15
       (hdr0 1).seq.toNat ∈ w.seen ∧ tblFind w.replies (hdr0 1).seq.toNat = none) :=
  ⟨auth_of (by decide +kernel), auth_of (by decide +kernel), by decide +kernel⟩

/-- A READ of row 0 of one object. -/
def rd1 (ix sub : Nat) : MgmtItem := { item1 ix sub 0 0 with len := 0 }
theorem wit_ManagementReadsAndWrites_ident :
    (mg0 2 []).mgmtUp = true ∧ (hdr0 1).lenOk = true ∧ (hdr0 1).serial.toNat = serial ∧ ({ hdr0 1 with serial := 0 } : MgmtHdr).serial.toNat = 0 :=
  ⟨by decide +kernel, rfl, serial_ok, rfl⟩
theorem wit_ManagementReadsAndWrites_claim :
    (let s := { live0 with dev := { dev0 with mgmt := 1 }, mg := { banks := [], running := images0 } }
     let m := { hdr0 1 with keySlot := 0xFE }
     s.mgmtUp = true ∧ m.serial.toNat = serial ∧ m.signer = some 5 ∧ m.keySlot.toNat = 0xFE ∧ m.mver = 1 ∧ m.bodyOk = true ∧ m.seq ≠ 0
     ∧ m.bootEpoch.toNat = s.dev.bootEpoch ∧ (5 : BitVec 256) ≠ 0 ∧ s.unclaimed = true ∧ s.dev.mgmt = 1)
    ∧ (mg0 2 []).unclaimed = false :=
  ⟨⟨by decide +kernel, serial_ok, rfl, rfl, rfl, rfl, by decide +kernel, rfl, by decide, by decide +kernel, rfl⟩, by decide +kernel⟩
theorem wit_ManagementReadsAndWrites_read :
    Heard (mg0 2 []) (hdr0 1) ∧ holdsRight (mg0 2 []) (hdr0 1) 0
    ∧ firstFail (itemForm · true) (List.replicate 16 (rd1 0x1203 1)) = none ∧ (List.replicate 16 (rd1 0x1203 1)).length = 16
    ∧ ((List.replicate 16 (rd1 0x1203 1)).map itemSize).foldl (· + ·) 0 ≤ 1104 :=
  ⟨heard_of (by decide +kernel), by decide +kernel, by decide +kernel, by decide +kernel, by decide +kernel⟩
theorem wit_ManagementReadsAndWrites_write :
    (let items := [item1 0x2101 3 0 3000, item1 0x1203 2 0 1]
     firstFail ((mg0 2 []).itemRule (items.foldl State.stageItem (mg0 2 [])) ((mg0 2 []).obj 0x1201 2 (hdr0 1).keySlot.toNat)) items = none)
    ∧ (let items := [item1 0x2101 3 0 3000, item1 0x1203 2 0 4]
       firstFail ((mg0 2 []).itemRule (items.foldl State.stageItem (mg0 2 [])) ((mg0 2 []).obj 0x1201 2 (hdr0 1).keySlot.toNat)) items
         = some (stMgmtState, 1))
    ∧ stMgmtState ≠ stCkptManifest ∧ stMgmtState ≠ stCkptSpace := by decide +kernel

theorem wit_ManagementCommandsAct_heard :
    Heard (mg0 1 []) (hdr0 (2 ^ 48 - 1)) ∧ Heard (mg0 2 []) (hdr0 1) ∧ Heard (mg0 3 []) (hdr0 1) ∧ tblWf (mg0 2 []).mg.objs = true :=
  ⟨heard_of (by decide +kernel), heard_of (by decide +kernel), heard_of (by decide +kernel), by decide +kernel⟩
theorem wit_ManagementCommandsAct_states :
    holdsRight (mg0 2 []) (hdr0 1) 2 ∧ (mg0 2 []).dev.mgmt = 2 ∧ (mg0 2 []).ctxs = [] ∧ (mg0 1 []).dev.mgmt = 1 ∧ (mg0 1 []).mg.untested = false
    ∧ (mg0 3 []).dev.mgmt = 3 ∧ (mg0 3 []).mg.untested = false ∧ holdsRight (mg0 2 []) (hdr0 1) 1 ∧ holdsRight (mg0 2 []) (hdr0 1) 5 := by
  decide +kernel
theorem wit_ManagementCommandsAct_rows :
    (3 : BitVec 8).toNat < 4 ∧ (∀ d, d < 4 → (mg0 2 []).dieFenced d = false ∧ (mg0 2 []).dieInReset d = false) ∧ (mg0 2 []).profile ≠ 2
    ∧ (mg0 2 []).obj 0x5000 1 (255 : BitVec 8).toNat = 0 ∧ (3700 : BitVec 16).toNat % 100 = 0 ∧ (1200 : BitVec 16).toNat % 100 = 0
    ∧ ((mg0 2 []).setObj 0x2101 3 0 0 (3700 : BitVec 16).toNat).capOk = true ∧ ((mg0 2 []).setObj 0x2101 3 0 0 (1200 : BitVec 16).toNat).capOk = true
    ∧ (1100 : BitVec 16).toNat % 5 = 0 ∧ (mg0 1 []).dev.hostRail = 0 ∧ (mg0 2 []).quiescing = false ∧ (mg0 2 []).mg.act = none
    ∧ (∀ p, p < 18 → (mg0 2 []).portInReset p = false) := by decide +kernel
theorem wit_ManagementCommandsAct_busy :
    let s := { mg0 2 [(0x5000, 1, 255, 0, 1)] with txt := { streams := [(0, { strm0 .ended with ctx := 255 })] } }
    Heard s (hdr0 1) ∧ s.obj 0x5000 1 (255 : BitVec 8).toNat = 1 ∧ s.holdsWork (255 : BitVec 8).toNat = true ∧ s.profile ≠ 2 :=
  ⟨heard_of (by decide +kernel), by decide +kernel, by decide +kernel, by decide +kernel⟩

/-- Lease 1 of context 1: 300 frames of Tier 3. -/
def leaseC : Lease := { lease0 3 0 with rcd := { leaseRec0 3 0 with len := 300 } }
/-- The manifest of context 1 at address 4,096: one tensor of 64 bytes at address 0; the restore list at 8,192 names lease 1. -/
def manNum : Nat := 1 + 2 ^ 16 + 2 ^ 116 + 8192 * 2 ^ 192 + 2 ^ 240 + 12288 * 2 ^ 256
def tensorNum : Nat := let v := 64 + 2 ^ 32 + 2 ^ 64 + 2 ^ 96; 8 + v * 2 ^ 384 + v * 2 ^ 640
def opCk : State :=
  { mg0 2 [(0x5000, 1, 1, 0, 1), (0x8001, 1, 1, 0, 4096), (0x8000, 1, 0, 0, 1), (0x8000, 1, 1, 0, 1), (0x8000, 1, 2, 0, 1), (0x8000, 1, 3, 0, 1)] with
    ses := { leases := [(4097, leaseC)]
             cmem := memWrite (memWrite (memWrite [] (2 ^ 48 + 4096) (leBytes 64 manNum)) (2 ^ 48 + 4160) (leBytes 128 tensorNum)) (2 ^ 48 + 8192)
               (leBytes 66 (1 + 2 ^ 16 + 2 ^ 512)) } }
/-- A trigger passes its checks where the shards' frames fit the shadow area of any one die. -/
theorem ckptStart_ok {s : State} {m : Manifest} {t : State} (h0 : (s.ckpt 1).state = 0) (h1 : s.manifestOf 1 = some m)
    (h2 : s.takeSlots 1 m.lease (s.ckpt 1) = some t) (h3 : (t.shardRuns 1 m.lease m.shards).isNone = false) (h4 : s.cks.tbl = [])
    (h5 : ∀ d < 4, (coverOf 1 m.shards).length ≤ 512 * s.obj 0x8000 1 d) : ∃ u, s.ckptStart 1 0 = .ok u := by
  have h6 : ((List.range 4).all fun d => decide (((coverOf 1 m.shards).filter fun f => frameDie f == d).length + s.shadowUsed d
      ≤ 512 * s.obj 0x8000 1 d)) = true := by
    rw [List.all_eq_true]
    intro d hd
    have hu : s.shadowUsed d = 0 := by unfold State.shadowUsed; rw [h4]; rfl
    have := h5 d (List.mem_range.mp hd)
    have := List.length_filter_le (fun f => frameDie f == d) (coverOf 1 m.shards)
    rw [decide_eq_true_iff, hu]
    omega
  unfold State.ckptStart
  simp only [h0, h1, h2, h3, h6]
  exact ⟨_, rfl⟩
/-- What `ckptStart_ok` asks, by computation. -/
def ckptB (s : State) : Bool :=
  (s.ckpt 1).state == 0 && s.cks.tbl == [] && match s.manifestOf 1 with
    | none => false
    | some m => match s.takeSlots 1 m.lease (s.ckpt 1) with
      | none => false
      | some t => !(t.shardRuns 1 m.lease m.shards).isNone && (List.range 4).all fun d => decide ((coverOf 1 m.shards).length ≤ 512 * s.obj 0x8000 1 d)
theorem ckptB_ok {s : State} (h : ckptB s = true) : ∃ u, s.ckptStart 1 0 = .ok u := by
  unfold ckptB at h
  simp only [Bool.and_eq_true, beq_iff_eq] at h
  obtain ⟨⟨h0, h4⟩, h⟩ := h
  split at h
  · simp at h
  · rename_i m hm
    split at h
    · simp at h
    · rename_i t ht
      simp only [Bool.and_eq_true, Bool.not_eq_true', List.all_eq_true, List.mem_range, decide_eq_true_iff] at h
      exact ckptStart_ok h0 hm ht h.1 h4 h.2
theorem wit_ManagementCommandsAct_checkpoints :
    Heard opCk (hdr0 1) ∧ (∃ t, opCk.ckptStart 1 0 = .ok t) ∧ (∃ u, (written opCk (hdr0 1)).ckptStart 1 0 = .ok u)
    ∧ (∃ t, opCk.restoreStart 1 = .ok t) ∧ ∃ u, (written opCk (hdr0 1)).restoreStart 1 = .ok u :=
  ⟨heard_of (by decide +kernel), ckptB_ok (by decide +kernel), ckptB_ok (by decide +kernel), okE_of (by decide +kernel), okE_of (by decide +kernel)⟩

/-! ### Firmware -/

/-- Kind `k` staged with the bytes `b` in STATE `st`. -/
def staged0 (k st : Nat) (b : List Byte) : State :=
  { mg0 3 [] with mg := { (mg0 3 []).mg with stage := (List.replicate 5 ⟨0, [], 0⟩).set k ⟨st, b, 0⟩ } }
/-- 1,024 bytes whose header asks for far more. -/
def chunk0 : List Byte := List.replicate 35 0 ++ 1 :: List.replicate 988 0

theorem wit_FirmwareImages_data :
    (Heard (staged0 0 1 chunk0) (hdr0 1) ∧ holdsRight (staged0 0 1 chunk0) (hdr0 1) 3 ∧ (staged0 0 1 chunk0).dev.mgmt ≠ 4 ∧ (4 : BitVec 8).toNat ≤ 4
      ∧ (staged0 0 1 chunk0).activating 0 = false ∧ (staged0 0 1 chunk0).activating 4 = false)
    ∧ (let st := (staged0 0 1 chunk0).mg.stage.getD 0 ⟨0, [], 0⟩
       (1024 : W32) ≠ 0 ∧ (1024 : W32).toNat % 1024 = 0 ∧ (1024 : W32).toNat = st.bytes.length ∧ st.state = 1 ∧ imgComplete 0 st.bytes = false
       ∧ (1024 : W32).toNat + 1024 ≤ imgMax 0)
    ∧ (1024 : W32).toNat < ((staged0 0 1 (chunk0 ++ [0])).mg.stage.getD 0 ⟨0, [], 0⟩).bytes.length :=
  ⟨⟨heard_of (by decide +kernel), by decide +kernel, by decide +kernel, by decide, by decide +kernel, by decide +kernel⟩, by decide +kernel,
    by decide +kernel⟩
theorem wit_FirmwareImages_verified :
    (let b := List.replicate 256 (0 : Byte)
     (staged0 4 1 b).powered = true ∧ (staged0 4 1 b).mg.stage[4]? = some ⟨1, b, 0⟩ ∧ imgComplete 4 b = true
     ∧ (staged0 3 1 b).mg.stage[3]? = some ⟨1, b, 0⟩ ∧ imgComplete 3 b = true) := by decide +kernel
theorem wit_FirmwareImages_activate :
    Heard (staged0 0 2 [1]) (hdr0 1) ∧ holdsRight (staged0 0 2 [1]) (hdr0 1) 3 ∧ (staged0 0 2 [1]).activateRule (0 : BitVec 8).toNat = none
    ∧ (staged0 4 2 [1, 0, 1]).activateRule (4 : BitVec 8).toNat = none ∧ (staged0 1 2 [1]).activateRule (1 : BitVec 8).toNat = none :=
  ⟨heard_of (by decide +kernel), by decide +kernel, by decide +kernel, by decide +kernel, by decide +kernel⟩
theorem wit_FirmwareImages_commit :
    let s := { mg0 2 [] with mg := { (mg0 2 []).mg with banks := [(0, [1]), (2, [1]), (4, [1]), (6, [1]), (8, [1, 0, 1])] } }
    Heard s (hdr0 1) ∧ holdsRight s (hdr0 1) 3 ∧ s.dev.mgmt ≠ 4 ∧ s.commitRule = none :=
  ⟨heard_of (by decide +kernel), by decide +kernel, by decide +kernel, by decide +kernel⟩
/-- An activation under way. -/
def acting (a : Activation) : State := { op0 with mg := { op0.mg with act := some a } }
theorem wit_FirmwareImages_done :
    (let a : Activation := ⟨3, [], none, none⟩
     (acting a).mg.act = some a ∧ (acting a).live = true ∧ a.todo = [] ∧ a.current = none ∧ (acting a).quiescing = false)
    ∧ (let a : Activation := ⟨2, [1, 2, 3], some 0, some 250000⟩
       (acting a).mg.act = some a ∧ (acting a).live = true ∧ a.kind = 2 ∧ a.current = some 0 ∧ a.drainTill = some 250000
       ∧ 250000 ≤ (acting a).tick ∧ (∀ e ∈ (acting a).run.steps, e.2.waits = true ∨ ∀ g ∈ e.2.quads, g / 64 ≠ 0)
       ∧ (let p := { step0 dP with quads := [0] }
          let s := { acting a with run := { steps := [(0, p)] } }
          s.mg.act = some a ∧ s.live = true ∧ 250000 ≤ s.tick ∧ tblWf s.run.steps = true ∧ s.stp 0 = some p ∧ p.waits = false
          ∧ ∃ g ∈ p.quads, g / 64 = 0)) := by decide +kernel

/-! ### Power, sensors, reset -/

theorem wit_PowerAndSensors_start :
    State.reset.powered = false ∧ 57000 ≤ 63000 ∧ 63000 ≤ 63000
    ∧ (let s := { live0 with dev := { dev0 with power := .starting, mgmt := 0, hbmSt := List.replicate 12 0 } }
       s.dev.power = .starting ∧ s.live = true ∧ s.dev.rstHeld = false ∧ s.dev.mgmt = 0) := by decide
theorem wit_PowerAndSensors_supply :
    live0.powered = true ∧ 51999 < 52000 ∧ 66000 < 66001 ∧ live0.dev.supplyWarn = false ∧ 52000 ≤ 56999 ∧ 56999 < 57000
    ∧ tblWf live0.mg.objs = true
    ∧ (let s := { live0 with dev := { dev0 with nclk := 25000000, supplyWarn := true, supplyOk := some 0 } }
       s.powered = true ∧ s.dev.supplyOk = some 0 ∧ 0 + 6250000 ≤ s.tick)
    ∧ (let s := { live0 with dev := { dev0 with hostRail := 2 } }
       s.powered = true ∧ s.dev.hostRail = 2) := by decide +kernel
theorem wit_PowerAndSensors_sensors :
    (List.replicate 17 (2500 : Int)).length = 17 ∧ live0.dev.locked = true ∧ live0.dev.temps.length = 17
    ∧ (∀ i, i < 17 → live0.dev.warned[i]? = some false ∧ live0.dev.throttled[i]? = some false ∧ (2500 : Int) < 100 * (live0.limits i).1
      ∧ (live0.limits i).1 ≤ (live0.limits i).2.1 ∧ (live0.limits i).1 ≤ (live0.limits i).2.2) := by decide +kernel
theorem wit_PowerAndSensors_reset :
    live0.dev.siteFatal = false ∧ live0.powered = true ∧ live0.dev.locked = true
    ∧ ¬(live0.dev.power = .starting ∧ live0.dev.nclk = 0) ∧ live0.dev.rstHeld = false
    ∧ (let s := { live0 with dev := { dev0 with rstHeld := true } }
       s.powered = true ∧ s.dev.rstHeld = true)
    ∧ (let s := { live0 with dev := { dev0 with power := .starting, nclk := 0, bootEpoch := 65535 } }
       s.powered = true ∧ s.dev.power = .starting ∧ s.dev.nclk = 0 ∧ s.dev.rstHeld = false ∧ s.dev.bootEpoch < 65536) ∧ ({ live0 with dev := { dev0 with rstHeld := true, mgmt := 0 } } : State).powered = true
    ∧ (let s := { live0 with err := { degraded := some 250000 } }
       s.live = true ∧ s.err.degraded = some 250000 ∧ 250000 ≤ s.tick) := by decide +kernel
theorem wit_PowerAndSensors_dies :
    (live0.live = true ∧ live0.dev.power = .up ∧ live0.islandUp 3 = true ∧ live0.dieFenced 3 = false ∧ live0.otherFenced 3 = false)
    ∧ (let s := { live0 with dev := { dev0 with dies := (⟨none, true⟩ : DieSt) :: List.replicate 3 (⟨none, false⟩ : DieSt) } }
       s.dieFenced 3 = false ∧ s.otherFenced 3 = true) := by decide +kernel

/-- The plinth in phase `x`. -/
def inPhase (x : PlinthPh) : State := { live0 with dev := { dev0 with nclk := 2 ^ 60, plinth := x } }
theorem wit_ResetPhases_plinth :
    (inPhase (.quiesce 0 false)).live = true ∧ (inPhase (.quiesce 0 false)).anyRuns = false
    ∧ 0 + (inPhase (.quiesce 0 false)).obj 0x2100 3 * 625 ≤ (inPhase (.quiesce 0 false)).tick
    ∧ (let s := runs1 { live0 with dev := { dev0 with plinth := .quiesce 250000 false } }
       s.dev.plinth = .quiesce 250000 false ∧ s.anyRuns = true ∧ s.tick < 250000 + s.obj 0x2100 3 * 625)
    ∧ ((inPhase (.ending 0 true)).dev.plinth = .ending 0 true ∧ (∀ p ∈ (inPhase (.ending 0 true)).site.qps, p.spill = [])
      ∧ 0 + 62500 ≤ (inPhase (.ending 0 true)).tick)
    ∧ (inPhase (.reset 0 true)).dev.plinth = .reset 0 true := by decide +kernel
theorem wit_ResetPhases_dies :
    let s := { live0 with dev := { dev0 with nclk := 2 ^ 60, dies := List.replicate 3 (⟨none, false⟩ : DieSt) ++ [(⟨some 0, false⟩ : DieSt)] } }
    s.live = true ∧ s.dieInReset 3 = true ∧ s.dev.dies.length = 4 ∧ (s.dev.dies[3]?).bind (·.resetAt) = some 0 ∧ 0 + 3125000 ≤ s.tick := by
  decide +kernel

/-! ### The whole machine -/

theorem wit_AStoppedDeviceStaysAsItIs :
    State.reset.live = false ∧ (live0.withPending [.nop 0]).live = true ∧ ({ live0 with dev := { dev0 with siteFatal := true } } : State).live = false
    ∧ actsWhenStopped (.nop 1023) = false ∧ (Instr.nop 1023).wf = true ∧ State.reset.pending = [] ∧ ∃ t, step State.reset = .next t :=
  ⟨rfl, rfl, rfl, rfl, rfl, rfl, _, rfl⟩
theorem wit_AStoppedDeviceStaysAsItIs_writes :
    let s := last_ (carried { opQ qpReset with dev := { dev0 with siteFatal := true } })
    InTurn s (turned s) (hdrS 4095) ∧ s.live = false ∧ 64 ≤ 64 ∧ 63 < 64 := ⟨inTurn_of (by decide +kernel), by decide +kernel, by decide, by decide⟩
theorem wit_MemoryStaysCanonical :
    State.reset.memOk = true ∧ (∃ t, step State.reset = .next t) ∧ (opX vocImg {}).memOk = true
    ∧ ∃ t, step ((opX vocImg {}).withPending [.siteBringupRetry]) = .next t := by
  refine ⟨by decide, ⟨_, rfl⟩, by decide +kernel, ?_⟩
  exact ⟨_, rfl⟩

end Sys2Proof.Tests
end

/-! PROOFS. E4M3 block scales (02_arithmetic.md R36, R39, R41, R45). Read: `e4m3s` looks at the low seven bits of a code.
Written: each encoder takes its scale from a quotient of the largest magnitude of a block, whose sign is clear all the
way, and a value of clear sign has a code of clear sign bit. -/

namespace Sys2Proof.Machine

/-! ### Scale codes as they are read -/

/-- The block scale of FP4S (code 0xC) is an E4M3 scale. -/
theorem scaleVal_fp4s (c : Nat) : scaleVal 12 c = e4m3s c := rfl

theorem e4m3s_mod (c : Nat) : e4m3s (c % 128) = e4m3s c := by
  simp only [e4m3s, Nat.mod_mod]

theorem e4m3s_eq_nan {c : Nat} (hc : c % 128 = 127) : e4m3s c = .nan := by
  rw [e4m3s, hc]
  rfl

@[simp] theorem numMul_nan_right (x : Num) : numMul x .nan = .nan := by
  cases x <;> rfl

/-! ### Values whose sign is clear -/

/-- The sign of the value is not set; a NaN has none. -/
def SignClear : Num → Prop
  | .nan => True
  | .inf neg | .fin neg _ _ => neg = false

@[simp] theorem signClear_nan : SignClear .nan := trivial
@[simp] theorem signClear_inf (neg : Bool) : SignClear (.inf neg) ↔ neg = false := Iff.rfl
@[simp] theorem signClear_fin (neg : Bool) (m : Nat) (e : Int) : SignClear (.fin neg m e) ↔ neg = false := Iff.rfl

theorem numAbs_signClear (v : Num) : SignClear (numAbs v) := by
  cases v <;> simp [numAbs]

theorem numMax_signClear {a b : Num} (ha : SignClear a) (hb : SignClear b) : SignClear (numMax a b) := by
  unfold numMax
  split_ifs
  · exact signClear_nan
  · exact hb
  · exact ha

theorem foldl_numMax_numAbs_signClear (l : List Num) {a : Num} (ha : SignClear a) :
    SignClear (l.foldl (fun a x => numMax a (numAbs x)) a) := by
  induction l generalizing a with
  | nil => exact ha
  | cons x l ih => exact ih (numMax_signClear ha (numAbs_signClear x))

theorem amax_signClear (l : List Num) : SignClear (amax l) :=
  foldl_numMax_numAbs_signClear l ((signClear_fin _ _ _).2 rfl)

/-! ### Codes of values whose sign is clear -/

/-- Without a sign the code of a magnitude is at most the one after the largest finite value, which in the IEEE formats
is infinity. -/
theorem encMag_pos_le (f : Elem) (md : Rnd) (p q : Nat) (sh : Int) : encMag f md false p q sh ≤ elemMax f + 1 := by
  have hsign : signBit f false = 0 := rfl
  cases f
  case int8 =>
    have hmin : encMag .int8 md false p q sh ≤ 127 := Nat.min_le_right _ _
    exact Nat.le_succ_of_le hmin
  all_goals
    simp only [encMag, hsign]
    split_ifs <;> omega

theorem of32_signClear {code : Nat} (h : code < 2 ^ 31) : SignClear (of32 code) := by
  have hbit : bit code (elemBits .fp32 - 1) = false := Nat.testBit_lt_two_pow h
  simp only [of32, elemDec, hbit]
  split_ifs <;> simp

theorem div32_signClear {a b : Num} (ha : SignClear a) (hb : SignClear b) : SignClear (div32 a b) := by
  have hcode (m n : Nat) (k : Int) : encMag .fp32 .rne false m n k < 2 ^ 31 :=
    (encMag_pos_le .fp32 .rne m n k).trans_lt (by decide)
  cases a with
  | nan => exact signClear_nan
  | inf x => cases b <;> simp_all [div32]
  | fin x m e =>
    cases b with
    | nan => exact signClear_nan
    | inf y => simp_all [div32]
    | fin y n k =>
      obtain rfl : x = false := ha
      obtain rfl : y = false := hb
      simp only [div32]
      split_ifs
      · exact signClear_nan
      · exact (signClear_inf _).2 rfl
      · exact of32_signClear (hcode m n (e - k))

/-- The E4M3 code of a value of clear sign has a clear sign bit. -/
theorem elemEnc_e4m3_lt (md : Rnd) {v : Num} (hv : SignClear v) : elemEnc .e4m3 md v < 128 := by
  cases v with
  | nan => exact Nat.lt_succ_self 127
  | inf neg => exact Nat.lt_succ_self 127
  | fin neg m e =>
    obtain rfl : neg = false := hv
    exact (encMag_pos_le .e4m3 md m 1 e).trans_lt (by decide)

/-- The scales of R41 and R45: the largest magnitude of a list, divided by a constant and rounded into E4M3. -/
theorem elemEnc_div32_amax_lt (l : List Num) (m : Nat) (e : Int) :
    elemEnc .e4m3 .up (div32 (amax l) (.fin false m e)) < 128 :=
  elemEnc_e4m3_lt .up (div32_signClear (amax_signClear l) ((signClear_fin _ _ _).2 rfl))

/-! ### Scale codes as they are written -/

theorem fp4sBlock_scale_lt (md : Rnd) (vs : List Num) : (fp4sBlock md vs).1 < 128 := by
  unfold fp4sBlock
  split_ifs
  · dsimp only
    split
    · exact Nat.zero_lt_succ 127
    · exact elemEnc_div32_amax_lt vs 6 0
  · exact Nat.lt_succ_self 127

theorem pk3Block_scale_lt (r : List Num) : (pk3Block r).1 < 128 := by
  unfold pk3Block
  split_ifs
  · exact elemEnc_div32_amax_lt r 7 (-1)
  · exact Nat.lt_succ_self 127

theorem pk8Channel_scale_lt (fill : Nat) (x : Nat → Num) : (pk8Channel fill x).1 < 128 := by
  unfold pk8Channel
  dsimp only
  split
  · decide
  · exact elemEnc_div32_amax_lt ((List.range fill).map x) 448 0

/-- Settles O46: a scale is read modulo 128, the code 127 is NaN, which any product keeps, and each encoder writes the
code of a value of clear sign. -/
theorem scaleSignsAndNaNs : Obligations.ScaleSignsAndNaNs := by
  unfold Obligations.ScaleSignsAndNaNs
  refine ⟨fun c => ?_, fun c x hc => ?_, fp4sBlock_scale_lt, pk3Block_scale_lt, pk8Channel_scale_lt⟩
  · simp only [scaleVal_fp4s, e4m3s_mod, and_self]
  · simp only [scaleVal_fp4s, e4m3s_eq_nan hc, numMul_nan_right, and_self]

end Sys2Proof.Machine

/-! PROOFS. Rules for cores and their steps (03_cores_and_courses.md), which the proofs of its statements share: tables,
stores with their written lines, operand addresses, cores and steps after an update, and how a core goes on. -/

namespace Sys2Proof.Machine

/-! ### Tables: an entry changed, entries kept -/

theorem tblFind_tblMod_self {α : Type} (t : Table α) (k : Nat) (f : α → α) : tblFind (tblMod t k f) k = (tblFind t k).map f := by
  unfold tblMod
  split
  next a h => simp [h]
  next h => simp [h]

theorem tblFind_tblMod_of_ne {α : Type} (t : Table α) {j k : Nat} (f : α → α) (h : j ≠ k) :
    tblFind (tblMod t k f) j = tblFind t j := by
  unfold tblMod
  split
  · exact tblFind_tblIns_of_ne _ _ h
  · rfl

/-- A lookup finds only entries of the table. -/
theorem mem_of_tblFind {α : Type} {t : Table α} {k : Nat} {a : α} (h : tblFind t k = some a) : (k, a) ∈ t := by
  induction t with
  | nil => cases h
  | cons e t ih =>
    obtain ⟨j, b⟩ := e
    rw [tblFind_cons] at h
    split at h
    next hj => rw [← hj, ← Option.some.inj h]; exact List.mem_cons_self
    next => exact List.mem_cons_of_mem _ (ih h)

/-- A filter that looks at the keys alone keeps an entry or drops it whole. -/
theorem tblFind_tblKeep_key {α : Type} (t : Table α) (p : Nat → Bool) (k : Nat) :
    tblFind (tblKeep t fun j _ => p j) k = if p k then tblFind t k else none := by
  induction t with
  | nil => simp [tblKeep]
  | cons e t ih =>
    obtain ⟨j, b⟩ := e
    unfold tblKeep at ih ⊢
    by_cases hj : j = k
    · subst hj
      by_cases hp : p j = true
      · simp [hp, tblFind_cons]
      · simpa [hp] using ih
    · by_cases hp : p j = true <;> simp [hp, tblFind_cons, hj, ih]

/-! ### Stores (R73) -/

theorem Store.get_of_written {m : Store} {a : Nat} (h : (tblFind m.wr (a / 256)).isSome = true) : m.get a = memGet m.mem a := by
  simp [Store.get, h]

theorem Store.get_of_not_written {m : Store} {a : Nat} (h : tblFind m.wr (a / 256) = none) : m.get a = 0 := by
  simp [Store.get, h]

@[simp] theorem Store.read_length (m : Store) (a n : Nat) : (m.read a n).length = n := by simp [Store.read]

theorem Store.read_getD (m : Store) (a : Nat) {n i : Nat} (h : i < n) : (m.read a n).getD i 0 = m.get (a + i) := by
  simp [Store.read, h]

/-- Opening a line changes no byte that a read sees. -/
theorem Store.get_open1 (m : Store) (l x : Nat) : (m.open1 l).get x = m.get x := by
  unfold Store.open1
  split
  · rfl
  next hl =>
    rw [Option.not_isSome_iff_eq_none] at hl
    by_cases hx : x / 256 = l
    · have hw : (tblFind (tblIns m.wr l ()) (x / 256)).isSome = true := by simp [hx]
      rw [m.get_of_not_written (hx ▸ hl), Store.get_of_written hw]
      exact memGet_memZero_inside _ _ _ _ (by omega) (by omega)
    · simp only [Store.get, tblFind_tblIns_of_ne _ _ hx]
      rw [memGet_memZero_outside _ _ _ _ (by omega)]

theorem Store.memWf_open1 {m : Store} (h : memWf m.mem = true) (l : Nat) : memWf (m.open1 l).mem = true := by
  unfold Store.open1
  split
  · exact h
  · exact memWf_memZero h _ _

theorem Store.written_open1 (m : Store) (l x : Nat) :
    (tblFind (m.open1 l).wr x).isSome = true ↔ x = l ∨ (tblFind m.wr x).isSome = true := by
  unfold Store.open1
  split
  next hl => exact ⟨.inr, fun h => h.elim (· ▸ hl) id⟩
  next =>
    by_cases hx : x = l
    · simp [hx]
    · simp [hx, tblFind_tblIns_of_ne]

/-- Opening lines: no byte that a read sees changes, the form is kept, and the lines are written now. -/
theorem Store.foldl_open1 (ls : List Nat) {m : Store} (h : memWf m.mem = true) :
    (∀ x, (ls.foldl Store.open1 m).get x = m.get x) ∧ memWf (ls.foldl Store.open1 m).mem = true
    ∧ ∀ x, (tblFind (ls.foldl Store.open1 m).wr x).isSome = true ↔ x ∈ ls ∨ (tblFind m.wr x).isSome = true := by
  induction ls generalizing m with
  | nil => simp [h]
  | cons l ls ih =>
    obtain ⟨hg, hw, ho⟩ := ih (Store.memWf_open1 h l)
    refine ⟨fun x => (hg x).trans (m.get_open1 l x), hw, fun x => ?_⟩
    rw [List.foldl_cons, ho, Store.written_open1, List.mem_cons]
    tauto

/-- Every byte of a range lies on a line that the range touches. -/
theorem div_mem_storeLines {a n i : Nat} (h : i < n) : (a + i) / 256 ∈ storeLines a n := by
  have hn : n ≠ 0 := by omega
  simp only [storeLines, hn, if_false, span, List.mem_map, List.mem_range]
  exact ⟨(a + i) / 256 - a / 256, by omega, by omega⟩

/-- Writing a store (R73): the bytes written are there, every other byte reads as before. -/
theorem storeSet_write {m : Store} (h : memWf m.mem = true) (a : Nat) (bs : List Byte) :
    storeSet m (m.write a bs) a bs.length fun i => bs.getD i 0 := by
  obtain ⟨hg, hw, ho⟩ := Store.foldl_open1 (storeLines a bs.length) h
  refine ⟨fun i hi => ?_, fun x hx => ?_⟩
  · have hopen : (tblFind (m.write a bs).wr ((a + i) / 256)).isSome = true := (ho _).2 (.inl (div_mem_storeLines hi))
    rw [Store.get_of_written hopen]
    exact memGet_memWrite_inside hw a i bs hi
  · rw [← hg x]
    simp only [Store.write, Store.get, memGet_memWrite_outside _ _ _ _ hx]

/-- Bytes read elsewhere and written: the copy. -/
theorem storeSet_write_read {m : Store} (h : memWf m.mem = true) (b : Nat) (src : Store) (a n : Nat) :
    storeSet m (m.write b (src.read a n)) b n fun i => src.get (a + i) := by
  obtain ⟨hin, hout⟩ := storeSet_write h b (src.read a n)
  rw [Store.read_length] at hin hout
  exact ⟨fun i hi => (hin i hi).trans (src.read_getD a hi), hout⟩

/-! ### Operand addresses (R76) -/

theorem wrap64_add (x : W64) (v : Int) : wrap 64 ((x.toNat : Int) + v) = (x + BitVec.ofInt 64 v).toNat := by
  rw [wrap, BitVec.toNat_add, BitVec.toNat_ofInt]
  omega

/-- A signed 32-bit offset. -/
theorem Core.addr_off32 (c : Core) (r : BitVec 4) (v : W32) : c.addr r (off32 v) = (padd c r v).toNat := by
  rw [Core.addr, wrap64_add]; rfl

theorem Core.ofNat_addr_off32 (c : Core) (r : BitVec 4) (v : W32) : BitVec.ofNat 64 (c.addr r (off32 v)) = padd c r v := by
  rw [c.addr_off32, BitVec.ofNat_toNat, BitVec.setWidth_eq]

/-- An operand of local store: the two conditions of R76. -/
theorem lsOk_iff (a n : Nat) : lsOk a n = true ↔ a % 64 = 0 ∧ a + n ≤ 0x180000 := by
  simp only [lsOk, Bool.and_eq_true, beq_iff_eq, decide_eq_true_eq]
  rfl

theorem lenOk_iff (f : FmtT) : lenOk f = true ↔ lenGood f := by
  simp [lenOk, lenGood, and_assoc]

/-! ### Cores and steps after an update -/

@[simp] theorem State.core_setCore_self (s : State) (k : Nat) (c : Core) : (s.setCore k c).core k = some c :=
  tblFind_tblIns_self _ _ _

theorem State.core_setCore_of_ne (s : State) {j k : Nat} (c : Core) (h : j ≠ k) : (s.setCore k c).core j = s.core j :=
  tblFind_tblIns_of_ne _ _ h

@[simp] theorem State.stp_setStp_self (s : State) (n : Nat) (p : Step) : (s.setStp n p).stp n = some p := tblFind_tblIns_self _ _ _
theorem State.stp_updStp_self (s : State) (n : Nat) (f : Step → Step) : (s.updStp n f).stp n = (s.stp n).map f :=
  tblFind_tblMod_self _ _ _

/-- What a running step is: it is there, it runs, and the device is live. -/
theorem State.running_eq_some {s : State} {n : Nat} {p : Step} :
    s.running n = some p ↔ s.stp n = some p ∧ s.live = true ∧ p.ph = .running := by
  unfold State.running
  cases h : s.stp n with
  | none => simp
  | some q =>
    simp only [Option.some.injEq, Bool.and_eq_true, beq_iff_eq]
    split
    next hr =>
      simp only [Option.some.injEq]
      exact ⟨fun e => ⟨e, hr.1, e ▸ hr.2⟩, fun e => e.1⟩
    next hr =>
      simp only [reduceCtorEq, false_iff]
      rintro ⟨rfl, hl, hp⟩
      exact hr ⟨hl, hp⟩

/-! ### How a core goes on (R72, R74) -/

theorem State.retireIsn_eq_retired (s : State) (k : Nat) {c : Core} (cost : Nat) (h : c.ip + 1 < c.istore.length) :
    s.retireIsn k c cost = retired s k c cost := s.retireIsn_inside cost h

/-- Running past the last instruction (R72). -/
theorem State.retireIsn_eq_stopped (s : State) (k : Nat) {c : Core} (cost : Nat) (h : c.istore.length ≤ c.ip + 1) :
    s.retireIsn k c cost = stopped s c stInstr := if_neg (Nat.not_lt.mpr h)

theorem State.goTo_eq_branched (s : State) (k : Nat) {c : Core} {t : Nat} (h : t < c.istore.length) :
    s.goTo k c 2 t = branched s k c t := s.goTo_inside 2 h

/-- A branch at or beyond PROG_LEN. -/
theorem State.goTo_eq_stopped (s : State) (k : Nat) {c : Core} (cost : Nat) {t : Nat} (h : c.istore.length ≤ t) :
    s.goTo k c cost t = stopped s c stInstr := if_neg (Nat.not_lt.mpr h)

end Sys2Proof.Machine

/-! PROOFS. The sequencer's own instructions (03 R72, R74, R98): pointers, counters, branches, failures and END. Each
instruction has one rule, which says what becomes of a core that stands at it; the statements follow from the rules. -/

namespace Sys2Proof.Machine

section
variable {s : State} {k : Nat} {f : FmtC} {c : Core} {p : Step}

/-! ### Outcomes of an instruction -/

@[simp] theorem State.did_ok (s : State) (k : Nat) (c c' : Core) (cost : Nat) : s.did k c (.ok c' cost) = s.retireIsn k c' cost := rfl
@[simp] theorem State.did_stop (s : State) (k : Nat) (c : Core) (st : Nat) : s.did k c (.stop st) = stopped s c st := rfl

theorem cReg_of_lt (d : Did) (h : f.dst.toNat < 8) : cReg f d = d := if_neg (Nat.not_le.mpr h)
theorem cReg_of_le (d : Did) (h : 8 ≤ f.dst.toNat) : cReg f d = .stop stInstr := if_pos h

/-! ### One rule per instruction -/

theorem exec_nop (h : s.atIsn k .nop = some (c, p)) : exec (.nop k) s = .next (s.retireIsn k c 1) := State.coreIsn_at _ h

theorem exec_setp (h : s.atIsn k (.setp f) = some (c, p)) :
    exec (.setp k f) s = .next (s.retireIsn k { c with p := c.p.set f.dst.toNat f.imm64 } 1) := State.coreIsn_at _ h

theorem exec_addp (h : s.atIsn k (.addp f) = some (c, p)) :
    exec (.addp k f) s = .next (s.retireIsn k { c with p := c.p.set f.dst.toNat (padd c f.src f.imm32) } 1) := by
  rw [← c.ofNat_addr_off32]
  exact State.coreIsn_at _ h

theorem exec_setc (h : s.atIsn k (.setc f) = some (c, p)) :
    exec (.setc k f) s = .next (s.did k c (cReg f (.ok { c with c := c.c.set f.dst.toNat f.imm32 } 1))) := State.coreIsn_at _ h

theorem exec_setk (h : s.atIsn k (.setk f) = some (c, p)) :
    exec (.setk k f) s = .next (s.did k c (if 4 ≤ f.dst.toNat then .stop stInstr else .ok { c with k := c.k.set f.dst.toNat f.imm32 } 1)) :=
  State.coreIsn_at _ h

/-- LDC of a counter that exists, from an operand in local store. -/
theorem exec_ldc {a : Nat} (h : s.atIsn k (.ldc f) = some (c, p)) (hr : f.dst.toNat < 8)
    (ha : a = (c.p.getD f.src.toNat 0 + (f.imm64.setWidth 21).setWidth 64).toNat) (hok : lsOk a 4 = true) :
    exec (.ldc k f) s = .next (s.did k c (if f.imm32.toNat < leNat (c.ls.read a 4) then .stop stCounterBound
      else .ok { c with c := c.c.set f.dst.toNat (BitVec.ofNat 32 (leNat (c.ls.read a 4))) } 4)) := by
  have hoff : BitVec.ofInt 64 ((f.imm64.toNat % 2 ^ 21 : Nat) : Int) = (f.imm64.setWidth 21).setWidth 64 := by
    apply BitVec.eq_of_toNat_eq
    simp only [BitVec.toNat_ofInt, BitVec.toNat_setWidth]
    omega
  have haddr : c.addr f.src (f.imm64.toNat % 2 ^ 21 : Nat) = a := by rw [ha, Core.addr, wrap64_add, hoff]
  refine (State.coreIsn_at _ h).trans ?_
  dsimp only
  rw [cReg_of_lt _ hr, haddr, hok]
  rfl

theorem exec_loop (h : s.atIsn k (.loop f) = some (c, p)) (hr : f.dst.toNat < 8) :
    exec (.loop k f) s = .next (if c.c.getD f.dst.toNat 0 - 1 = 0
      then s.retireIsn k { c with c := c.c.set f.dst.toNat (c.c.getD f.dst.toNat 0 - 1) } 2
      else s.goTo k { c with c := c.c.set f.dst.toNat (c.c.getD f.dst.toNat 0 - 1) } 2 (f.imm64.toNat % 2048)) := by
  refine (State.coreIsn_at _ h).trans ?_
  dsimp only
  rw [cReg_of_lt _ hr, apply_ite (s.did k c)]
  rfl

theorem exec_brc (h : s.atIsn k (.brc f) = some (c, p)) :
    exec (.brc k f) s = .next (s.did k c (cReg f (match cmpOf f.cmp (c.c.getD f.dst.toNat 0) f.imm32 with
      | none => .stop stInstr
      | some true => .goto c 2 (f.imm64.toNat % 2048)
      | some false => .ok c 2))) := State.coreIsn_at _ h

theorem exec_jmp (h : s.atIsn k (.jmp f) = some (c, p)) : exec (.jmp k f) s = .next (s.goTo k c 2 (f.imm64.toNat % 2048)) :=
  State.coreIsn_at _ h

theorem exec_unlistedOpcode {op : BitVec 8} (h : s.atIsn k (.unlisted op) = some (c, p)) :
    exec (.unlistedOpcode k op) s = .next (stopped s c stInstr) := State.coreIsn_at _ h

theorem cmpOf_reserved {m : BitVec 3} (a b : W32) (h : 4 ≤ m.toNat) : cmpOf m a b = none := by
  unfold cmpOf
  split
  · omega
  · omega
  · omega
  · omega
  · rfl

end

/-! ### Instructions that write registers, and branches -/

/-- Settles O4: the rule of each instruction, at a core whose instruction is not the last. -/
theorem pointerAndCounterWrites : Obligations.PointerAndCounterWrites := by
  unfold Obligations.PointerAndCounterWrites
  intro s k f c p
  refine ⟨fun ⟨h, hin⟩ => ?_, fun ⟨h, hin⟩ => ?_, fun ⟨h, hin⟩ => ?_, fun ⟨h, hin⟩ hr => ?_, fun ⟨h, hin⟩ hr => ?_⟩
  · simp only [exec_nop h, State.retireIsn_eq_retired, hin]
  · simp only [exec_setp h, State.retireIsn_eq_retired, hin]
  · simp only [exec_addp h, State.retireIsn_eq_retired, hin]
  · simp only [exec_setc h, cReg_of_lt _ hr, State.did_ok, State.retireIsn_eq_retired, hin]
  · simp only [exec_setk h, if_neg (Nat.not_le.mpr hr), State.did_ok, State.retireIsn_eq_retired, hin]

/-- Settles O5: the rule of each instruction, its target inside the program. -/
theorem countersAndBranches : Obligations.CountersAndBranches := by
  unfold Obligations.CountersAndBranches
  intro s k f c p
  refine ⟨fun a ⟨h, hin⟩ hr ha hal hend hv => ?_, fun v ⟨h, hin⟩ hr hv hz => ?_, fun v ⟨h, hin⟩ hr hv hz ht => ?_,
    fun b ⟨h, hin⟩ hr hb ht => ?_, fun ⟨h, _⟩ ht => ?_⟩
  · simp only [exec_ldc h hr ha ((lsOk_iff _ _).2 ⟨hal, hend⟩), if_neg (Nat.not_lt.mpr hv), State.did_ok,
      State.retireIsn_eq_retired, hin]
  · subst hv
    simp only [exec_loop h hr, if_pos hz, State.retireIsn_eq_retired, hin]
  · subst hv
    simp only [exec_loop h hr, if_neg hz, State.goTo_eq_branched, ht]
  · rw [exec_brc h, cReg_of_lt _ hr, hb]
    cases b
    · exact congrArg _ (State.retireIsn_eq_retired _ _ _ hin)
    · exact congrArg _ (State.goTo_eq_branched _ _ ht)
  · rw [exec_jmp h, State.goTo_eq_branched _ _ ht]

/-! ### What ends a step -/

theorem sequencerFaults : Sys2Proof.Parts.SequencerFaults := by
  unfold Sys2Proof.Parts.SequencerFaults
  intro s k f c p op
  refine ⟨fun ⟨h, _⟩ => exec_unlistedOpcode h, fun ⟨h, _⟩ hr => ?_, fun ⟨h, _⟩ hr => ?_, fun ⟨h, _⟩ hm => ?_,
    fun ⟨h, _⟩ ht => ?_, fun a ⟨h, _⟩ hr ha hal hend hv => ?_⟩
  · rw [exec_setc h, cReg_of_le _ hr, State.did_stop]
  · rw [exec_setk h, if_pos hr, State.did_stop]
  · rw [exec_brc h, cmpOf_reserved _ _ hm, cReg, ite_self, State.did_stop]
  · rw [exec_jmp h, State.goTo_eq_stopped _ _ _ ht]
  · rw [exec_ldc h hr ha ((lsOk_iff _ _).2 ⟨hal, hend⟩), if_pos hv, State.did_stop]

theorem runningPastTheEndStops : Sys2Proof.Parts.RunningPastTheEndStops := by
  unfold Sys2Proof.Parts.RunningPastTheEndStops
  intro s k f c p hend
  refine ⟨fun h => ?_, fun h => ?_, fun h => ?_⟩
  · rw [exec_nop h, State.retireIsn_eq_stopped _ _ _ hend]
  · simp only [exec_setp h, State.retireIsn_eq_stopped, hend]; rfl
  · simp only [exec_addp h, State.retireIsn_eq_stopped, hend]; rfl

/-- The failure a step notes: the new one, unless one of this cycle at a position no higher, or one of an earlier
cycle, stands (R98). -/
def notedFailure (old : Option StepFail) (f : StepFail) : StepFail :=
  match old with
  | some o => if o.at_ = f.at_ ∧ f.pos < o.pos then f else o
  | none => f

theorem notedFailure_new {old : Option StepFail} {f : StepFail} (h : ∀ o, old = some o → o.at_ = f.at_ ∧ f.pos < o.pos) :
    notedFailure old f = f := by
  cases old with
  | none => rfl
  | some o => exact if_pos (h o rfl)

theorem notedFailure_old {o f : StepFail} (h : ¬(o.at_ = f.at_ ∧ f.pos < o.pos)) : notedFailure (some o) f = o := if_neg h

/-- What a step notes when it fails. -/
theorem State.stp_stepFail {s : State} {n : Nat} {p : Step} (pos ip st : Nat) (h : s.stp n = some p) :
    (s.stepFail n pos ip st).stp n = some { p with fail := some (notedFailure p.fail ⟨st, pos, ip, s.aclk⟩) } := by
  unfold State.stepFail
  rw [h]
  dsimp only
  split <;> exact State.stp_setStp_self _ _ _

/-- The core that failed stands still. -/
theorem State.core_stepFail {s : State} {n k pos : Nat} {p : Step} {c : Core} (ip st : Nat) (h : s.stp n = some p)
    (hk : p.cores[pos]? = some k) (hc : s.core k = some c) (hn : c.step = n) :
    (s.stepFail n pos ip st).core k = some { c with ph := .failed } := by
  unfold State.stepFail
  rw [h]
  dsimp only
  rw [hk]
  refine (tblFind_tblMod_self _ _ _).trans ?_
  rw [show tblFind (s.setStp n _).run.cores k = some c from hc, Option.map_some, if_pos hn]

theorem failuresEndTheStep : Sys2Proof.Parts.FailuresEndTheStep := by
  unfold Sys2Proof.Parts.FailuresEndTheStep
  intro s n pos ip st p _ h
  refine ⟨⟨_, State.stp_stepFail pos ip st h, fun ho => ?_, fun o ho hlate => ?_⟩, fun k c hk _ hc hn => State.core_stepFail ip st h hk hc hn,
    fun f hs hf hat => ?_⟩
  · exact congrArg some (notedFailure_new ho)
  · rw [ho]
    exact congrArg some (notedFailure_old hlate)
  · simp only [State.endFailed, State.each, hs, List.foldl_cons, List.foldl_nil, hf, hat, if_true]

/-- Settles O6: each fault by its own rule, the last index by the rule of retirement, and a failure by the order in which it is noted. -/
theorem sequencerStops : Obligations.SequencerStops :=
  ⟨sequencerFaults, runningPastTheEndStops, failuresEndTheStep⟩

/-- Settles O7: `retired` and `branched` are both one update of core `k`. -/
theorem retiringChangesOnlyItsCore : Obligations.RetiringChangesOnlyItsCore := by
  unfold Obligations.RetiringChangesOnlyItsCore
  intro s t k c n ht
  obtain ⟨i, b, rfl⟩ : ∃ i b, t = s.setCore k { c with ip := i, busyUntil := b, ph := .run } := by
    rcases ht with rfl | rfl <;> exact ⟨_, _, rfl⟩
  refine ⟨fun j hj => State.core_setCore_of_ne _ _ hj, ?_, ?_⟩
  · rw [State.core_setCore_self]; rfl
  · exact ⟨fun _ => rfl, fun _ _ _ => rfl, fun _ => rfl, fun _ => rfl, fun _ => rfl, rfl, rfl, rfl, rfl⟩

/-! ### END (R69, R74) -/

/-- The condition under which a step ends with its last END. -/
theorem State.allEnded_iff (s : State) (p : Step) :
    s.allEnded p = true ↔ p.ph = .running ∧ p.cores ≠ [] ∧ p.ringDone = true ∧ p.fail = none
      ∧ ∀ e ∈ s.cores p, e.2.ph = .ended ∧ ∀ r ∈ e.2.queue, r.kind = .wr → s.uncopied p.ctx r.caddr r.len = [] := by
  simp only [State.allEnded, Bool.and_eq_true, Bool.or_eq_true, Bool.not_eq_true', beq_iff_eq, bne_iff_ne, List.all_eq_true,
    List.isEmpty_iff, List.isEmpty_eq_false_iff, Option.isNone_iff_eq_none, ne_eq, Decidable.imp_iff_not_or, and_assoc]

/-- Settles O8: a core reaches END as it reaches any common point, and the step ends when `State.allEnded` holds. -/
theorem endOfAProgram : Obligations.EndOfAProgram := by
  unfold Obligations.EndOfAProgram
  refine ⟨fun s k c p l h hl => ?_, fun s k c p h hl => ?_, fun s n p hp hrun hc hring hfail he => ?_, fun s n p hp ⟨e, he, hne⟩ => ?_⟩
  · refine (State.coreIsn'_at _ h).trans ?_
    rw [hl]
  · refine (State.coreIsn'_at _ h).trans ?_
    rw [hl]
    rfl
  · have hall : s.allEnded p = true := (s.allEnded_iff p).2 ⟨hrun, hc, hring, hfail, he⟩
    simp only [State.finish, hp, hall, if_true, State.each]
  · have hall : ¬ s.allEnded p = true := fun hall => by
      obtain ⟨_, _, _, _, hall⟩ := (s.allEnded_iff p).1 hall
      exact hne (hall e he).1
    simp only [State.finish, hp, hall]
    rfl

end Sys2Proof.Machine

/-! PROOFS. Copies between stores, the vector unit and conversions (03 R70, R74, R76, R77), and the cores of a course that
differ or have drifted (03 R68, R69). -/

namespace Sys2Proof.Machine

/-! ### Copies between stores (R70, R74) -/

theorem ceilDiv_64_of_dvd {n : Nat} (h : n % 64 = 0) : ceilDiv n 64 = n / 64 := by
  unfold ceilDiv
  omega

/-- An operand of the own slice of cluster store; of a KEYSTONE step it ends below 0x28000 (10 R300). -/
theorem csOk_iff (core : Nat) (p : Step) (a n : Nat) :
    csOk core p.ks a n = true
      ↔ 0x40000 * (core % 16) ≤ a ∧ a + n ≤ 0x40000 * (core % 16) + if p.d.jclass = 0 then 0x28000 else 0x40000 := by
  simp only [csOk, within, Step.ks, Bool.and_eq_true, decide_eq_true_eq, beq_iff_eq]

section
variable {s : State} {k : Nat} {c : Core} {p : Step} {f : FmtT}

/-- DMA.LS of a length that R75 allows. -/
theorem exec_dmaLs (h : s.atIsn k (.dmaLs f) = some (c, p)) (hl : lenGood f) :
    exec (.dmaLs k f) s = .next (s.did k c
      (if !lsOk (padd c f.ps f.soff).toNat f.len.toNat || !lsOk (padd c f.pd f.doff).toNat f.len.toNat then .stop stAddrFault
       else .ok { c with ls := c.ls.write (padd c f.pd f.doff).toNat (c.ls.read (padd c f.ps f.soff).toNat f.len.toNat) }
        (8 + f.len.toNat / 64))) := by
  refine (State.coreIsn_at _ h).trans ?_
  simp only [c.addr_off32, (lenOk_iff f).2 hl, ceilDiv_64_of_dvd hl.1, Bool.not_true, Bool.false_eq_true, if_false]

/-- DMA.CS outside a step of whole clusters (R70). -/
theorem exec_dmaCs_partial (h : s.atIsn k (.dmaCs f) = some (c, p)) (hw : p.d.wholeCl = false) :
    exec (.dmaCs k f) s = .next (stopped s c stInstr) := by
  refine (State.coreIsn_at _ h).trans ?_
  simp only [hw, Bool.not_false, Bool.true_or, if_true, State.did_stop]

/-- DMA.CS from the core's slice of cluster store. -/
theorem exec_dmaCs_load (h : s.atIsn k (.dmaCs f) = some (c, p)) (hw : p.d.wholeCl = true) (hl : lenGood f) (hd : f.dir = true)
    (ha : csOk k p.ks (padd c f.ps f.soff).toNat f.len.toNat = true) (hb : lsOk (padd c f.pd f.doff).toNat f.len.toNat = true) :
    exec (.dmaCs k f) s = .next (s.retireIsn k
      { c with ls := c.ls.write (padd c f.pd f.doff).toNat (c.cs.read ((padd c f.ps f.soff).toNat - 0x40000 * (k % 16)) f.len.toNat) }
      (8 + f.len.toNat / 64)) := by
  refine (State.coreIsn_at _ h).trans ?_
  simp [c.addr_off32, (lenOk_iff f).2 hl, ceilDiv_64_of_dvd hl.1, hw, hd, ha, hb]

/-- DMA.CS to the core's slice of cluster store. -/
theorem exec_dmaCs_store (h : s.atIsn k (.dmaCs f) = some (c, p)) (hw : p.d.wholeCl = true) (hl : lenGood f) (hd : f.dir = false)
    (ha : lsOk (padd c f.ps f.soff).toNat f.len.toNat = true) (hb : csOk k p.ks (padd c f.pd f.doff).toNat f.len.toNat = true) :
    exec (.dmaCs k f) s = .next (s.retireIsn k
      { c with cs := c.cs.write ((padd c f.pd f.doff).toNat - 0x40000 * (k % 16)) (c.ls.read (padd c f.ps f.soff).toNat f.len.toNat) }
      (8 + f.len.toNat / 64)) := by
  refine (State.coreIsn_at _ h).trans ?_
  simp [c.addr_off32, (lenOk_iff f).2 hl, ceilDiv_64_of_dvd hl.1, hw, hd, ha, hb]

end

theorem localStoreCopy : Sys2Proof.Parts.LocalStoreCopy := by
  unfold Sys2Proof.Parts.LocalStoreCopy
  intro s k f c p ⟨h, hin⟩ hm n a b hn hlo hhi ha hb hae hbe
  refine ⟨_, ?_, storeSet_write_read hm b c.ls a n⟩
  rw [exec_dmaLs h ⟨hn, hlo, hhi⟩, (lsOk_iff _ _).2 ⟨ha, hae⟩, (lsOk_iff _ _).2 ⟨hb, hbe⟩]
  exact congrArg _ (State.retireIsn_eq_retired _ _ _ hin)

theorem clusterStoreCopy : Sys2Proof.Parts.ClusterStoreCopy := by
  unfold Sys2Proof.Parts.ClusterStoreCopy
  intro s k f c p ⟨h, hin⟩ hm hmc n a b sl top hn hlo hhi
  refine ⟨exec_dmaCs_partial h, fun hw hd hb ha hae hbe => ⟨_, ?_, storeSet_write_read hm b c.cs (a - sl) n⟩,
    fun hw hd ha hae hb hbe => ⟨_, ?_, storeSet_write_read hmc (b - sl) c.ls a n⟩⟩
  · rw [exec_dmaCs_load h hw ⟨hn, hlo, hhi⟩ hd ((csOk_iff _ _ _ _).2 ⟨ha, hae⟩) ((lsOk_iff _ _).2 ⟨hb, hbe⟩)]
    exact congrArg _ (State.retireIsn_eq_retired _ _ _ hin)
  · rw [exec_dmaCs_store h hw ⟨hn, hlo, hhi⟩ hd ((lsOk_iff _ _).2 ⟨ha, hae⟩) ((csOk_iff _ _ _ _).2 ⟨hb, hbe⟩)]
    exact congrArg _ (State.retireIsn_eq_retired _ _ _ hin)

/-- Settles O9: each copy writes what it has read whole, and a write of a store is exact on its range and outside it. -/
theorem storeCopies : Obligations.StoreCopies := ⟨localStoreCopy, clusterStoreCopy⟩

/-! ### The vector unit and conversions (R74, R77) -/

section
variable {s : State} {k : Nat} {c : Core} {p : Step}

/-- The operands of a VEC are good; B is looked at only where the function reads it. -/
def vecOperandsOk (c : Core) (f : FmtV) : Bool :=
  lsOk (c.addr f.pa f.aoff.toNat) (4 * elems f.n)
    && (vecB f.func.toNat (elems f.n) == 0 || lsOk (c.addr f.pb f.boff.toNat) (4 * vecB f.func.toNat (elems f.n)))
    && lsOk (c.addr f.pd f.doff.toNat) (4 * vecD f.func.toNat (elems f.n))

theorem vecOperandsOk_eq (c : Core) (f : FmtV) :
    (!lsOk (c.addr f.pa (offU f.aoff)) (4 * elems f.n)
      || (vecB f.func.toNat (elems f.n) != 0 && !lsOk (c.addr f.pb (offU f.boff)) (4 * vecB f.func.toNat (elems f.n)))
      || !lsOk (c.addr f.pd (offU f.doff)) (4 * vecD f.func.toNat (elems f.n))) = !vecOperandsOk c f := by
  simp only [vecOperandsOk, offU, Bool.not_and, Bool.not_or, bne]

theorem exec_vec_badOperand {f : FmtV} (h : s.atIsn k (.vec f) = some (c, p)) (hf : f.func.toNat ≤ 13) (hbad : vecOperandsOk c f = false) :
    exec (.vec k f) s = .next (stopped s c stAddrFault) := by
  refine (State.coreIsn_at _ h).trans ?_
  simp only [if_neg (Nat.not_lt.mpr hf), vecOperandsOk_eq, hbad, Bool.not_false, if_true, State.did_stop]

theorem exec_vec {f : FmtV} {vs : List Num} (h : s.atIsn k (.vec f) = some (c, p)) (hf : f.func.toNat ≤ 13) (hok : vecOperandsOk c f = true)
    (hv : let rd := fun (x m : Nat) => (List.range m).map fun i => c.ls.f32 (x + 4 * i)
      vecFunc f.func.toNat (rd (c.addr f.pa f.aoff.toNat) (elems f.n)) (rd (c.addr f.pb f.boff.toNat) (vecB f.func.toNat (elems f.n)))
        (if f.func.toNat = 3 then rd (c.addr f.pd f.doff.toNat) (elems f.n) else []) = some vs) :
    exec (.vec k f) s = .next (s.retireIsn k { c with ls := c.ls.write (c.addr f.pd f.doff.toNat) (f32Bytes vs) }
      (vecCost f.func.toNat (elems f.n))) := by
  refine (State.coreIsn_at _ h).trans ?_
  dsimp only [offU] at hv ⊢
  rw [if_neg (Nat.not_lt.mpr hf), if_neg, hv, State.did_ok]
  rw [Bool.not_eq_true]
  exact (vecOperandsOk_eq c f).trans (by rw [hok]; rfl)

/-- The formats and the rounding of a CVT are listed, and 32 divides the count of a block format. -/
structure CvtFields (f : FmtX) : Prop where
  src : f.fromF.toNat ≤ 12
  tgt : f.toF.toNat ≤ 12
  rnd : f.rnd.toNat < 3
  stochastic : f.rnd.toNat = 2 → isMx f.toF.toNat = true
  whole : 6 ≤ f.fromF.toNat ∨ 6 ≤ f.toF.toNat → elems f.n % 32 = 0

/-- The bytes a CVT writes. -/
def cvtOut (p : Step) (c : Core) (f : FmtX) (vs : List Num) : List Byte :=
  if f.toF.toNat = 0 then vs.zipIdx.flatMap fun v => leBytes 4 (elemEnc .fp32 (cvtMode p c f.rnd v.2) v.1)
  else encodeArray f.toF.toNat (cvtMode p c f.rnd) vs

/-- CVT of listed fields. -/
theorem exec_cvt {f : FmtX} (h : s.atIsn k (.cvt f) = some (c, p)) (hf : CvtFields f) :
    exec (.cvt k f) s = .next (s.did k c
      (if !lsOk (c.addr f.pa f.aoff.toNat) (cvtBytes f.fromF.toNat (elems f.n))
          || !lsOk (c.addr f.pd f.doff.toNat) (cvtBytes f.toF.toNat (elems f.n)) then .stop stAddrFault
       else .ok { c with
          ls := c.ls.write (c.addr f.pd f.doff.toNat)
            (cvtOut p c f (srcVals f.fromF.toNat (elems f.n) (c.ls.rd (c.addr f.pa f.aoff.toNat))))
          srOrd := if f.rnd.toNat = 2 then c.srOrd + elems f.n else c.srOrd } (4 + ceilDiv (elems f.n) 64))) := by
  have h3 : f.rnd ≠ 3 := fun e => absurd hf.rnd (by rw [e]; decide)
  have h2 : f.rnd = 2 ↔ f.rnd.toNat = 2 := BitVec.toNat_inj.symm
  have hfmt : ¬(decide (12 < f.fromF.toNat) || decide (12 < f.toF.toNat) || f.rnd == 3 || (f.rnd == 2 && !isMx f.toF.toNat)) = true := by
    simp only [Bool.or_eq_true, Bool.and_eq_true, decide_eq_true_eq, beq_iff_eq, h3, h2, Nat.not_lt.mpr hf.src, Nat.not_lt.mpr hf.tgt,
      Bool.not_eq_true', false_or, not_and, Bool.not_eq_false]
    exact hf.stochastic
  have hcount : ¬((decide (6 ≤ f.fromF.toNat) || decide (6 ≤ f.toF.toNat)) && elems f.n % 32 != 0) = true := by
    simp only [Bool.and_eq_true, Bool.or_eq_true, decide_eq_true_eq, bne_iff_ne, ne_eq, not_and, not_not]
    exact hf.whole
  refine (State.coreIsn_at _ h).trans ?_
  dsimp only
  rw [if_neg hfmt, if_neg hcount]
  simp only [beq_iff_eq, h2]
  rfl

end

/-- Settles O10: the address check of each instruction comes before any effect. -/
theorem badOperandAddressStops : Obligations.BadOperandAddressStops := by
  unfold Obligations.BadOperandAddressStops
  intro s k c p
  refine ⟨fun f ⟨h, _⟩ hn hlo hhi hbad => ?_, fun f ⟨h, _⟩ hf hbad => ?_, fun f ⟨h, _⟩ hs ht hr hbad => ?_⟩
  · rw [exec_dmaLs h ⟨hn, hlo, hhi⟩, hbad]
    rfl
  · exact exec_vec_badOperand h hf (by rw [vecOperandsOk, hbad, Bool.false_and, Bool.false_and])
  · have hf : CvtFields f := ⟨by omega, by omega, by omega, by omega, by omega⟩
    rw [exec_cvt h hf, hbad]
    rfl

theorem vectorResult : Sys2Proof.Parts.VectorResult := by
  unfold Sys2Proof.Parts.VectorResult
  intro s k f c p vs ⟨h, hin⟩ n fn a b d rd hf ha hb hd hv
  have hok : vecOperandsOk c f = true := by
    simp only [vecOperandsOk, Bool.and_eq_true, Bool.or_eq_true, beq_iff_eq]
    exact ⟨⟨ha, hb⟩, hd⟩
  rw [exec_vec h hf hok hv]
  exact congrArg _ (State.retireIsn_eq_retired _ _ _ hin)

theorem conversionResult : Sys2Proof.Parts.ConversionResult := by
  unfold Sys2Proof.Parts.ConversionResult
  intro s k f c p ⟨h, hin⟩ n a d src tgt vs hs ht hr hmx hn ha hd
  refine ⟨cvtOut p c f vs, ?_, fun h0 => if_pos h0, fun h0 => if_neg h0⟩
  rw [exec_cvt h ⟨hs, ht, hr, hmx, hn⟩, ha, hd]
  exact congrArg _ (State.retireIsn_eq_retired _ _ _ hin)

/-- Settles O11: an instruction whose checks pass writes its results and retires. -/
theorem vectorAndConversionResults : Obligations.VectorAndConversionResults := ⟨vectorResult, conversionResult⟩

/-! ### Cores of a course that differ, or have drifted (R68, R69) -/

/-- Whatever engine row is commanded, cores that differ are found first. -/
theorem State.engRow_skew {s : State} {n : Nat} {p : Step} {c : Core} (op : Nat) (sig : EngSig) (flt : Option EngFault)
    (run : Step → Core → FmtE → Option EngFault → Except Nat EngRes) (hp : s.running n = some p) (hc : s.engSkew p = some c) :
    s.engRow n op sig flt run = .next (stopped s c stCourseSkew) := by
  simp only [State.engRow, hp, hc]
  rfl

theorem courseSkewEndsTheStep : Sys2Proof.Parts.CourseSkewEndsTheStep := by
  unfold Sys2Proof.Parts.CourseSkewEndsTheStep
  intro s n sig bad p c hp hc
  refine ⟨State.engRow_skew _ _ _ _ hp hc, State.engRow_skew _ _ _ _ hp hc, State.engRow_skew _ _ _ _ hp hc, ?_⟩
  show execCourseRealign n s = _
  simp only [execCourseRealign, hp, hc]
  rfl

theorem realignment : Sys2Proof.Parts.Realignment := by
  unfold Sys2Proof.Parts.Realignment
  intro s n p hp hc hall hdrift
  have hnone : (s.cores p).any (fun e => (e.2.engAt s.aclk).isNone) = false := by
    rw [List.any_eq_false]
    intro e he
    simp [Option.isSome_iff_ne_none.1 (hall e he)]
  have hany : (s.cores p).any (fun e => e.2.drift) = true := List.any_eq_true.2 hdrift
  show execCourseRealign n s = _
  simp only [execCourseRealign, hp, hc, hnone, hany]
  rfl

/-- Settles O13: every row of a course looks at the issue signatures before all else. -/
theorem courseSkewAndRealignment : Obligations.CourseSkewAndRealignment := ⟨courseSkewEndsTheStep, realignment⟩

end Sys2Proof.Machine

/-! PROOFS. The stream queue of a core (03 R81, R83, R84; 04 R119): how a request enters it, what a full queue does, and
what the oldest request does when it completes. -/

namespace Sys2Proof.Machine

section
variable {s : State} {k : Nat} {c : Core} {p : Step}

/-! ### Issue (R81) -/

theorem State.issue_room (r : StreamReq) (cost : Nat) (hq : c.queue.length < 8) (hin : c.ip + 1 < c.istore.length) :
    s.issue k c r cost = issued s k c r cost := by
  rw [State.issue, if_neg (Nat.not_le.mpr hq)]
  exact State.retireIsn_eq_retired _ _ _ hin

theorem State.issue_full (r : StreamReq) (cost : Nat) (hq : 8 ≤ c.queue.length) :
    s.issue k c r cost = s.setCore k { c with ph := .strFull, drift := true } := if_pos hq

/-! ### Requests for context memory (R81, R83) -/

/-- A transfer between `la` of local store and `xa` of context memory whose length and addresses are good. -/
theorem State.strCtx_eq_issue (s : State) (k : Nat) (p : Step) {kind : StreamKind} {f : FmtT} {la xa : Nat} (hl : lenGood f)
    (hla : la = if kind = .wr then (padd c f.ps f.soff).toNat else (padd c f.pd f.doff).toNat)
    (hxa : xa = if kind = .wr then (padd c f.pd f.doff).toNat else (padd c f.ps f.soff).toNat)
    (hls : lsOk la f.len.toNat = true) (hcx : xa + f.len.toNat ≤ 2 ^ 48) :
    ∃ r, s.strCtx k c p kind f = s.issue k c r (if kind = .spread then 6 else 2) ∧ ctxReqIs r kind f la xa c := by
  have hcx' : cxOk xa f.len.toNat = true := decide_eq_true hcx
  refine ⟨ctxReq kind f p la xa (c.bound k p s.aclk (State.ctxDie p.ctx xa) f.len.toNat (kind == .spread)) c.ip, ?_,
    rfl, rfl, rfl, rfl, rfl, rfl, rfl⟩
  simp only [State.strCtx, c.addr_off32, ← hla, ← hxa, (lenOk_iff f).2 hl, hls, hcx', Bool.not_true, Bool.or_self, Bool.false_eq_true,
    if_false]

theorem exec_strRd {f : FmtT} (h : s.atIsn k (.strRd f) = some (c, p)) : exec (.strRd k f) s = .next (s.strCtx k c p .rd f) :=
  State.coreIsn'_at _ h

theorem exec_strWr {f : FmtT} (h : s.atIsn k (.strWr f) = some (c, p)) : exec (.strWr k f) s = .next (s.strCtx k c p .wr f) :=
  State.coreIsn'_at _ h

/-- The other cores of the cluster name the source, length and destination that core `k` names in its next spread (R83). -/
def spreadsAgree (s : State) (k : Nat) (c : Core) (f : FmtT) : Prop :=
  ∀ e ∈ s.clusterCores k, e.1 ≠ k → e.2.step = c.step → ∀ r, e.2.spreads[c.spreads.length]? = some r →
    r.caddr = (padd c f.ps f.soff).toNat ∧ r.len = f.len.toNat ∧ r.laddr = (padd c f.pd f.doff).toNat

/-- STR.SPREAD of whole clusters: a full queue holds it before the other cores are looked at. -/
theorem exec_strSpread {f : FmtT} (h : s.atIsn k (.strSpread f) = some (c, p)) (hw : p.d.wholeCl = true)
    (hd : 8 ≤ c.queue.length ∨ spreadsAgree s k c f) : exec (.strSpread k f) s = .next (s.strCtx k c p .spread f) := by
  refine (State.coreIsn'_at _ h).trans ?_
  dsimp only
  rw [hw, if_neg (by decide), if_neg]
  rw [Bool.and_eq_true, decide_eq_true_eq, List.any_eq_true]
  rintro ⟨⟨e, he, hne⟩, hroom⟩
  have hagree := hd.resolve_left (Nat.not_le.mpr hroom) e he
  split at hne
  next r hr =>
    simp only [c.addr_off32, Bool.and_eq_true, bne_iff_ne, beq_iff_eq, Bool.or_eq_true] at hne
    obtain ⟨⟨hk, hs⟩, hne⟩ := hne
    obtain ⟨ha, hn, hb⟩ := hagree hk hs r hr
    exact hne.elim (fun hne => hne.elim (absurd ha) (absurd hn)) (absurd hb)
  next => exact Bool.false_ne_true hne

/-! ### Page requests (R84; 04 R119) -/

/-- STR.PAGE of a page that is not lost, has the bytes asked for, and comes; the window, where the queue has room, admits it. -/
theorem exec_strPage {f : FmtP} {pg : PageAt} (h : s.atIsn k (.strPage f) = some (c, p)) (hf : pageFields f p)
    (hpg : s.pageNamed p f.seq.toNat f.lg.toNat f.page.toNat = pg) (hlost : pg.lost = false)
    (hpay : s.payloadOk p (f.poff.toNat + 64 * f.len64.toNat) pg = true)
    (hls : lsOk (c.addr f.pd f.doff.toNat) (64 * f.len64.toNat) = true) (hcomes : pg.comes p f.seq.toNat = true)
    (hwin : c.queue.length < 8 → ∀ g, segKey p f.seq.toNat f.lg.toNat pg = some g → c.windowBad p s g f.page.toNat = false) :
    ∃ bound, exec (.strPage k f) s = .next (s.issue k
      { c with seg := if c.queue.length < 8
          then (segKey p f.seq.toNat f.lg.toNat pg).toList.foldl (fun t g => tblIns t g f.page.toNat) c.seg else c.seg }
      (pageReqOf f p (c.addr f.pd f.doff.toNat) bound (p.wasAbsent f.seq.toNat pg) c.ip) 2) := by
  obtain ⟨hseq, hlg, hpage, hlo, hhi, hoff⟩ := hf
  subst hpg
  have hfields : ¬(!decide (f.seq.toNat < p.d.seqCount.toNat) || !decide (f.lg.toNat < p.d.lgCount.toNat)
      || !decide (f.page.toNat < (p.seqs.getD f.seq.toNat (decSeq 0)).sweepPages)
      || !decide (1 ≤ f.len64.toNat ∧ f.len64.toNat ≤ 32768) || f.poff.toNat % 64 != 0) = true := by
    have hlen : 1 ≤ f.len64.toNat ∧ f.len64.toNat ≤ 32768 := ⟨hlo, hhi⟩
    simp only [decide_eq_true hseq, decide_eq_true hlg, decide_eq_true hpage, decide_eq_true hlen, hoff, Bool.not_true, Bool.or_self,
      bne_self_eq_false, Bool.false_eq_true, not_false_eq_true]
  have hwindow : ¬((segKey p f.seq.toNat f.lg.toNat (s.pageNamed p f.seq.toNat f.lg.toNat f.page.toNat)).any fun g =>
      decide (c.queue.length < 8) && c.windowBad p s g f.page.toNat) = true := by
    rw [Option.any_eq_true]
    rintro ⟨g, hg, hbad⟩
    rw [Bool.and_eq_true, decide_eq_true_eq] at hbad
    rw [hwin hbad.1 g hg] at hbad
    exact Bool.false_ne_true hbad.2
  refine ⟨c.bound k p s.aclk (((s.sess (p.seqs.getD f.seq.toNat (decSeq 0)).handle).map (·.homeDie)).getD 0) (64 * f.len64.toNat) false,
    (State.coreIsn'_at _ h).trans ?_⟩
  dsimp only [offU]
  rw [if_neg hfields, hlost, if_neg Bool.false_ne_true, hpay, if_neg (by decide), hls, if_neg (by decide), hcomes, if_neg (by decide),
    if_neg hwindow]
  simp only [decide_eq_true_eq]

theorem windowBad_of_windowGood {f : FmtP} {pg : PageAt} (h : windowGood s c p f pg) (g : Nat)
    (hg : segKey p f.seq.toNat f.lg.toNat pg = some g) : c.windowBad p s g f.page.toNat = false := by
  obtain ⟨hlast, hahead⟩ := h g hg
  unfold Core.windowBad
  rw [Bool.or_eq_false_iff]
  refine ⟨?_, decide_eq_false (by omega)⟩
  split
  next m hm => exact decide_eq_false (Nat.not_lt.mpr (hlast m hm))
  next => rfl

end

/-! ### The statements about issue -/

theorem streamRequestsEnterTheQueue : Sys2Proof.Parts.StreamRequestsEnterTheQueue := by
  unfold Sys2Proof.Parts.StreamRequestsEnterTheQueue
  intro s k f c p hq hl a b n
  refine ⟨fun ⟨h, hin⟩ hls hcx => ?_, fun ⟨h, hin⟩ hls hcx => ?_, fun ⟨h, hin⟩ hw hls hcx hagree => ?_⟩
  · obtain ⟨r, hr, his⟩ := s.strCtx_eq_issue k p (kind := .rd) hl rfl rfl hls hcx
    exact ⟨r, by rw [exec_strRd h, hr, State.issue_room _ _ hq hin]; rfl, his⟩
  · obtain ⟨r, hr, his⟩ := s.strCtx_eq_issue k p (kind := .wr) hl rfl rfl hls hcx
    exact ⟨r, by rw [exec_strWr h, hr, State.issue_room _ _ hq hin]; rfl, his⟩
  · obtain ⟨r, hr, his⟩ := s.strCtx_eq_issue k p (kind := .spread) hl rfl rfl hls hcx
    exact ⟨r, by rw [exec_strSpread h hw (.inr hagree), hr, State.issue_room _ _ hq hin]; rfl, his⟩

theorem pageRequestsEnterTheQueue : Sys2Proof.Parts.PageRequestsEnterTheQueue := by
  unfold Sys2Proof.Parts.PageRequestsEnterTheQueue
  intro s k f c p ⟨h, hin⟩ hq hf pg n hls hwin
  have hwindow := fun _ : c.queue.length < 8 => windowBad_of_windowGood hwin
  refine ⟨fun hd m e hpg hlost hvalid hend hland => ?_, fun m v hpg hend => ?_⟩
  · have hpay : s.payloadOk p (f.poff.toNat + n) pg = true := by
      rw [hpg]; exact (Bool.and_eq_true _ _).mpr ⟨hvalid, decide_eq_true hend⟩
    have hcomes : pg.comes p f.seq.toNat = true := by rw [hpg]; exact (Bool.or_eq_true _ _).mpr hland
    obtain ⟨bound, hex⟩ := exec_strPage h hf rfl (pg := pg) (by rw [hpg]; exact hlost) hpay hls hcomes hwindow
    refine ⟨_, _, hex.trans (congrArg _ (State.issue_room _ _ hq hin)), rfl, rfl, rfl, rfl, rfl, rfl, rfl, rfl, rfl, ?_, rfl⟩
    rw [hpg]; rfl
  · have hpay : s.payloadOk p (f.poff.toNat + n) pg = true := by
      rw [hpg]; exact (Option.all_eq_true _ _).mpr fun w hw => decide_eq_true (hend w hw)
    obtain ⟨bound, hex⟩ := exec_strPage h hf rfl (pg := pg) (by rw [hpg]; rfl) hpay hls (by rw [hpg]; rfl) hwindow
    refine ⟨_, _, hex.trans (congrArg _ (State.issue_room _ _ hq hin)), rfl, rfl, rfl, rfl, rfl, rfl, rfl, rfl, rfl, ?_, rfl⟩
    rw [hpg]; rfl

theorem fullQueueHoldsTheCore : Sys2Proof.Parts.FullQueueHoldsTheCore := by
  unfold Sys2Proof.Parts.FullQueueHoldsTheCore
  intro s k c p hq held
  refine ⟨fun f hl => ?_, fun f hd m e ⟨h, _⟩ hf hpg hlost hvalid hland hend hls => ?_⟩
  · intro a b n
    refine ⟨fun ⟨h, _⟩ hls hcx => ?_, fun ⟨h, _⟩ hls hcx => ?_, fun ⟨h, _⟩ hw hls hcx => ?_⟩
    · obtain ⟨r, hr, -⟩ := s.strCtx_eq_issue k p (kind := .rd) hl rfl rfl hls hcx
      rw [exec_strRd h, hr, State.issue_full _ _ hq]
    · obtain ⟨r, hr, -⟩ := s.strCtx_eq_issue k p (kind := .wr) hl rfl rfl hls hcx
      rw [exec_strWr h, hr, State.issue_full _ _ hq]
    · obtain ⟨r, hr, -⟩ := s.strCtx_eq_issue k p (kind := .spread) hl rfl rfl hls hcx
      rw [exec_strSpread h hw (.inl hq), hr, State.issue_full _ _ hq]
  · have hpay : s.payloadOk p (f.poff.toNat + 64 * f.len64.toNat) (.own hd m e) = true :=
      (Bool.and_eq_true _ _).mpr ⟨hvalid, decide_eq_true hend⟩
    have hcomes : (PageAt.own hd m e).comes p f.seq.toNat = true := (Bool.or_eq_true _ _).mpr (.inl hland)
    obtain ⟨bound, hex⟩ := exec_strPage h hf hpg hlost hpay hls hcomes fun hroom => absurd hroom (Nat.not_lt.mpr hq)
    rw [if_neg (Nat.not_lt.mpr hq)] at hex
    exact hex.trans (congrArg _ (State.issue_full _ _ hq))

/-! ### Completion (R81, R83, R84) -/

section
variable {s : State} {k : Nat} {c : Core} {p : Step} {r : StreamReq}

theorem exec_complete_rd (h : AtRequest s k c p r) (hk : r.kind = .rd) (hbad : s.cbad p.ctx r.caddr r.len = none) :
    exec (.streamRequestComplete k none) s = .next (((s.setCore k
      { (c.popReq s.aclk) with ls := c.ls.write r.laddr (s.cread p.ctx r.caddr r.len) }).dispatched c.step p r).finish c.step) := by
  obtain ⟨hc, hp, hr, hslot⟩ := h
  show execStreamRequestComplete k none s = _
  simp [execStreamRequestComplete, State.ctxUe, hc, hp, hr, hslot, hk, hbad]

theorem exec_complete_wr (h : AtRequest s k c p r) (hk : r.kind = .wr) (hcut : s.uncopied p.ctx r.caddr r.len = []) :
    exec (.streamRequestComplete k none) s = .next (((s.cwrite p.ctx r.caddr (c.ls.read r.laddr r.len)).setCore k
      (c.popReq s.aclk)).finish c.step) := by
  obtain ⟨hc, hp, hr, hslot⟩ := h
  show execStreamRequestComplete k none s = _
  simp [execStreamRequestComplete, hc, hp, hr, hslot, hk, hcut]

theorem exec_complete_page {hd n : Nat} {e : Pte} (h : AtRequest s k c p r) (hk : r.kind = .page)
    (hpg : s.pageNamed p r.seqi r.lg r.page = .own hd n e) (hlost : e.lost = false) (hland : e.landed = true)
    (hbad : s.hbad e.frame r.poff r.len = none) :
    exec (.streamRequestComplete k none) s
      = .next (((s.pageDone k c p r e.fmt (s.hread e.frame r.poff r.len)).dispatched c.step p r).finish c.step) := by
  obtain ⟨hc, hp, hr, hslot⟩ := h
  show execStreamRequestComplete k none s = _
  simp [execStreamRequestComplete, State.pageReq, hc, hp, hr, hslot, hk, hpg, hlost, hland, hbad]

theorem exec_complete_spread (h : AtRequest s k c p r) (hk : r.kind = .spread) (hlen : (s.clusterCores k).length = 16)
    (hall : ∀ e ∈ s.clusterCores k, e.2.step = c.step ∧ (e.2.queue.head?.map (·.kind)) = some .spread)
    (hbad : s.cbad p.ctx r.caddr r.len = none) :
    exec (.streamRequestComplete k none) s = .next ((((s.clusterCores k).foldl (fun t e => t.setCore e.1
      { (e.2.popReq s.aclk) with
        ls := e.2.ls.write ((e.2.queue.head?.map (·.laddr)).getD 0) (s.cread p.ctx r.caddr r.len) }) s).dispatched c.step p r).finish c.step) := by
  obtain ⟨hc, hp, hr, hslot⟩ := h
  have hany : ((s.clusterCores k).any fun e => e.2.step != c.step || (e.2.queue.head?.map (·.kind)) != some .spread) = false := by
    rw [List.any_eq_false]
    intro e he
    simp [hall e he]
  show execStreamRequestComplete k none s = _
  simp only [execStreamRequestComplete, State.ctxUe, hc, hp, hr, hslot, hk, hlen, hany, hbad]
  rfl

end

theorem streamRequestsComplete : Sys2Proof.Parts.StreamRequestsComplete := by
  unfold Sys2Proof.Parts.StreamRequestsComplete
  intro s k c p r h
  exact ⟨exec_complete_rd h, exec_complete_wr h, fun hk hd n e => exec_complete_page h hk, exec_complete_spread h⟩

theorem completionDecrementsQ : Sys2Proof.Parts.CompletionDecrementsQ := by
  unfold Sys2Proof.Parts.CompletionDecrementsQ
  intro c r l t hq
  have hpop : c.popReq t = { c with
      queue := l, q := c.q.set r.sq (c.q.getD r.sq 0 - 1)
      ph := if c.ph == .strFull then .run else c.ph, busyUntil := if c.ph == .strFull then t else c.busyUntil } := by
    simp only [Core.popReq, hq]
  rw [hpop]
  exact ⟨rfl, rfl, fun h => by simp [h], fun h => by simp [h]⟩

/-- Settles O14: issue, the full queue and completion, each from the rules above. -/
theorem streamQueueOfACore : Obligations.StreamQueueOfACore :=
  ⟨streamRequestsEnterTheQueue, pageRequestsEnterTheQueue, fullQueueHoldsTheCore, streamRequestsComplete, completionDecrementsQ⟩

end Sys2Proof.Machine

/-! PROOFS. Messages inside a course, remote operations and WAIT (03 R85-R89). -/

namespace Sys2Proof.Machine

/-! ### Remote operations (R89) -/

theorem findUp_holds {q : Nat → Bool} {k n x : Nat} (h : findUp q k n = some x) : q x = true := by
  induction n generalizing k with
  | zero => cases h
  | succ n ih =>
    rw [findUp] at h
    split at h
    next hk => exact Option.some.inj h ▸ hk
    next => exact ih h

/-- The TXN a remote operation takes is free. -/
theorem State.txnFree_of_coreTxn {s : State} {k x : Nat} (h : s.coreTxn k = some x) : s.txnFree x = true := by
  unfold State.coreTxn at h
  cases hc : findUp s.txnFree (16 * k) 16 with
  | some y =>
    rw [hc] at h
    exact Option.some.inj h ▸ findUp_holds hc
  | none =>
    rw [hc] at h
    exact findUp_holds h

section
variable {s : State} {k : Nat} {c : Core} {p : Step} {f : FmtM}

theorem Core.hall_eq (c : Core) (f : FmtM) : c.hall f = (padd c f.pt f.toff).toNat := c.addr_off32 _ _

/-- Line `i` of a transfer to the hall lies 64 i bytes on. -/
theorem lineItem_hall_addr (c : Core) (f : FmtM) (i operand : Nat) (pay : List Byte) :
    (lineItem (c.hall f) i operand pay).addr = padd c f.pt f.toff + BitVec.ofNat 64 (64 * i) := by
  rw [lineItem, c.hall_eq, BitVec.ofNat_add, BitVec.ofNat_toNat, BitVec.setWidth_eq]

/-- A remote operation of `n` lines takes one lien and one transaction. -/
theorem State.remote_lines {x : Nat} (hl : c.liens < 16) (hx : s.coreTxn k = some x) (hin : c.ip + 1 < c.istore.length) (kind : RemKind)
    (op dst n : Nat) (operand : Nat → Nat) (pay : Nat → List Byte) (cost : Nat) :
    remoteIssued s (s.remote k c p f kind op dst ((List.range n).map fun i => lineItem (c.hall f) i (operand i) (pay i)) cost) k c p kind op n
      (c.k.getD f.ksel.toNat 0) (fun i => padd c f.pt f.toff + BitVec.ofNat 64 (64 * i)) (fun i => (BitVec.ofNat 64 (operand i), pay i))
      cost := by
  have hlen : ((List.range n).map fun i => lineItem (c.hall f) i (operand i) (pay i)).length = n := by simp
  refine ⟨x, { id := x, kind := kind, aop := f.aop.toNat, ip := c.ip, dst := dst, len := lenM f, left := _, settled := none },
    newTxn k x p op (c.k.getD f.ksel.toNat 0) _ s.fab.nextOrder, hx, State.txnFree_of_coreTxn hx, rfl, rfl, hlen, rfl, rfl, rfl, rfl, rfl,
    rfl, hlen, fun i hi => ?_, ?_⟩
  · simp only [newTxn, List.getElem?_map, List.getElem?_range hi, Option.map_some, lineItem_hall_addr, true_and]
    rfl
  · simp only [State.remote, if_neg (Nat.not_le.mpr hl), hx]
    exact State.retireIsn_eq_retired _ _ _ hin

theorem State.remote_limit (hl : 16 ≤ c.liens) (kind : RemKind) (op dst : Nat) (items : List LineItem) (cost : Nat) :
    s.remote k c p f kind op dst items cost = stopped s c stLienLimit := if_pos hl

theorem len64_beq_zero (hn : f.len64.toNat ≠ 0) : (f.len64 == 0) = false :=
  beq_eq_false_iff_ne.2 fun e => hn (by rw [e]; rfl)

theorem exec_put_remote (h : s.atIsn k (.put f) = some (c, p)) (hr : f.remote = true) (hn : f.len64.toNat ≠ 0)
    (hls : lsOk (padd c f.ps f.soff).toNat (64 * f.len64.toNat) = true) :
    exec (.put k f) s = .next (s.remote k c p f .put 0x02 0 ((List.range f.len64.toNat).map fun i =>
      lineItem (c.hall f) i (2 ^ 64 - 1) (c.ls.read ((padd c f.ps f.soff).toNat + 64 * i) 64)) (2 + f.len64.toNat)) := by
  refine (State.coreIsn'_at _ h).trans ?_
  simp only [hr, if_true, len64_beq_zero hn, c.addr_off32, lenM, hls, Bool.not_true, Bool.false_eq_true, if_false]

theorem exec_get (h : s.atIsn k (.get f) = some (c, p)) (hn : f.len64.toNat ≠ 0) (hmax : f.len64.toNat ≤ 64)
    (hls : lsOk (padd c f.ps f.soff).toNat (64 * f.len64.toNat) = true) :
    exec (.get k f) s = .next (s.remote k c p f .get 0x01 (padd c f.ps f.soff).toNat ((List.range f.len64.toNat).map fun i =>
      lineItem (c.hall f) i 0 []) (2 + f.len64.toNat)) := by
  refine (State.coreIsn'_at _ h).trans ?_
  simp only [len64_beq_zero hn, decide_eq_false (Nat.not_lt.mpr hmax), Bool.or_self, c.addr_off32, lenM, hls, Bool.not_true,
    Bool.false_eq_true, if_false]

theorem exec_signal_remote (h : s.atIsn k (.signal f) = some (c, p)) (hr : f.remote = true) :
    exec (.signal k f) s = .next (s.remote k c p f .signal 0x10 0 ((List.range 1).map fun i => lineItem (c.hall f) i f.inc.toNat []) 2) := by
  refine (State.coreIsn'_at _ h).trans ?_
  simp only [hr, if_true]
  rfl

/-- Operand of an ATOM whose word lies at `a`: for CAS none, both words being its payload. -/
def atomOperand (c : Core) (f : FmtM) (a : Nat) : Nat := if f.aop = 4 then 0 else leNat (c.ls.read a 8)
/-- Payload of an ATOM: both words of a CAS. -/
def atomPayload (c : Core) (f : FmtM) (a : Nat) : List Byte := if f.aop = 4 then c.ls.read a 16 ++ List.replicate 48 0 else []

theorem exec_atom (h : s.atIsn k (.atom f) = some (c, p)) (ho : f.aop.toNat ≤ 4) (hls : lsOk (padd c f.ps f.soff).toNat 16 = true) :
    exec (.atom k f) s = .next (s.remote k c p f .atom (0x10 + f.aop.toNat) (padd c f.ps f.soff).toNat ((List.range 1).map fun i =>
      lineItem (c.hall f) i (atomOperand c f (padd c f.ps f.soff).toNat) (atomPayload c f (padd c f.ps f.soff).toNat)) 2) := by
  refine (State.coreIsn'_at _ h).trans ?_
  simp only [if_neg (Nat.not_lt.mpr ho), c.addr_off32, hls, Bool.not_true, Bool.false_eq_true, if_false, beq_iff_eq, atomOperand, atomPayload]
  split <;> rfl

end

theorem remoteOperationsAreIssued : Sys2Proof.Parts.RemoteOperationsAreIssued := by
  unfold Sys2Proof.Parts.RemoteOperationsAreIssued
  intro s k x f c p hl hx a n key at_
  refine ⟨fun ⟨h, hin⟩ hr hn hls => ?_, fun ⟨h, hin⟩ hn hmax hls => ?_, fun ⟨h, hin⟩ hr => ?_, fun ⟨h, hin⟩ ho hls => ?_⟩
  · exact ⟨_, exec_put_remote h hr hn hls, State.remote_lines hl hx hin .put 2 0 n (fun _ => 2 ^ 64 - 1) _ _⟩
  · exact ⟨_, exec_get h hn hmax hls, State.remote_lines hl hx hin .get 1 a n (fun _ => 0) (fun _ => []) _⟩
  · exact ⟨_, exec_signal_remote h hr, State.remote_lines hl hx hin .signal 0x10 0 1 (fun _ => f.inc.toNat) (fun _ => []) _⟩
  · refine ⟨_, exec_atom h ho hls, ?_⟩
    have hwhat : (fun _ : Nat => if f.aop = 4 then ((0 : W64), c.ls.read a 16 ++ List.replicate 48 0)
        else (BitVec.ofNat 64 (leNat (c.ls.read a 8)), [])) = fun _ => (BitVec.ofNat 64 (atomOperand c f a), atomPayload c f a) := by
      funext _
      unfold atomOperand atomPayload
      split <;> rfl
    rw [hwhat]
    exact State.remote_lines hl hx hin .atom _ a 1 (fun _ => atomOperand c f a) (fun _ => atomPayload c f a) _

theorem seventeenthLienStops : Sys2Proof.Parts.SeventeenthLienStops := by
  unfold Sys2Proof.Parts.SeventeenthLienStops
  intro s k f c p hl a n
  refine ⟨fun ⟨h, _⟩ hr hn hls => ?_, fun ⟨h, _⟩ hn hmax hls => ?_, fun ⟨h, _⟩ hr => ?_, fun ⟨h, _⟩ ho hls => ?_⟩
  · rw [exec_put_remote h hr hn hls, State.remote_limit hl]
  · rw [exec_get h hn hmax hls, State.remote_limit hl]
  · rw [exec_signal_remote h hr, State.remote_limit hl]
  · rw [exec_atom h ho hls, State.remote_limit hl]

/-- Settles O16: every remote row ends in `State.remote`, which takes the lien or stops at the limit. -/
theorem remoteOperations : Obligations.RemoteOperations := ⟨remoteOperationsAreIssued, seventeenthLienStops⟩

/-! ### Messages inside a course (R85-R87) -/

section
variable {s : State} {k : Nat} {c : Core} {p : Step} {f : FmtM}

/-- A transfer inside the course whose fields and addresses are good sends one message. -/
theorem State.courseMsg_sent (body : Nat → List Byte → MsgBody) (hn : f.len64.toNat ≠ 0) (ht : f.tpos.toNat < p.cores.length)
    (ha : lsOk (padd c f.ps f.soff).toNat (64 * f.len64.toNat) = true) (hb : lsOk (padd c f.pt f.toff).toNat (64 * f.len64.toNat) = true)
    (hin : c.ip + 1 < c.istore.length) :
    s.courseMsg k c p f true body = retired (s.sendMsg c.step ⟨c.pos, f.tpos.toNat,
      body (padd c f.pt f.toff).toNat (c.ls.read (padd c f.ps f.soff).toNat (64 * f.len64.toNat))⟩) k c (2 + f.len64.toNat) := by
  simp only [State.courseMsg, len64_beq_zero hn, decide_eq_true ht, c.addr_off32, lenM, ha, hb, Bool.not_true, Bool.or_self,
    Bool.false_eq_true, if_false]
  exact State.retireIsn_eq_retired _ _ _ hin

theorem exec_put_course (h : s.atIsn k (.put f) = some (c, p)) (hr : f.remote = false) :
    exec (.put k f) s = .next (s.courseMsg k c p f true .put) := by
  refine (State.coreIsn'_at _ h).trans ?_
  simp only [hr, Bool.false_eq_true, if_false]

theorem exec_addput (h : s.atIsn k (.addput f) = some (c, p)) (hw : f.width.toNat < 2) :
    exec (.addput k f) s = .next (s.courseMsg k c p f true fun b bs => .add b (f.width == 1) bs) := by
  refine (State.coreIsn'_at _ h).trans ?_
  simp only [decide_eq_true hw]

theorem exec_signal_course (h : s.atIsn k (.signal f) = some (c, p)) (hr : f.remote = false) (ht : f.tpos.toNat < p.cores.length) :
    exec (.signal k f) s
      = .next ((s.sendMsg c.step ⟨c.pos, f.tpos.toNat, .signal f.sig.toNat f.inc.toNat⟩).retireIsn k c 2) := by
  refine (State.coreIsn'_at _ h).trans ?_
  simp only [hr, decide_eq_true ht, Bool.not_true, Bool.false_eq_true, if_false]

end

theorem courseMessagesAreSent : Sys2Proof.Parts.CourseMessagesAreSent := by
  unfold Sys2Proof.Parts.CourseMessagesAreSent
  intro s k f c p ht a b n sent
  refine ⟨fun ⟨h, hin⟩ hr hn ha hb => ?_, fun ⟨h, hin⟩ hw hn ha hb => ?_, fun ⟨h, hin⟩ hr => ?_⟩
  · rw [exec_put_course h hr, State.courseMsg_sent _ hn ht ha hb hin]
    rfl
  · rw [exec_addput h hw, State.courseMsg_sent _ hn ht ha hb hin]
    rfl
  · rw [exec_signal_course h hr ht, State.retireIsn_eq_retired _ _ _ hin]
    rfl

/-- Delivery of the oldest message of a pair, when it is of the kind asked for. -/
theorem deliver_eq {s : State} {n src dst k : Nat} {p : Step} {m : Msg} {l : List Msg} (hp : s.running n = some p)
    (hm : takeMsg src dst p.msgs = some (m, l)) (hk : p.cores[dst]? = some k) :
    s.deliver n src dst m.body.isSignal
      = (s.modRun fun g => { g with cores := tblMod g.cores k fun c => c.receive m.body }).updStp n fun q => { q with msgs := l } := by
  simp only [State.deliver, hp, hm, hk, bne_self_eq_false, Bool.false_eq_true, if_false]

theorem addElems_length {w : Nat} (a b : List Byte) (h : w ∣ a.length) : (addElems w a b).length = a.length := by
  simp [addElems, Nat.div_mul_cancel h]

theorem messagesTakeEffectInOrder : Sys2Proof.Parts.MessagesTakeEffectInOrder := by
  unfold Sys2Proof.Parts.MessagesTakeEffectInOrder
  intro s n src dst k p m l c hp hm hk hc t
  refine ⟨fun hs => ?_, fun hs => ?_, fun _ => ⟨?_, fun j hj => ?_⟩, fun a bs hb hw => ?_, fun a wide bs hb hw h8 => ?_, fun j v hb hj => ?_⟩
  · exact congrArg _ (hs ▸ deliver_eq hp hm hk)
  · exact congrArg _ (hs ▸ deliver_eq hp hm hk)
  · exact (tblFind_tblMod_self _ _ _).trans (congrArg (Option.map _) hc)
  · exact tblFind_tblMod_of_ne _ _ hj
  · rw [hb]
    exact storeSet_write hw a bs
  · have hdvd : (if wide then 8 else 4) ∣ (c.ls.read a bs.length).length := by
      rw [Store.read_length]
      cases wide
      · exact Nat.dvd_trans (by decide : 4 ∣ 8) (Nat.dvd_of_mod_eq_zero h8)
      · exact Nat.dvd_of_mod_eq_zero h8
    have hset := storeSet_write hw a (addElems (if wide then 8 else 4) (c.ls.read a bs.length) bs)
    rw [addElems_length _ _ hdvd, Store.read_length] at hset
    rw [hb]
    exact hset
  · rw [hb]
    simp [Core.receive, hj]

/-- Settles O17: a message is sent whole, and the oldest of its pair changes its target core alone. -/
theorem courseMessages : Obligations.CourseMessages := ⟨courseMessagesAreSent, messagesTakeEffectInOrder⟩

/-! ### WAIT (R88) -/

section
variable {s : State} {k till : Nat} {c c' : Core} {p : Step} {f : FmtW}

/-- The fields of a WAIT are listed: a condition, and a bound. -/
theorem waitFields_ok (hs : f.sel.toNat ≠ 3) (hb : f.bound.toNat ≠ 0) : (f.sel == 3 || f.bound == 0) = false := by
  rw [Bool.or_eq_false_iff, beq_eq_false_iff_ne, beq_eq_false_iff_ne]
  exact ⟨fun e => hs (by rw [e]; rfl), fun e => hb (by rw [e]; rfl)⟩

theorem exec_wait_met (h : s.atIsn k (.wait f) = some (c, p)) (hs : f.sel.toNat ≠ 3) (hb : f.bound.toNat ≠ 0) (hm : c.met f = some c') :
    exec (.wait k f) s = .next (s.retireIsn k c' 2) := by
  refine (State.coreIsn'_at _ h).trans ?_
  simp only [waitFields_ok hs hb, hm, Bool.false_eq_true, if_false]

theorem exec_wait_unmet (h : s.atIsn k (.wait f) = some (c, p)) (hs : f.sel.toNat ≠ 3) (hb : f.bound.toNat ≠ 0) (hm : c.met f = none) :
    exec (.wait k f) s = .next (s.setCore k { c with ph := .waiting f (s.aclk + f.bound.toNat), drift := true }) := by
  refine (State.coreIsn'_at _ h).trans ?_
  simp only [waitFields_ok hs hb, hm, Bool.false_eq_true, if_false]

/-- A condition that holds changes signal counts alone. -/
theorem Core.met_eq (h : c.met f = some c') : c' = { c with sg := c'.sg } := by
  have hite : ∀ {q : Prop} [Decidable q] {d : Core}, (if q then some d else none) = some c' → d = c' := fun h => by
    split at h
    · exact Option.some.inj h
    · cases h
  unfold Core.met at h
  dsimp only at h
  split at h
  · rw [← hite h]
  · rw [← hite h]
  · rw [← hite h]

theorem State.waitingCore_eq (hc : s.core k = some c) (hp : s.running c.step = some p) (hph : c.ph = .waiting f till) :
    s.waitingCore k = some (c, f, till) := by
  simp [State.waitingCore, hc, hp, hph]

end

theorem waitsAndTheirBounds : Sys2Proof.Parts.WaitsAndTheirBounds := by
  unfold Sys2Proof.Parts.WaitsAndTheirBounds
  intro s k f c p
  have hgo : ∀ c', c.met f = some c' → c.ip + 1 < c.istore.length → s.retireIsn k c' 2 = retired s k c' 2 := by
    intro c' hm hin
    rw [Core.met_eq hm]
    exact State.retireIsn_eq_retired _ _ _ hin
  refine ⟨fun c' ⟨h, hin⟩ hs hb hm => ?_, fun ⟨h, _⟩ hs hb hm => ?_, fun c' till hc hp hph hm hin => ?_, fun till hc hp hph hm hpast => ?_⟩
  · rw [exec_wait_met h hs hb hm, hgo c' hm hin]
  · exact exec_wait_unmet h hs hb hm
  · show execWaitMet k s = _
    simp only [execWaitMet, State.waitingCore_eq hc hp hph, hm, hgo c' hm hin]
  · show execWaitBoundExpiry k s = _
    simp only [execWaitBoundExpiry, State.waitingCore_eq hc hp hph, hm, hpast]
    rfl

theorem waitConditions : Sys2Proof.Parts.WaitConditions := by
  unfold Sys2Proof.Parts.WaitConditions
  intro c f
  refine ⟨fun hs hv => ?_, fun hs hv => ?_, fun hs => ?_, fun hs => ?_⟩
  · simp only [Core.met, hs, if_pos hv]
  · simp only [Core.met, hs, if_neg (Nat.not_le.mpr hv)]
  · simp only [Core.met, hs]
    exact ite_eq_left_iff.trans (by simp)
  · simp only [Core.met, hs]
    exact ite_eq_left_iff.trans (by simp)

/-- Settles O18: `Core.met` decides, when the WAIT issues and again as the wait goes on. -/
theorem waits : Obligations.Waits := ⟨waitsAndTheirBounds, waitConditions⟩

end Sys2Proof.Machine

/-! PROOFS. Common points of a course (03 R91, R92; 10 R297, R298): the cores that wait there, the release, and what the
release of a PPOINT clears. -/

namespace Sys2Proof.Machine

section
variable {s : State} {k n : Nat} {c : Core} {p : Step}

/-! ### Reaching a common point -/

/-- A core that reaches what the course has shown waits there, drifted. -/
theorem State.arrive_of_reach {l : List SyncEv} {ev : SyncEv} (ph : CorePh) (hl : s.reach p c ev = some l) :
    s.arrive k c p ev ph
      = (s.setCore k { c with ph := ph, drift := true, nsync := c.nsync + 1 }).updStp c.step fun q => { q with sync := l } := by
  simp only [State.arrive, hl]

theorem exec_barrier (h : s.atIsn k .barrier = some (c, p)) : exec (.barrier k) s = .next (s.arrive k c p .barrier .atBarrier) :=
  State.coreIsn'_at _ h

theorem exec_ppoint {f : FmtPp} (h : s.atIsn k (.ppoint f) = some (c, p)) (hr : rangesOk (liveRanges f) = true) :
    exec (.ppoint k f) s = .next (s.arrive k c p .ppoint (.atPpoint f)) := by
  refine (State.coreIsn'_at _ h).trans ?_
  simp only [hr, Bool.not_true, Bool.false_eq_true, if_false]

theorem exec_ppoint_badRanges {f : FmtPp} (h : s.atIsn k (.ppoint f) = some (c, p)) (hr : rangesOk (liveRanges f) = false) :
    exec (.ppoint k f) s = .next (stopped s c stInstr) := by
  refine (State.coreIsn'_at _ h).trans ?_
  simp only [hr, Bool.not_false, if_true]
  rfl

/-! ### The release -/

/-- No core stands at the last instruction of its program. -/
theorem State.offEnd_eq_none {q : CorePh → Prop} (h : allAt s p q) : s.offEnd p = none := by
  unfold State.offEnd
  rw [List.findSome?_eq_none_iff]
  intro e he
  exact if_neg (Nat.not_le.mpr (h.2.2 e he).2)

theorem exec_barrierRelease_all (hp : s.running n = some p) (h : allAt s p (· = .atBarrier)) :
    exec (.barrierRelease n) s = .next (left s n p) := by
  have hoff := State.offEnd_eq_none h
  obtain ⟨hne, hmsgs, hall⟩ := h
  have hcond : ((s.cores p).isEmpty || !p.msgs.isEmpty || (s.cores p).any fun e => e.2.ph != .atBarrier) = false := by
    simp only [Bool.or_eq_false_iff, List.isEmpty_eq_false_iff, hmsgs, List.any_eq_false]
    exact ⟨⟨hne, rfl⟩, fun e he => by simp [(hall e he).1]⟩
  show execBarrierRelease n s = _
  simp only [execBarrierRelease, hp, hcond, hoff, Bool.false_eq_true, if_false]
  rfl

theorem exec_barrierRelease_waits (hp : s.running n = some p) (h : p.msgs ≠ [] ∨ ∃ e ∈ s.cores p, e.2.ph ≠ .atBarrier) :
    exec (.barrierRelease n) s = .next s := by
  have hcond : ((s.cores p).isEmpty || !p.msgs.isEmpty || (s.cores p).any fun e => e.2.ph != .atBarrier) = true := by
    simp only [Bool.or_eq_true, Bool.not_eq_true', List.isEmpty_eq_false_iff, List.any_eq_true, bne_iff_ne]
    exact h.elim (fun hm => .inl (.inr hm)) .inr
  show execBarrierRelease n s = _
  simp only [execBarrierRelease, hp, hcond, if_true]

end

/-- Settles O19: both rows arrive at a common point, and the release looks at every core and at the messages. -/
theorem barriersHoldAndRelease : Obligations.BarriersHoldAndRelease := by
  unfold Obligations.BarriersHoldAndRelease
  intro s k c p l
  refine ⟨fun ⟨h, _⟩ hl => ?_, fun f ⟨h, _⟩ hr hl => ?_, fun f ⟨h, _⟩ => exec_ppoint_badRanges h, fun n => exec_barrierRelease_all,
    fun n => exec_barrierRelease_waits⟩
  · rw [exec_barrier h, State.arrive_of_reach _ hl]
  · rw [exec_ppoint h hr, State.arrive_of_reach _ hl]

/-! ### The release of a PPOINT (R92; 10 R297, R298) -/

/-- The course with the lines cleared that no core declared. -/
def State.cleared (s : State) (n : Nat) : State :=
  s.modRun fun g => { g with cores := tblMap g.cores fun _ c => if c.step = n then c.clearLines else c }

/-- The course that has left its point, its count toward PP_GAP started anew. -/
def State.freed (s : State) (n : Nat) (p : Step) : State := (left (s.cleared n) n p).updStp n fun q => { q with gap := 0 }

theorem exec_ppointRelease {s : State} {n : Nat} {p : Step} (hp : s.running n = some p) (h : allAt s p fun h => ∃ f, h = .atPpoint f)
    (hq : ∀ e ∈ s.cores p, e.2.queue = [] ∧ e.2.getOutside = false) :
    exec (.ppointRelease n) s = .next
      (if p.lent = true ∧ (s.freed n p).noticed p.ctx n = true then (s.freed n p).preempt n
       else if p.lent = true ∧ (s.freed n p).armed p.ctx = true then (s.freed n p).updStp n fun q => { q with ph := .held }
       else s.freed n p) := by
  have hoff := State.offEnd_eq_none h
  obtain ⟨hne, hmsgs, hall⟩ := h
  have hget : (s.cores p).find? (fun e => e.2.getOutside) = none := by
    rw [List.find?_eq_none]
    intro e he
    simp [(hq e he).2]
  show execPpointRelease n s = _
  unfold execPpointRelease
  rw [hp]
  dsimp only
  rw [if_neg, hoff, hget]
  · simp only [Bool.and_eq_true]
    rw [apply_ite Host.Outcome.next, apply_ite Host.Outcome.next]
    congr
  · simp only [hmsgs, Bool.or_eq_true, List.isEmpty_iff, hne, List.any_eq_true]
    rintro ((h | h) | ⟨e, he, h⟩)
    · exact h
    · cases h
    · obtain ⟨f, hf⟩ := (hall e he).1
      simp [hf, (hq e he).1] at h

theorem preemptionPointReleases : Sys2Proof.Parts.PreemptionPointReleases := by
  unfold Sys2Proof.Parts.PreemptionPointReleases
  intro s n p hp h hq
  exact exec_ppointRelease hp h hq

/-- A byte of local store after the release: that of a declared line is kept, any other reads as zero. -/
theorem Core.clearLines_get {c : Core} {f : FmtPp} (h : c.ph = .atPpoint f) (a : Nat) :
    c.clearLines.ls.get a = if inRanges (liveRanges f) (a / 256) then c.ls.get a else 0 := by
  have hr : c.ranges = liveRanges f := by rw [Core.ranges, h]
  simp only [Core.clearLines, hr, Store.get, tblFind_tblKeep_key]
  by_cases hin : inRanges (liveRanges f) (a / 256) = true
  · simp [hin]
  · simp [hin]

theorem undeclaredLinesReadZero : Sys2Proof.Parts.UndeclaredLinesReadZero := by
  unfold Sys2Proof.Parts.UndeclaredLinesReadZero
  intro c f a h
  refine ⟨fun hin => ?_, fun hin => ?_, Store.get_of_not_written rfl⟩
  · rw [Core.clearLines_get h, hin]; rfl
  · rw [Core.clearLines_get h, hin]; rfl

/-- Settles O20: `Core.clearLines` keeps the lines inside the declared ranges and clears the written bits of the others. -/
theorem preemptionPoints : Obligations.PreemptionPoints := ⟨preemptionPointReleases, undeclaredLinesReadZero⟩

end Sys2Proof.Machine

/-! PROOFS. What the operations on sessions, frames, adapters and bulk messages leave alone: the courses, jobs and the
scheduler, which are `State.run`. -/

namespace Sys2Proof.Machine

/-! ### Lists of operations -/

/-- A fold of operations of which each leaves `run` alone. -/
theorem State.foldl_run {α : Type} {f : State → α → State} (h : ∀ t a, (f t a).run = t.run) (l : List α) (s : State) :
    (l.foldl f s).run = s.run :=
  List.foldlRecOn l f (motive := fun t => t.run = s.run) rfl fun t ht a _ => (h t a).trans ht

theorem State.each_run {α : Type} {f : State → α → State} (h : ∀ t a, (f t a).run = t.run) (l : List α) (s : State) :
    (s.each l f).run = s.run := State.foldl_run h l s

theorem State.ite_run {q : Prop} [Decidable q] {a b : State} {r : Run} (ha : a.run = r) (hb : b.run = r) : (if q then a else b).run = r := by
  split <;> assumption

/-! ### Frames, runs and copies (05 R148, R149; 06 R167) -/

@[simp] theorem State.updSess_run (s : State) (h : Nat) (f : Session → Session) : (s.updSess h f).run = s.run := rfl

@[simp] theorem State.unitFree_run (s : State) (f : Nat) : (s.unitFree f).run = s.run := by
  unfold State.unitFree
  dsimp only
  split <;> rfl

@[simp] theorem State.unitsFree_run (s : State) (fs : List Nat) : (s.unitsFree fs).run = s.run := State.each_run State.unitFree_run fs s

@[simp] theorem State.runFree_run (s : State) (ctx l o : Nat) : (s.runFree ctx l o).run = s.run := by
  unfold State.runFree
  dsimp only
  split <;> rfl

@[simp] theorem State.copyFree_run (s : State) (ctx : Nat) (e : Pte) : (s.copyFree ctx e).run = s.run := by
  unfold State.copyFree
  exact State.ite_run (s.unitFree_run _) (State.ite_run (s.runFree_run _ _ _) rfl)

@[simp] theorem State.entFree_run (s : State) (ctx : Nat) (e : Pte) : (s.entFree ctx e).run = s.run := by
  unfold State.entFree
  exact State.ite_run (s.copyFree_run _ _) (State.ite_run (s.unitFree_run _) rfl)

@[simp] theorem State.dirFree_run (s : State) (ctx : Nat) (d : Dir) : (s.dirFree ctx d).run = s.run := by
  unfold State.dirFree
  exact State.ite_run (s.unitsFree_run _) (State.ite_run (s.runFree_run _ _ _) rfl)

/-! ### Reservations, pins and posts (05 R147, R151; 03 R95) -/

theorem State.commitPage_run (p : Step) (i : Nat) (e : SeqEnt) (g j : Nat) (s : State) : (State.commitPage p i e g j s).run = s.run := by
  unfold State.commitPage
  split
  · rfl
  · refine State.ite_run rfl (State.ite_run rfl (State.ite_run ?_ rfl))
    exact (State.updSess_run _ _ _).trans (State.copyFree_run _ _ _)

theorem State.unappend_run (p : Step) (s : State) (a : AppendLog) : (State.unappend p s a).run = s.run := by
  unfold State.unappend
  dsimp only
  split
  · rfl
  · exact State.ite_run rfl rfl

theorem State.undoPage_run (s : State) (u : UndoPage) : (s.undoPage u).run = s.run := by
  unfold State.undoPage
  split
  · rfl
  · refine State.ite_run ?_ (State.ite_run rfl rfl)
    exact (State.updSess_run _ _ _).trans (State.entFree_run _ _ _)

theorem State.endRes_run (s : State) (n : Nat) (p : Step) (bad : Bool) : (s.endRes n p bad).run = s.run := by
  unfold State.endRes
  refine (State.foldl_run (fun t e => State.updSess_run t _ _) _ _).trans ?_
  split
  · exact (State.each_run State.undoPage_run _ _).trans (State.each_run (State.unappend_run p) _ _)
  · refine State.foldl_run (fun t e => ?_) _ _
    refine State.foldl_run (fun t g => ?_) _ _
    exact State.foldl_run (fun t j => State.commitPage_run _ _ _ _ _ t) _ _

theorem State.unpin_run (s : State) (h : Nat) : (s.unpin h).run = s.run := by
  unfold State.unpin
  split
  · rfl
  · exact State.ite_run rfl rfl

theorem State.sendPost_run (s : State) (p : Step) (q : Post) : (s.sendPost p q).run = s.run := by
  unfold State.sendPost
  exact State.ite_run rfl (State.ite_run rfl (s.event_run _ _))

/-! ### Bulk messages (08 R239-R241) -/

@[simp] theorem State.updFlow_run (s : State) (node : Nat) (f : Flow → Flow) : (s.updFlow node f).run = s.run := rfl
@[simp] theorem State.lwPut_run (s : State) (node r : Nat) (w : Option LwRec) : (s.lwPut node r w).run = s.run := rfl

theorem State.devRead_run (s : State) (a n : Nat) : (s.devRead a n).run = s.run := by
  unfold State.devRead
  split
  · exact State.fatal_run _ _ _ _ _
  · rfl

theorem State.evict_run (s : State) (node : Nat) : (s.evict node).run = s.run := by
  unfold State.evict
  split
  · rfl
  · refine (State.count_run _ _ _ _ _).trans (State.ite_run ((State.lwPut_run _ _ _ _).trans ?_) ?_)
    · exact State.lwPut_run _ _ _ _
    · exact State.lwPut_run _ _ _ _

theorem State.flowLoad_run {s t : State} {node : Nat} (h : s.flowLoad node = some t) : t.run = s.run := by
  unfold State.flowLoad at h
  dsimp only at h
  split at h
  · exact Option.some.inj h ▸ rfl
  · split at h
    · exact Option.some.inj h ▸ State.devRead_run _ _ _
    · obtain ⟨v, -, rfl⟩ := Option.map_eq_some_iff.1 h
      exact (State.devRead_run _ _ _).trans (State.evict_run _ _)

theorem State.bulkIssue_run (s : State) (node : Nat) (m : BulkMsg) : (s.bulkIssue node m).run = s.run := by
  unfold State.bulkIssue
  dsimp only
  split
  next t ht =>
    have hload := State.flowLoad_run ht
    exact (State.updFlow_run t _ _).trans hload
  next => rfl

theorem State.lastCredits_run (s : State) (p : Step) : (s.lastCredits p).run = s.run := by
  unfold State.lastCredits
  split
  · refine State.ite_run rfl ?_
    exact State.foldl_run (fun t k => State.bulkIssue_run _ _ _) _ _
  · rfl

@[simp] theorem State.ringOrphan_run (s : State) (n : Nat) : (s.ringOrphan n).run = s.run := rfl
@[simp] theorem State.ringSilent_run (s : State) (n : Nat) : (s.ringSilent n).run = s.run := rfl

theorem State.stepEntry_run (s : State) (sq cq ctx : Nat) (d : StepDesc) (st cycles discarded : Nat) (a : Option (Nat × Nat)) (head : Nat) :
    (s.stepEntry sq cq ctx d st cycles discarded a head).run = s.run := s.settle_run _ _ _

/-! ### Adapters (05 R157, R158) -/

@[simp] theorem State.adPin_run (s : State) (ctx a : Nat) (d : Int) (v : Nat) : (s.adPin ctx a d v).run = s.run := rfl

theorem State.adRetire_run (s : State) (ctx a : Nat) : (s.adRetire ctx a).run = s.run := by
  unfold State.adRetire
  split
  · rfl
  · exact State.each_run (fun t v => State.event_run _ _ _) _ _

/-! ### Units that are taken (05 R141, R145, R148) -/

theorem State.unitAlloc_run {s t : State} {ctx die f : Nat} {u : SlabUse} (h : s.unitAlloc ctx die u = some (f, t)) : t.run = s.run := by
  unfold State.unitAlloc at h
  dsimp only at h
  split at h
  · exact (Prod.mk.inj (Option.some.inj h)).2 ▸ rfl
  · split at h
    · obtain ⟨k, -, hk⟩ := Option.map_eq_some_iff.1 h
      exact (Prod.mk.inj hk).2 ▸ rfl
    · cases h

theorem State.unitsAlloc_run {s t : State} {ctx die n : Nat} {u : SlabUse} {fs : List Nat} (h : s.unitsAlloc ctx die u n = some (fs, t)) :
    t.run = s.run := by
  induction n generalizing s fs with
  | zero => exact (Prod.mk.inj (Option.some.inj h)).2 ▸ rfl
  | succ n ih =>
    unfold State.unitsAlloc at h
    split at h
    · cases h
    next f t1 h1 =>
      obtain ⟨⟨gs, t2⟩, h2, ht⟩ := Option.map_eq_some_iff.1 h
      obtain ⟨-, rfl⟩ := Prod.mk.inj ht
      exact (ih h2).trans (State.unitAlloc_run h1)

theorem State.dirGrow_run {s t : State} {ctx die n fuel : Nat} {d d' : Dir} (h : s.dirGrow ctx die n d fuel = some (d', t)) :
    t.run = s.run := by
  induction fuel generalizing s d with
  | zero => exact (Prod.mk.inj (Option.some.inj h)).2 ▸ rfl
  | succ fuel ih =>
    unfold State.dirGrow at h
    split at h
    · exact (Prod.mk.inj (Option.some.inj h)).2 ▸ rfl
    · split at h
      · cases h
      next f t1 h1 => exact (ih h).trans (State.unitAlloc_run h1)

theorem State.dirNeed_run {s t : State} {ctx die n : Nat} {d d' : Dir} (h : s.dirNeed ctx die n d = some (d', t)) : t.run = s.run := by
  unfold State.dirNeed at h
  split at h
  · cases h
  next d1 s1 h1 =>
    dsimp only at h
    split at h
    · cases h
    next d2 s2 h2 =>
      have hs2 : s2.run = s1.run := by
        split at h2
        · obtain ⟨a, ha, he⟩ := Option.map_eq_some_iff.1 h2
          exact (Prod.mk.inj he).2 ▸ State.unitAlloc_run (f := a.1) ha
        · exact (Prod.mk.inj (Option.some.inj h2)).2 ▸ rfl
      refine Eq.trans ?_ (hs2.trans (State.dirGrow_run h1))
      split at h
      · exact (Prod.mk.inj (Option.some.inj h)).2 ▸ rfl
      · obtain ⟨a, ha, he⟩ := Option.map_eq_some_iff.1 h
        exact (Prod.mk.inj he).2 ▸ State.unitAlloc_run (f := a.1) ha

theorem State.openPage_run {s t : State} {h n : Nat} {x : Session} {b : BindRec} (ho : s.openPage h n x b = some t) : t.run = s.run := by
  unfold State.openPage at ho
  split at ho
  · cases ho
  next d t1 h1 =>
    obtain ⟨a, ha, rfl⟩ := Option.map_eq_some_iff.1 ho
    exact (State.unitAlloc_run (f := a.1) (t := a.2) ha).trans (State.dirNeed_run h1)

/-! ### Held sessions (06 R183, R193) -/

theorem State.freeParked_run (s : State) (h : Nat) : (s.freeParked h).run = s.run := by
  unfold State.freeParked
  split
  · rfl
  · split
    · rfl
    · refine (State.updSess_run _ _ _).trans ((State.dirFree_run _ _ _).trans (State.each_run (fun t e => ?_) _ _))
      exact State.ite_run (t.copyFree_run _ _) rfl

theorem State.dropParked_run (s : State) (h : Nat) : (s.dropParked h).run = s.run := by
  unfold State.dropParked
  split
  · rfl
  · exact State.ite_run rfl (s.freeParked_run h)

theorem State.unhold_run (s : State) (h : Nat) : (s.unhold h).run = s.run := by
  unfold State.unhold
  split
  · rfl
  · exact State.ite_run (State.dropParked_run _ _) rfl

theorem State.pinSessions_run (s : State) (seqs : List SeqEnt) : (s.pinSessions seqs).run = s.run := by
  refine State.foldl_run (fun t e => ?_) seqs s
  exact (State.updSess_run _ _ _).trans (t.unhold_run e.handle)

end Sys2Proof.Machine

/-! PROOFS. The limits that end a step, and what is left of an ended one (03 R98-R100; 04 R120; 10 R295, R297). -/

namespace Sys2Proof.Machine

/-! ### One step leaves the scheduler (R98, R99) -/

/-- `t` has the steps and the cores of `s`. -/
def State.SameCourses (s t : State) : Prop := t.run.steps = s.run.steps ∧ t.run.cores = s.run.cores

theorem State.SameCourses.of_run {s t : State} (h : t.run = s.run) : s.SameCourses t := ⟨congrArg Run.steps h, congrArg Run.cores h⟩

theorem State.SameCourses.trans {s t u : State} (h : s.SameCourses t) (h2 : t.SameCourses u) : s.SameCourses u :=
  ⟨h2.1.trans h.1, h2.2.trans h.2⟩

theorem State.SameCourses.ite {s a b : State} {q : Prop} [Decidable q] (ha : s.SameCourses a) (hb : s.SameCourses b) :
    s.SameCourses (if q then a else b) := by split <;> assumption

theorem State.sameCourses_charge (s : State) (c r : Nat) (n : Int) : s.SameCourses (s.charge c r n) := ⟨rfl, rfl⟩

/-- The machine without step `n` and its cores, its late expiries noted (11 R332). -/
def State.without (s : State) (n : Nat) (p : Step) (st : Nat) : State :=
  s.modRun fun g => { g with
    steps := tblDel g.steps n
    cores := tblKeep g.cores fun _ c => c.step != n
    chosen := if g.chosen = some n then none else g.chosen
    expiries := (s.leftOver n p st).foldl (fun t e => tblIns t e.1 e.2) g.expiries }

/-- Posts, reservations and pins of a step that ends touch no course. -/
theorem State.releases_run (s : State) (n : Nat) (p : Step) (bad : Bool) :
    (((s.each p.posts fun t w => t.sendPost p w).endRes n p bad).each p.seqs fun t e => t.unpin e.handle).run = s.run :=
  (State.each_run (fun t (e : SeqEnt) => State.unpin_run t e.handle) _ _).trans
    ((State.endRes_run _ n p bad).trans (State.each_run (fun t w => State.sendPost_run t p w) _ _))

/-- What a step of a ring leaves to its neighbours touches no course. -/
theorem State.ringEnd_run (s : State) (n : Nat) (p : Step) (bad : Bool) :
    (if bad = true then s.ringSilent n else (s.lastCredits p).ringOrphan n).run = s.run :=
  State.ite_run (State.ringSilent_run _ _) ((State.ringOrphan_run _ _).trans (State.lastCredits_run _ _))

theorem State.ringFrames_run (s : State) (o : Option RingSt) : (match o with | some r => s.unitsFree r.frames | none => s).run = s.run := by
  cases o with
  | none => rfl
  | some r => exact s.unitsFree_run _

theorem State.sameCourses_endOne (s : State) (n : Nat) (p : Step) (st : Nat) (a : Option (Nat × Nat)) :
    (s.without n p st).SameCourses (s.endOne n p st a) := by
  have hrel := State.SameCourses.of_run (State.releases_run (s.without n p st) n p (isClassF st))
  unfold State.endOne
  dsimp only
  refine .trans ?_ (.of_run (State.stepEntry_run _ _ _ _ _ _ _ _ _ _))
  refine .trans ?_ (.of_run (State.ringEnd_run _ n p _))
  have hring := hrel.trans (.of_run (State.ringFrames_run _ p.ring))
  exact .ite hring (hring.trans (State.sameCourses_charge _ _ _ _))

/-- Of the courses and steps, the end of step `n` takes away its own alone. -/
theorem State.endOne_run (s : State) (n : Nat) (p : Step) (st : Nat) (a : Option (Nat × Nat)) :
    (s.endOne n p st a).run.steps = tblDel s.run.steps n
    ∧ (s.endOne n p st a).run.cores = tblKeep s.run.cores fun _ c => c.step != n := s.sameCourses_endOne n p st a

/-! ### Nothing is left of a step -/

/-- Step `n` is not there, and no core is one of its course. -/
structure State.Gone (s : State) (n : Nat) : Prop where
  wf : tblWf s.run.steps = true
  step : tblFind s.run.steps n = none
  cores : ∀ e ∈ s.run.cores, e.2.step ≠ n

theorem State.Gone.congr {s t : State} {n : Nat} (h : s.Gone n) (hst : s.SameCourses t) : t.Gone n := by
  obtain ⟨hw, hn, hk⟩ := h
  obtain ⟨hs, hc⟩ := hst
  exact ⟨hs ▸ hw, hs ▸ hn, hc ▸ hk⟩

/-- The step that ends is gone. -/
theorem State.gone_endOne_self {s : State} {n : Nat} (hw : tblWf s.run.steps = true) (p : Step) (st : Nat) (a : Option (Nat × Nat)) :
    (s.endOne n p st a).Gone n := by
  obtain ⟨hs, hc⟩ := s.endOne_run n p st a
  refine ⟨hs ▸ tblWf_tblDel hw n, hs ▸ tblFind_tblDel_self hw n, fun e he => ?_⟩
  rw [hc] at he
  exact bne_iff_ne.1 (List.mem_filter.1 he).2

/-- The end of another step leaves it gone. -/
theorem State.Gone.endOne {s : State} {n : Nat} (h : s.Gone n) (m : Nat) (p : Step) (st : Nat) (a : Option (Nat × Nat)) :
    (s.endOne m p st a).Gone n := by
  obtain ⟨hw, hn, hk⟩ := h
  obtain ⟨hs, hc⟩ := s.endOne_run m p st a
  refine ⟨hs ▸ tblWf_tblDel hw m, ?_, fun e he => ?_⟩
  · rw [hs]
    by_cases hm : n = m
    · exact hm ▸ tblFind_tblDel_self hw n
    · rw [tblFind_tblDel_of_ne _ hm, hn]
  · rw [hc] at he
    exact hk e (List.mem_filter.1 he).1

theorem State.Gone.endJob {s : State} {n : Nat} (h : s.Gone n) (j : Nat) : (s.endJob j).Gone n := by
  unfold State.endJob
  split
  · exact h
  next b _ =>
    have hrun : (b.pins.foldl (fun t v => (t.adPin b.ctx v.1 (-1) v.2.1).adRetire b.ctx v.1) s).run = s.run :=
      State.foldl_run (fun t v => (State.adRetire_run _ _ _).trans (State.adPin_run _ _ _ _ _)) _ _
    have hjob : s.SameCourses _ := .of_run hrun
    exact h.congr ⟨hjob.1, hjob.2⟩

/-- A pre-empted course is one that is there, so it is another. -/
theorem State.Gone.preempt {s : State} {n : Nat} (h : s.Gone n) (m : Nat) : (s.preempt m).Gone n := by
  unfold State.preempt
  split
  · exact h
  next q hq =>
    obtain ⟨hw, hn, hk⟩ := h
    have hne : n ≠ m := by
      rintro rfl
      rw [State.stp, hn] at hq
      cases hq
    exact ⟨tblWf_tblIns hw _ _, (tblFind_tblIns_of_ne _ _ hne).trans hn, fun e he => hk e (List.mem_filter.1 he).1⟩

theorem State.Gone.resume {s : State} {n : Nat} (h : s.Gone n) (c : Nat) (ends : Bool) : (s.resume c ends).Gone n := by
  have hpre : ∀ l : List Nat, (s.each l State.preempt).Gone n := fun l =>
    List.foldlRecOn l State.preempt (motive := fun t => t.Gone n) h fun t ht m _ => ht.preempt m
  have hmap : ∀ (t : State) (f : Nat → Step → Step), t.Gone n → (t.modRun fun g => { g with steps := tblMap g.steps f }).Gone n :=
    fun t f ht => ⟨tblWf_tblMap ht.wf f, by rw [State.modRun_run, tblFind_tblMap, ht.step]; rfl, ht.cores⟩
  unfold State.resume
  dsimp only
  refine hmap _ _ ?_
  split
  · exact h
  · exact hpre _

/-- A step that has ended is gone, whatever else its end brings (R98, R99, R288; 10 R298, R302). -/
theorem State.gone_endStep {s : State} {n : Nat} {p : Step} (hw : tblWf s.run.steps = true) (hp : s.stp n = some p) (st : Nat)
    (a : Option (Nat × Nat)) : (s.endStep n st a).Gone n := by
  unfold State.endStep
  rw [hp]
  dsimp only
  generalize hs1 : s.endOne n p _ _ = s1
  have h1 : s1.Gone n := hs1 ▸ State.gone_endOne_self hw p _ _
  refine State.Gone.resume ?_ _ _
  split
  · refine State.Gone.endJob ?_ _
    exact List.foldlRecOn _ _ (motive := fun t => State.Gone t n) h1 fun t ht e _ => ht.endOne _ _ _ _
  · split
    · exact h1.endJob _
    · exact h1

theorem anEndedStepIsGone : Sys2Proof.Parts.AnEndedStepIsGone := by
  unfold Sys2Proof.Parts.AnEndedStepIsGone
  intro s n st p a hw hp
  have hgone := State.gone_endStep hw hp st a
  exact ⟨hgone.step, fun k c hc => hgone.cores (k, c) (mem_of_tblFind hc)⟩

/-! ### The limits -/

section
variable {s : State} {n : Nat} {p : Step}

theorem exec_wcetOverrun (hl : s.live = true) (hp : s.stp n = some p) (hr : p.ph = .running)
    (hc : s.pastCount p.d.wcet.toNat p.executed = true) : exec (.wcetOverrun n) s = .next (s.endStep n stWcetOverrun none) := by
  show execWcetOverrun n s = _
  simp only [execWcetOverrun, hp, hl, hr, hc, beq_self_eq_true, Bool.and_self, if_true]

theorem exec_stepDeadline (hl : s.live = true) (hp : s.stp n = some p) (hd : p.d.deadline.toNat ≠ 0)
    (hpast : s.past (p.release + p.d.deadline.toNat) = true) : exec (.stepDeadline n) s = .next (s.endStep n stDeadline none) := by
  have hd' : (p.d.deadline != 0) = true := bne_iff_ne.2 fun e => hd (by rw [e]; rfl)
  show execStepDeadline n s = _
  simp only [execStepDeadline, hp, hl, hd', hpast, Bool.and_self, if_true]

theorem exec_ppGapExpiry (hl : s.live = true) (hp : s.stp n = some p) (hlent : p.lent = true) (hr : p.ph = .running)
    (hc : s.pastCount p.d.ppGap.toNat p.gap = true) : exec (.ppGapExpiry n) s = .next (s.endStep n stPpGap none) := by
  show execPpGapExpiry n s = _
  simp only [execPpGapExpiry, hp, hl, hlent, hr, hc, beq_self_eq_true, Bool.and_self, if_true]

/-- A wait that has lasted its STALL. -/
theorem State.stalled_of_past {i since : Nat} (hf : tblFind p.stall i = some since) (hm : p.stallMs i ≠ 0)
    (hpast : s.past (since + p.stallMs i * 625000) = true) : s.stalled p i = true := by
  rw [State.stalled, hf]
  exact (Bool.and_eq_true _ _).mpr ⟨bne_iff_ne.2 hm, hpast⟩

theorem exec_streamStall_segment {i ip : Nat} {c : Core} (hl : s.live = true) (hp : s.stp n = some p) (hr : p.ph = .running)
    (hw : s.waitsOn p = [(i, c, ip)]) (hst : s.stalled p i = true) :
    exec (.streamStall n) s = .next (s.stepFail c.step c.pos ip stStreamStall) := by
  show execStreamStall n s = _
  simp only [execStreamStall, hp, State.running_eq_some.2 ⟨hp, hl, hr⟩, hw, List.find?_cons, hst]
  rfl

theorem exec_streamStall_credit (hl : s.live = true) (hp : s.stp n = some p) (hr : p.ph = .running) (hw : s.waitsOn p = [])
    (hc : p.awaitsCredit = true) (hst : s.stalled p creditKey = true) :
    exec (.streamStall n) s = .next (s.endStep n stStreamStall none) := by
  show execStreamStall n s = _
  simp only [execStreamStall, hp, State.running_eq_some.2 ⟨hp, hl, hr⟩, hw, List.find?_nil, hc, hst, Bool.and_self, if_true]

end

theorem timeLimitsEndAStep : Sys2Proof.Parts.TimeLimitsEndAStep := by
  unfold Sys2Proof.Parts.TimeLimitsEndAStep
  intro s n p hl hp
  exact ⟨exec_wcetOverrun hl hp, exec_stepDeadline hl hp, exec_ppGapExpiry hl hp,
    fun i c ip since hr hw hf hm hpast => exec_streamStall_segment hl hp hr hw (State.stalled_of_past hf hm hpast),
    fun since hr hw hc hf hm hpast => exec_streamStall_credit hl hp hr hw hc (State.stalled_of_past hf hm hpast)⟩

/-- Settles O22: each limit ends the step by `State.endStep`, and nothing that follows the removal of a step touches the run. -/
theorem stepsEnd : Obligations.StepsEnd := ⟨timeLimitsEndAStep, anEndedStepIsGone⟩

end Sys2Proof.Machine

/-! PROOFS. Step descriptors (03 R97; 10 R291; 11 R324, R327): the first checks, what becomes of an entry, and what an admission
leaves: one waiting step under the next number. -/

namespace Sys2Proof.Machine

/-! ### The first checks (R97) -/

theorem firstBad_cons_true (st : Nat) (l : List (Bool × Nat)) : firstBad ((true, st) :: l) = firstBad l := rfl
theorem firstBad_cons_false (st : Nat) (l : List (Bool × Nat)) : firstBad ((false, st) :: l) = some st := rfl

theorem dver_beq_one (d : StepDesc) : (d.dver == 1) = decide (d.dver.toNat = 1) := by
  rw [Bool.eq_iff_iff, beq_iff_eq, decide_eq_true_eq, ← BitVec.toNat_inj]
  rfl

/-- The field checks come before everything else. -/
theorem State.admission_of_fieldChecks {s : State} {d : StepDesc} {b : Bool} {st : Nat} (sq : Nat) (h : s.fieldChecks d b = some st) :
    s.admission sq d b = .error (st, false) := by
  simp only [State.admission, h]

theorem firstFailingCheckDecides : Sys2Proof.Parts.FirstFailingCheckDecides := by
  unfold Sys2Proof.Parts.FirstFailingCheckDecides
  intro s sq d
  refine ⟨fun hv b => ?_, fun hv => ?_, fun hv hw hq => ?_, fun hv hq hok => ?_⟩
  · apply State.admission_of_fieldChecks
    rw [State.fieldChecks, dver_beq_one, decide_eq_false hv, firstBad_cons_false]
  · apply State.admission_of_fieldChecks
    rw [State.fieldChecks, dver_beq_one, decide_eq_true hv, firstBad_cons_true, firstBad_cons_false]
  · apply State.admission_of_fieldChecks
    have hset : (!d.wholeCl || descQuads d % 4 == 0) = false := by rw [hw, beq_eq_false_iff_ne.2 hq]; rfl
    rw [State.fieldChecks, dver_beq_one, decide_eq_true hv, hset, firstBad_cons_true, firstBad_cons_true, firstBad_cons_false]
  · apply State.admission_of_fieldChecks
    have hset : (!d.wholeCl || descQuads d % 4 == 0) = true := by
      cases hw : d.wholeCl with
      | false => rfl
      | true => exact beq_iff_eq.2 (hq hw)
    rw [State.fieldChecks, dver_beq_one, decide_eq_true hv, hset, hok, firstBad_cons_true, firstBad_cons_true, firstBad_cons_true,
      firstBad_cons_false]

/-! ### What becomes of an entry (11 R324, R327) -/

section
variable {s t : State} {sq q : Nat} {d : StepDesc}

theorem exec_stepDescriptor_badVersion (h : Taken s t sq q (.step d)) (hv : d.dver.toNat ≠ 1) :
    exec (.stepDescriptor sq d) s = .next (t.stepEntry sq q (s.qctx q) d stVersion 0 0 none (t.sqHeadOf sq)) := by
  obtain ⟨hm, hcq, rfl, rfl⟩ := h
  show execStepDescriptor sq d s = _
  simp only [execStepDescriptor, hm, bne, dver_beq_one, decide_eq_false hv, Bool.not_true, Bool.not_false, Bool.false_eq_true, if_false, if_true]

theorem exec_stepDescriptor_admitted {v : State} (h : Taken s t sq q (.step d)) (hv : d.dver.toNat = 1)
    (ha : (t.sweepNamed d).admission sq d ((t.sweepNamed d).ctxOk sq d.ctx.toNat) = .ok v) :
    exec (.stepDescriptor sq d) s = .next (v.ringStart s.run.nextStep) := by
  obtain ⟨hm, hcq, rfl, rfl⟩ := h
  show execStepDescriptor sq d s = _
  simp only [execStepDescriptor, hm, hcq, ha, bne, dver_beq_one, decide_eq_true hv, Bool.not_true, Bool.false_eq_true, if_false]

theorem exec_stepDescriptor_rejected {st : Nat} {nine : Bool} (h : Taken s t sq q (.step d)) (hv : d.dver.toNat = 1)
    (ha : (t.sweepNamed d).admission sq d ((t.sweepNamed d).ctxOk sq d.ctx.toNat) = .error (st, nine)) :
    let u := if nine then (t.sweepNamed d).count 0x3108 1 else t.sweepNamed d
    exec (.stepDescriptor sq d) s = .next (u.stepEntry sq q (s.qctx q) d st 0 0 none (u.sqHeadOf sq)) := by
  obtain ⟨hm, hcq, rfl, rfl⟩ := h
  show execStepDescriptor sq d s = _
  simp only [execStepDescriptor, hm, hcq, ha, bne, dver_beq_one, decide_eq_true hv, Bool.not_true, Bool.false_eq_true, if_false]

end

theorem descriptorsAreAdmittedOrRejected : Sys2Proof.Parts.DescriptorsAreAdmittedOrRejected := by
  unfold Sys2Proof.Parts.DescriptorsAreAdmittedOrRejected
  intro s t sq q d h u
  exact ⟨fun v hv ha => exec_stepDescriptor_admitted h hv ha, exec_stepDescriptor_badVersion h,
    fun st hv ha => exec_stepDescriptor_rejected h hv ha, fun st hv ha => exec_stepDescriptor_rejected h hv ha⟩

/-! ### What an admission adds -/

/-- Step `n` waits, with descriptor `d`, taken from ring `sq`; it holds nothing and has not run. -/
def State.Admitted (s : State) (n sq : Nat) (d : StepDesc) : Prop :=
  ∃ p, s.stp n = some p ∧ p.d = d ∧ p.sq = sq ∧ p.ph = .waiting ∧ p.quads = [] ∧ p.executed = 0 ∧ p.fail = none

section
variable {s t : State} {n sq : Nat} {d : StepDesc}

theorem State.Admitted.congr (h : s.Admitted n sq d) (hs : t.run.steps = s.run.steps) : t.Admitted n sq d := by
  obtain ⟨p, hp, hrest⟩ := h
  exact ⟨p, (congrArg (tblFind · n) hs).trans hp, hrest⟩

theorem State.Admitted.of_run (h : s.Admitted n sq d) (hr : t.run = s.run) : t.Admitted n sq d := h.congr (congrArg Run.steps hr)

/-- The reservation notes a page in the step. -/
theorem State.Admitted.noteUndo (h : s.Admitted n sq d) (u : UndoPage) :
    (s.updStp n fun p => { p with undo := p.undo ++ [u] }).Admitted n sq d := by
  obtain ⟨p, hp, hrest⟩ := h
  exact ⟨_, (s.stp_updStp_self n _).trans (congrArg (Option.map _) hp), hrest⟩

/-- A ring step gets its buffers. -/
theorem State.Admitted.noteRing (h : s.Admitted n sq d) (r : RingSt) :
    (s.updStp n fun p => { p with ring := some r }).Admitted n sq d := by
  obtain ⟨p, hp, hrest⟩ := h
  exact ⟨_, (s.stp_updStp_self n _).trans (congrArg (Option.map _) hp), hrest⟩

/-- A fold that stops at the first failure keeps what each of its parts keeps. -/
theorem foldl_option_bind {α : Type} {P : State → Prop} {f : State → α → Option State} (hf : ∀ s a t, P s → f s a = some t → P t) (l : List α)
    {o : Option State} (ho : ∀ s, o = some s → P s) (ht : l.foldl (fun o a => o.bind fun s => f s a) o = some t) : P t := by
  induction l generalizing o with
  | nil => exact ho t ht
  | cons a l ih =>
    refine ih (fun u hu => ?_) ht
    obtain ⟨s, hs, hsu⟩ := Option.bind_eq_some_iff.1 hu
    exact hf s a u (ho s hs) hsu

theorem except_bind_eq_ok {α β : Type} {x : Except Nat α} {f : α → Except Nat β} {b : β} (h : x.bind f = .ok b) :
    ∃ a, x = .ok a ∧ f a = .ok b := by
  cases x with
  | error e => cases h
  | ok a => exact ⟨a, rfl, h⟩

theorem foldl_except_bind {α : Type} {P : State → Prop} {f : State → α → Except Nat State} (hf : ∀ s a t, P s → f s a = .ok t → P t)
    (l : List α) {o : Except Nat State} (ho : ∀ s, o = .ok s → P s) (ht : l.foldl (fun o a => o.bind fun s => f s a) o = .ok t) : P t := by
  induction l generalizing o with
  | nil => exact ho t ht
  | cons a l ih =>
    refine ih (fun u hu => ?_) ht
    obtain ⟨s, hs, hsu⟩ := except_bind_eq_ok hu
    exact hf s a u (ho s hs) hsu

theorem State.Admitted.reservePages {h : Nat} {ns : List Nat} (ha : s.Admitted n sq d) (ht : State.reservePages n h ns s = some t) :
    t.Admitted n sq d := by
  refine foldl_option_bind (P := fun u => u.Admitted n sq d) (fun s k t hs hst => ?_) ns (fun u hu => ?_) ht
  · split at hst
    · cases hst
    next x hx =>
      dsimp only at hst
      split at hst
      · exact Option.some.inj hst ▸ hs.noteUndo _
      · obtain ⟨u, hu, rfl⟩ := Option.map_eq_some_iff.1 hst
        exact (hs.of_run (State.openPage_run hu)).noteUndo _
  · exact Option.some.inj hu ▸ ha

theorem State.Admitted.reserve1 {d' : StepDesc} {e : SeqEnt} (ha : s.Admitted n sq d) (ht : s.reserve1 n d' e = .ok t) :
    t.Admitted n sq d := by
  unfold State.reserve1 at ht
  split at ht
  · exact Except.ok.inj ht ▸ ha
  · split at ht
    · cases ht
    · dsimp only at ht
      split at ht
      · cases ht
      · split at ht
        · cases ht
        · split at ht
          · cases ht
          next u hu =>
            have hu' := State.Admitted.reservePages (ha.of_run (State.setSess_run _ _ _)) hu
            exact Except.ok.inj ht ▸ hu'

theorem State.Admitted.ringBuffers {d' : StepDesc} {e : SeqEnt} (ha : s.Admitted n sq d) (ht : s.ringBuffers n d' e = .ok t) :
    t.Admitted n sq d := by
  unfold State.ringBuffers at ht
  dsimp only at ht
  split at ht
  · cases ht
  next fs u hu => exact Except.ok.inj ht ▸ (ha.of_run (State.unitsAlloc_run hu)).noteRing _

theorem State.Admitted.reserveAll {d' : StepDesc} {seqs : List SeqEnt} (ha : s.Admitted n sq d) (ht : s.reserveAll n d' seqs = .ok t) :
    t.Admitted n sq d := by
  refine foldl_except_bind (P := fun u => u.Admitted n sq d) (fun s e t hs hst => ?_) seqs (fun u hu => ?_) ht
  · obtain ⟨u, hu, hut⟩ := except_bind_eq_ok hst
    split at hut
    · exact Except.ok.inj hut ▸ hs.reserve1 hu
    · exact (hs.reserve1 hu).ringBuffers hut
  · exact Except.ok.inj hu ▸ ha

end

theorem admissionAddsAWaitingStep : Sys2Proof.Parts.AdmissionAddsAWaitingStep := by
  unfold Sys2Proof.Parts.AdmissionAddsAWaitingStep
  intro s v sq d b h
  unfold State.admission at h
  dsimp only at h
  split at h
  · cases h
  split at h
  · cases h
  split at h
  · cases h
  split at h
  · cases h
  split at h
  · cases h
  next t ht =>
    split at h
    · cases h
    have hadm : t.Admitted s.run.nextStep sq d :=
      State.Admitted.reserveAll ⟨_, State.stp_setStp_self _ _ _, rfl, rfl, rfl, rfl, rfl, rfl⟩ ht
    rw [← Except.ok.inj h, State.pinSessions_run]
    refine ⟨?_, State.Admitted.congr hadm ?_⟩
    · split <;> rfl
    · rw [State.pinSessions_run]
      split <;> rfl

/-- Settles O23: the first checks decide alone, and each part of the reservation keeps the step that admission wrote. -/
theorem stepDescriptors : Obligations.StepDescriptors :=
  ⟨descriptorsAreAdmittedOrRejected, firstFailingCheckDecides, admissionAddsAWaitingStep⟩

end Sys2Proof.Machine

/-! PROOFS. Commands of a ring that pass their checks (11 R325): what the command does, and its completion. Sessions
(05 R127-R130, R139, R151, R154), bindings and adapters (05 R131-R134, R155-R158) follow from that one rule. -/

namespace Sys2Proof.Machine

section
variable {s t u : State} {sq q : Nat} {h : CmdHdr} {handle : BitVec 24} {x : Session}

/-! ### An accepted command -/

/-- A command that passes its checks and is done with ST_OK completes so. -/
theorem State.ringCmd_accepted {c : HostCmd} {hosts : List (Nat × Nat)} {f : State → CmdOut} {r : Nat}
    (ha : Accepted s t sq q h c hosts) (hf : f t = .done stOk r u) : s.ringCmd sq h c hosts f = .next (completed s u sq q h c r) := by
  obtain ⟨⟨hm, hq, rfl, rfl⟩, he, hh, hc, hk⟩ := ha
  rw [State.ringCmd_next, State.command_passes f hm hq he hh hc hk, hf]
  rfl

/-! ### The session a command names (R127, R128) -/

theorem State.named_fst (s : State) (ctx n : Nat) : (s.named ctx n).1 = (s.owned ctx n).1 := rfl

/-- A session that is named is owned, and no migration brings it in. -/
theorem State.owned_of_named {ctx n : Nat} (hx : (s.named ctx n).2 = .ok x) : (s.owned ctx n).2 = .ok x ∧ x.incoming = false := by
  unfold State.named at hx
  dsimp only at hx
  split at hx
  · cases hx
  next y hy =>
    split at hx
    · cases hx
    next hin =>
      obtain rfl := Except.ok.inj hx
      exact ⟨hy, by simpa using (not_or.1 (mt Bool.or_eq_true_iff.2 hin)).1⟩

/-! ### Sessions are created and freed (R151) -/

theorem exec_sessionCreate {binding : BitVec 8} {homeDie : BitVec 2} {eventCq : BitVec 6} {old : Session} {d : Dir}
    (ha : Accepted s t sq q h (.sessionCreate handle binding homeDie eventCq) []) (hin : t.handleIn h.ctx.toNat handle.toNat = true)
    (hold : old = (t.sess handle.toNat).getD (sesFree h.ctx.toNat)) (hfree : old.state = .free) (htomb : old.tomb = true → old.ctx = h.ctx.toNat)
    (hmig : tblFind t.ses.migIn handle.toNat = none) (hup : t.islandUp (handle.toNat % 4) = true)
    (hbind : (tblFind t.ses.binds (h.ctx.toNat * 256 + binding.toNat)).isSome = true) (hawake : t.awakeFull = false)
    (hd : t.dirFresh h.ctx.toNat homeDie.toNat = some (d, u)) :
    exec (.sessionCreate sq h handle binding homeDie eventCq) s
      = .next (completed s ((u.descTouch handle.toNat).setSess handle.toNat { sesFree h.ctx.toNat with
          state := .idle, binding := binding.toNat, homeDie := homeDie.toNat, sgen := old.sgen + 1, dir := d,
          eventCq := eventCq.toNat, lastChange := u.tick }) sq q h (.sessionCreate handle binding homeDie eventCq) (old.sgen + 1).toNat) := by
  have hmine : (old.tomb && old.ctx != h.ctx.toNat) = false := by
    cases ht : old.tomb with
    | false => rfl
    | true => simp [htomb ht]
  have hbind' : (tblFind t.ses.binds (h.ctx.toNat * 256 + binding.toNat)).isNone = false := by
    rw [← Option.not_isSome, hbind]
    rfl
  have hidle : (old.state != .free || (tblFind t.ses.migIn handle.toNat).isSome) = false := by rw [hfree, hmig]; rfl
  refine State.ringCmd_accepted ha ?_
  simp only [← hold, hin, hmine, hidle, hup, hbind', hawake, hd, Bool.not_true, Bool.false_eq_true, if_false]

theorem exec_sessionDrop (ha : Accepted s t sq q h (.sessionDrop handle) []) (hx : (t.named h.ctx.toNat handle.toNat).2 = .ok x)
    (hpins : x.stepPins = 0) (hst : x.state = .idle ∨ x.state = .parked ∨ x.state = .lost) :
    exec (.sessionDrop sq h handle) s
      = .next (completed s ((t.named h.ctx.toNat handle.toNat).1.dropSess handle.toNat x false) sq q h (.sessionDrop handle) 0) := by
  refine State.ringCmd_accepted ha ?_
  simp only [hx, if_pos (And.intro hst hpins)]

theorem exec_sessionRelease (ha : Accepted s t sq q h (.sessionRelease handle) []) (hx : t.sess handle.toNat = some x)
    (hctx : x.ctx = h.ctx.toNat) (hst : x.state = .free) (htomb : x.tomb = true) :
    exec (.sessionRelease sq h handle) s
      = .next (completed s (t.setSess handle.toNat { x with tomb := false, lastChange := t.tick }) sq q h (.sessionRelease handle) 0) := by
  refine State.ringCmd_accepted ha ?_
  simp only [hx, hctx, hst, htomb, ne_eq, not_true_eq_false, if_false, if_true]

end

theorem sessionsAreCreatedAndFreed : Sys2Proof.Parts.SessionsAreCreatedAndFreed := by
  unfold Sys2Proof.Parts.SessionsAreCreatedAndFreed
  intro s t sq q h handle
  refine ⟨fun binding homeDie eventCq old d u ha hin hold hfree htomb hmig hup hbind hawake hd => ?_,
    fun x ha hx hpins hst => ⟨exec_sessionDrop ha hx hpins hst, rfl, rfl, rfl⟩, fun x => exec_sessionRelease⟩
  exact ⟨_, exec_sessionCreate ha hin hold hfree htomb hmig hup hbind hawake hd, rfl, rfl, rfl, rfl, rfl, rfl, rfl, rfl, rfl⟩

/-! ### Pinned page indices (R139) -/

theorem mem_insAsc (a i : Nat) (l : List Nat) : i ∈ insAsc a l ↔ i = a ∨ i ∈ l := by
  induction l with
  | nil => simp [insAsc]
  | cons b l ih =>
    unfold insAsc
    split
    · exact List.mem_cons
    · split
      next hab => simp [hab]
      next => rw [List.mem_cons, ih, List.mem_cons, or_left_comm]

theorem length_insAsc_le (a : Nat) (l : List Nat) : (insAsc a l).length ≤ l.length + 1 := by
  induction l with
  | nil => exact Nat.le_refl _
  | cons b l ih =>
    unfold insAsc
    split
    · exact Nat.le_refl _
    · split
      · exact Nat.le_succ _
      · exact Nat.succ_le_succ ih

theorem mem_foldl_insAsc (i : Nat) (l pins : List Nat) : i ∈ l.foldl (fun l p => insAsc p l) pins ↔ i ∈ pins ∨ i ∈ l := by
  induction l generalizing pins with
  | nil => simp
  | cons p l ih => rw [List.foldl_cons, ih, mem_insAsc, List.mem_cons, or_assoc, or_left_comm]

theorem length_foldl_insAsc_le (l pins : List Nat) : (l.foldl (fun l p => insAsc p l) pins).length ≤ pins.length + l.length := by
  induction l generalizing pins with
  | nil => exact Nat.le_refl _
  | cons p l ih =>
    have hone := length_insAsc_le p pins
    have hrest := ih (insAsc p pins)
    rw [List.foldl_cons, List.length_cons]
    omega

@[simp] theorem length_span (a k : Nat) : (span a k).length = k := by simp [span]

theorem mem_span (i a k : Nat) : i ∈ span a k ↔ a ≤ i ∧ i < a + k := by
  simp only [span, List.mem_map, List.mem_range]
  constructor
  · rintro ⟨j, hj, rfl⟩
    omega
  · exact fun hi => ⟨i - a, by omega, by omega⟩

/-- The session with the page indices `pins` pinned: the entries of both directories agree. -/
def State.pinned (s : State) (x : Session) (pins : List Nat) : Session :=
  { x with pins := pins, dir := repin (s.sbind x).lgn.toNat pins x.dir, pdir := x.pdir.map (repin (s.sbind x).lgn.toNat pins) }

section
variable {s t : State} {sq q : Nat} {h : CmdHdr} {handle : BitVec 24} {x : Session} {first count : W32}

theorem exec_sessionPin_clear (hx : (t.named h.ctx.toNat handle.toNat).2 = .ok x)
    (ha : Accepted s t sq q h (.sessionPin handle false first count) []) (hst : x.state ≠ .migrating) :
    let r := (t.named h.ctx.toNat handle.toNat).1
    exec (.sessionPin sq h handle false first count) s
      = .next (completed s (r.setSess handle.toNat
          (r.pinned x (x.pins.filter fun p => !(decide (first.toNat ≤ p) && decide (p < first.toNat + count.toNat)))))
          sq q h (.sessionPin handle false first count) 0) := by
  refine State.ringCmd_accepted ha ?_
  simp only [hx, hst, if_false, Bool.false_and, Bool.false_eq_true]
  rfl

/-- Not more than 64 indices, all below 16,384, are pinned as they are named. -/
theorem exec_sessionPin_set (hx : (t.named h.ctx.toNat handle.toNat).2 = .ok x)
    (ha : Accepted s t sq q h (.sessionPin handle true first count) []) (hst : x.state ≠ .migrating)
    (hlen : x.pins.length + count.toNat ≤ 64) (hlast : first.toNat + count.toNat ≤ 16384) :
    let r := (t.named h.ctx.toNat handle.toNat).1
    exec (.sessionPin sq h handle true first count) s
      = .next (completed s (r.setSess handle.toNat
          (r.pinned x ((span first.toNat count.toNat).foldl (fun l p => insAsc p l) x.pins)))
          sq q h (.sessionPin handle true first count) 0) := by
  have hmin : min count.toNat 65 = count.toNat := by omega
  have hfits : ((span first.toNat count.toNat).foldl (fun l p => insAsc p l) x.pins).length ≤ 64 := by
    have := length_foldl_insAsc_le (span first.toNat count.toNat) x.pins
    rw [length_span] at this
    omega
  refine State.ringCmd_accepted ha ?_
  simp only [hx, hst, hmin, if_false, if_true, Nat.not_lt.2 hfits, Nat.not_lt.2 hlast, decide_false, Bool.or_false, Bool.and_false,
    Bool.false_eq_true]
  rfl

/-! ### Query and truncation (R130, R154) -/

theorem exec_sessionQuery {dest : W64} (hx : (t.named h.ctx.toNat handle.toNat).2 = .ok x)
    (ha : Accepted s t sq q h (.sessionQuery handle dest) [(dest.toNat, 256)]) (hal : dest.toNat % 64 = 0) :
    exec (.sessionQuery sq h handle dest) s
      = .next (completed s ((t.named h.ctx.toNat handle.toNat).1.dwr dest.toNat (leBytes 256 (sessNum x))) sq q h
          (.sessionQuery handle dest) 0) := by
  obtain ⟨hown, hin⟩ := State.owned_of_named hx
  rw [State.named_fst]
  refine State.ringCmd_accepted ha ?_
  simp only [hal, hown, hin, ne_eq, not_true_eq_false, if_false, Bool.false_eq_true]

theorem exec_sessionTruncate {cut : W32} (hx : (t.named h.ctx.toNat handle.toNat).2 = .ok x)
    (ha : Accepted s t sq q h (.sessionTruncate handle cut) []) (hst : x.state = .idle ∨ x.state = .lost) (hpins : x.stepPins = 0)
    (htok : cut.toNat ≤ x.tokens) (hlost : x.lostFirst = 0xFFFFFFFF ∨ cut.toNat ≤ 256 * x.lostFirst)
    (htail : (t.named h.ctx.toNat handle.toNat).1.tailOk x cut.toNat = true)
    (hawake : x.state = .lost → (t.named h.ctx.toNat handle.toNat).1.awakeFull = false) (htier : x.dir.tier = 1) :
    exec (.sessionTruncate sq h handle cut) s
      = .next (completed s (((t.named h.ctx.toNat handle.toNat).1.unhold handle.toNat).truncate handle.toNat cut.toNat) sq q h
          (.sessionTruncate handle cut) 0) := by
  have hfree : (!(x.state == .idle || x.state == .lost) || x.stepPins != 0) = false := by
    rcases hst with hst | hst <;> rw [hst, hpins] <;> rfl
  have hlim : ¬(if x.lostFirst = 0xFFFFFFFF then cut.toNat else 256 * x.lostFirst) < cut.toNat := by
    split
    next => exact Nat.lt_irrefl _
    next hl => exact Nat.not_lt.2 (hlost.resolve_left hl)
  have hroom (b : Bool) : (x.state == .lost && b && (t.named h.ctx.toNat handle.toNat).1.awakeFull) = false := by
    rcases hst with hst | hst
    · rw [hst]; rfl
    · rw [hawake hst, Bool.and_false]
  refine State.ringCmd_accepted ha ?_
  simp only [hx, hfree, Nat.not_lt.2 htok, hlim, htail, hroom, htier, Bool.not_true, Bool.false_eq_true, decide_false, Bool.or_self,
    if_false, if_true]

end

theorem sessionPinQueryTruncate : Sys2Proof.Parts.SessionPinQueryTruncate := by
  unfold Sys2Proof.Parts.SessionPinQueryTruncate
  intro s t sq q h handle x n r hx
  refine ⟨fun first count ha hst => ⟨_, exec_sessionPin_clear hx ha hst, fun i => ?_, rfl, rfl, rfl⟩,
    fun first count ha hst hlen hlast => ⟨_, exec_sessionPin_set hx ha hst hlen hlast, fun i => ?_, rfl, rfl, rfl⟩,
    fun dest => exec_sessionQuery hx, fun cut => exec_sessionTruncate hx⟩
  · simp only [State.pinned, List.mem_filter, Bool.not_eq_true', ← Bool.decide_and, decide_eq_false_iff_not]
  · exact (mem_foldl_insAsc i _ _).trans (or_congr_right (mem_span i _ _))

/-- Settles O28: each command, accepted, has its rule; the pins are read off the session it writes. -/
theorem sessionCommands : Obligations.SessionCommands := ⟨sessionsAreCreatedAndFreed, sessionPinQueryTruncate⟩

/-! ### Bindings (R131-R134) and adapters (R155-R158) -/

section
variable {s t : State} {sq q : Nat} {h : CmdHdr}

theorem exec_bindInstall {binding : BitVec 8} {rcd : BindRec} (ha : Accepted s t sq q h (.bindInstall binding rcd) []) (hok : bindOk rcd = true)
    (hnew : tblFind t.ses.binds (h.ctx.toNat * 256 + binding.toNat) = none)
    (hquota : tblCount t.ses.binds (fun j _ => j / 256 == h.ctx.toNat) < t.obj 0x3106 1) (hroom : t.ses.binds.length < 1024) :
    exec (.bindInstall sq h binding rcd) s
      = .next (completed s (t.modSes fun g => { g with binds := tblIns g.binds (h.ctx.toNat * 256 + binding.toNat) rcd }) sq q h
          (.bindInstall binding rcd) 0) := by
  refine State.ringCmd_accepted ha ?_
  simp only [hok, hnew, Nat.not_le.2 hquota, Nat.not_le.2 hroom, decide_false, Option.isSome_none, Bool.not_true, Bool.or_false,
    Bool.false_eq_true, if_false]

theorem exec_bindRemove {binding : BitVec 8} (ha : Accepted s t sq q h (.bindRemove binding) [])
    (hold : (tblFind t.ses.binds (h.ctx.toNat * 256 + binding.toNat)).isSome = true)
    (hses : tblAny t.ses.tbl (fun _ x => x.ctx == h.ctx.toNat && x.binding == binding.toNat && x.state != .free) = false)
    (hrun : tblAny t.run.steps (fun _ p => p.d.ctx.toNat == h.ctx.toNat && p.d.binding.toNat == binding.toNat) = false) :
    exec (.bindRemove sq h binding) s
      = .next (completed s (t.modSes fun g => { g with binds := tblDel g.binds (h.ctx.toNat * 256 + binding.toNat) }) sq q h
          (.bindRemove binding) 0) := by
  refine State.ringCmd_accepted ha ?_
  simp only [← Option.not_isSome, hold, hses, hrun, Bool.not_true, Bool.or_false, Bool.false_eq_true, if_false]

/-- The adapter with version `rcd` as its current one, and events of it to pair `eventCq`. -/
def Adapter.withVersion (a : Adapter) (rcd : AdapterRec) (eventCq : BitVec 6) : Adapter :=
  { a with last := rcd.version.toNat
           vers := (a.vers.map fun v => { v with current := false }) ++ [⟨rcd.version.toNat, rcd, true, 0, eventCq.toNat⟩] }

theorem exec_adapterInstall {eventCq : BitVec 6} {rcd : AdapterRec} {old : Adapter} (ha : Accepted s t sq q h (.adapterInstall eventCq rcd) [])
    (hin : t.adapterIn h.ctx.toNat rcd.adapter.toNat = true) (hbind : (tblFind t.ses.binds (h.ctx.toNat * 256 + rcd.binding.toNat)).isSome = true)
    (hold : old = (tblFind t.ses.adapters (adKey h.ctx.toNat rcd.adapter.toNat)).getD ⟨h.ctx.toNat, rcd.binding.toNat, 0, []⟩)
    (hsame : old.binding = rcd.binding.toNat) (hver : old.vers ≠ [] → old.last < rcd.version.toNat) (hroom : old.vers.length < 4) :
    exec (.adapterInstall sq h eventCq rcd) s
      = .next (completed s (((t.modSes fun g => { g with
          adapters := tblIns g.adapters (adKey h.ctx.toNat rcd.adapter.toNat) (old.withVersion rcd eventCq) }).adRepin
            h.ctx.toNat rcd.adapter.toNat rcd.version.toNat).adRetire h.ctx.toNat rcd.adapter.toNat) sq q h
          (.adapterInstall eventCq rcd) 0) := by
  have hnewer : (!old.vers.isEmpty && decide (rcd.version.toNat ≤ old.last)) = false := by
    cases hv : old.vers with
    | nil => rfl
    | cons v vs => simp [hver (by simp [hv])]
  have hown : (!t.adapterIn h.ctx.toNat rcd.adapter.toNat || (tblFind t.ses.binds (h.ctx.toNat * 256 + rcd.binding.toNat)).isNone
      || old.binding != rcd.binding.toNat) = false := by
    rw [hin, ← Option.not_isSome, hbind, hsame, bne_self_eq_false]
    rfl
  refine State.ringCmd_accepted ha ?_
  simp only [← hold, hown, hnewer, Nat.not_le.2 hroom, Bool.false_eq_true, if_false]
  rfl

theorem exec_adapterRemove {adapter : BitVec 12} {a : Adapter} (ha : Accepted s t sq q h (.adapterRemove adapter) [])
    (hold : tblFind t.ses.adapters (adKey h.ctx.toNat adapter.toNat) = some a) (hin : t.adapterIn h.ctx.toNat adapter.toNat = true)
    (hcur : a.cur.isSome = true) :
    exec (.adapterRemove sq h adapter) s
      = .next (completed s ((t.modSes fun g => { g with
          adapters := tblIns g.adapters (adKey h.ctx.toNat adapter.toNat)
            { a with vers := a.vers.map fun v => { v with current := false } } }).adRetire h.ctx.toNat adapter.toNat) sq q h (.adapterRemove adapter) 0) := by
  refine State.ringCmd_accepted ha ?_
  simp only [hold, hin, ← Option.not_isSome, hcur, Bool.not_true, Bool.or_self, Bool.false_eq_true, if_false]

end

/-- Settles O29: each of the four commands, accepted under its conditions, has its rule. -/
theorem bindingsAndAdapters : Obligations.BindingsAndAdapters := by
  unfold Obligations.BindingsAndAdapters
  intro s t sq q h
  exact ⟨fun binding rcd => exec_bindInstall, fun binding => exec_bindRemove, fun eventCq rcd old => exec_adapterInstall,
    fun adapter a => exec_adapterRemove⟩

end Sys2Proof.Machine

/-! PROOFS. The scrub of freed frames (05 R149) and the patrol read (16 R475). What follows the zeroing, the clean lines and
the retirement of a marked slab (16 R444, R447), touches the error logs and the counters alone. -/

namespace Sys2Proof.Machine

/-! ### Clean lines and retiring slabs -/

theorem State.cleanLines_step (s : State) (f : Nat → Nat) (a n : Nat) : LogStep s (s.cleanLines f a n) :=
  LogStep.ite (LogStep.refl s) ((LogStep.refl s).modErr _)

theorem State.retire_step (s : State) (k : Nat) : LogStep s (s.retire k) := by
  have hmark : LogStep s (s.modErr fun g => { g with marked := tblDel g.marked k }) := (LogStep.refl s).modErr _
  exact LogStep.ite (hmark.modErr _) ((hmark.modErr _).trans (State.record_step _ _))

theorem State.retireIdle_step (s : State) (k : Nat) : LogStep s (s.retireIdle k) :=
  LogStep.ite (s.retire_step k) (LogStep.refl s)

theorem LogStep.ses_eq {s t : State} (h : LogStep s t) : t.ses = s.ses := by obtain ⟨o, g, m, e, rfl⟩ := h; rfl
theorem LogStep.run_eq {s t : State} (h : LogStep s t) : t.run = s.run := by obtain ⟨o, g, m, e, rfl⟩ := h; rfl

/-! ### The scrub (05 R149) -/

/-- The frame that waits for the scrub is zeroed and waits no longer; what else changes is in the logs. -/
theorem exec_frameScrub {s : State} {n : Nat} (hl : s.live = true) (hd : (tblFind s.ses.dirtyFrames n).isSome = true)
    (hc : s.cutOn (n / framesPerDie) = false) : ∃ t, exec (.frameScrub n) s = .next t
      ∧ LogStep (s.modSes fun g => { g with hbm := memZero g.hbm (4096 * n) 4096, dirtyFrames := tblDel g.dirtyFrames n }) t := by
  refine ⟨_, ?_, (State.cleanLines_step _ (· / 64) (4096 * n) 4096).trans (State.retireIdle_step _ (n / 512))⟩
  show execFrameScrub n s = _
  simp only [execFrameScrub, hl, hd, hc, Bool.not_false, Bool.and_self, if_true]

/-! ### The patrol read (16 R475) -/

section
variable {s : State} {n : Nat}

theorem exec_patrolRead_clean (hl : s.live = true) (hn : n < hbmLines) (hf : tblFind s.err.failed n = none) :
    exec (.patrolRead n .clean) s = .next s := by
  show execPatrolRead n .clean s = _
  simp only [execPatrolRead, Nat.not_le.2 hn, hl, hf, Option.isSome_none, Bool.not_true, Bool.false_eq_true, if_false]

theorem exec_patrolRead_corrected (hl : s.live = true) (hn : n < hbmLines) (hf : tblFind s.err.failed n = none) :
    exec (.patrolRead n .corrected) s = .next (s.hbmCe n) := by
  show execPatrolRead n .corrected s = _
  simp only [execPatrolRead, Nat.not_le.2 hn, hl, hf, Option.isSome_none, Bool.not_true, Bool.false_eq_true, if_false]

/-- An uncorrectable line is so whether or not it was known to have failed. -/
theorem exec_patrolRead_uncorrectable (hl : s.live = true) (hn : n < hbmLines) :
    exec (.patrolRead n .uncorrectable) s = .next ((s.hbmUe n 1 stHbmUe 0xFF none).lineBad n) := by
  show execPatrolRead n .uncorrectable s = _
  simp only [execPatrolRead, Nat.not_le.2 hn, hl, ite_self, Bool.not_true, Bool.false_eq_true, if_false]

end

/-- Settles O34: the scrub changes memory by the zeroing alone, and the patrol read has a rule for each finding. -/
theorem scrubAndPatrol : Obligations.ScrubAndPatrol := by
  unfold Obligations.ScrubAndPatrol
  intro s n hl
  refine ⟨fun hd hc => ?_, fun hn => ⟨fun hf => ⟨exec_patrolRead_clean hl hn hf, exec_patrolRead_corrected hl hn hf⟩,
    exec_patrolRead_uncorrectable hl hn⟩⟩
  obtain ⟨t, ht, hlog⟩ := exec_frameScrub hl hd hc
  refine ⟨t, ht, ?_⟩
  rw [hlog.ses_eq, hlog.run_eq]
  exact ⟨fun a ha hb => memGet_memZero_inside _ _ _ _ ha (by omega), fun a ha => memGet_memZero_outside _ _ _ _ (by omega), rfl, rfl, rfl⟩

end Sys2Proof.Machine

/-! PROOFS. What the operations that sessions and their moves share do to the state: freeing of frames, runs and directories (05 R149;
06 R167, R170), session records, and events. -/

namespace Sys2Proof.Machine

/-! ### Freeing changes slabs, frames to be scrubbed and leases alone -/

/-- `t` differs from `s` in slabs, frames that wait for the scrub and leases alone. -/
def FreeStep (s t : State) : Prop := ∃ sl df ls, t = s.modSes fun g => { g with slabs := sl, dirtyFrames := df, leases := ls }

theorem FreeStep.refl (s : State) : FreeStep s s := ⟨s.ses.slabs, s.ses.dirtyFrames, s.ses.leases, rfl⟩

theorem FreeStep.trans {s t u : State} (h : FreeStep s t) (h2 : FreeStep t u) : FreeStep s u := by
  obtain ⟨sl, df, ls, rfl⟩ := h
  obtain ⟨sl2, df2, ls2, rfl⟩ := h2
  exact ⟨sl2, df2, ls2, rfl⟩

theorem FreeStep.ite {s a b : State} {c : Prop} [Decidable c] (ha : FreeStep s a) (hb : FreeStep s b) : FreeStep s (if c then a else b) := by
  split <;> assumption

/-- A list of operations of which each frees. -/
theorem State.each_freeStep {α : Type} {f : State → α → State} (hf : ∀ t a, FreeStep t (f t a)) (l : List α) (s : State) :
    FreeStep s (s.each l f) :=
  List.foldlRecOn l f (motive := FreeStep s) (FreeStep.refl s) fun t ht a _ => ht.trans (hf t a)

theorem State.updLease_freeStep (s : State) (ctx l : Nat) (f : Lease → Lease) : FreeStep s (s.updLease ctx l f) := ⟨_, _, _, rfl⟩

theorem State.unitFree_freeStep (s : State) (f : Nat) : FreeStep s (s.unitFree f) := by
  unfold State.unitFree
  dsimp only
  split
  · exact FreeStep.refl s
  · exact ⟨_, _, _, rfl⟩

theorem State.unitsFree_freeStep (s : State) (fs : List Nat) : FreeStep s (s.unitsFree fs) := State.each_freeStep State.unitFree_freeStep fs s

theorem State.runFree_freeStep (s : State) (ctx l o : Nat) : FreeStep s (s.runFree ctx l o) := by
  unfold State.runFree
  dsimp only
  split
  · exact (s.updLease_freeStep ctx l _).trans (State.updLease_freeStep _ _ _ _)
  · exact s.updLease_freeStep ctx l _

theorem State.copyFree_freeStep (s : State) (ctx : Nat) (e : Pte) : FreeStep s (s.copyFree ctx e) :=
  FreeStep.ite (s.unitFree_freeStep _) (FreeStep.ite (s.runFree_freeStep _ _ _) (FreeStep.refl s))

theorem State.dirFree_freeStep (s : State) (ctx : Nat) (d : Dir) : FreeStep s (s.dirFree ctx d) :=
  FreeStep.ite (s.unitsFree_freeStep _) (FreeStep.ite (s.runFree_freeStep _ _ _) (FreeStep.refl s))

theorem FreeStep.sess_eq {s t : State} (h : FreeStep s t) (n : Nat) : t.sess n = s.sess n := by obtain ⟨sl, df, ls, rfl⟩ := h; rfl
theorem FreeStep.movers_eq {s t : State} (h : FreeStep s t) : t.ses.movers = s.ses.movers := by obtain ⟨sl, df, ls, rfl⟩ := h; rfl
theorem FreeStep.hbm_eq {s t : State} (h : FreeStep s t) : t.ses.hbm = s.ses.hbm := by obtain ⟨sl, df, ls, rfl⟩ := h; rfl
theorem FreeStep.cmem_eq {s t : State} (h : FreeStep s t) : t.ses.cmem = s.ses.cmem := by obtain ⟨sl, df, ls, rfl⟩ := h; rfl
theorem FreeStep.cks_eq {s t : State} (h : FreeStep s t) : t.cks = s.cks := by obtain ⟨sl, df, ls, rfl⟩ := h; rfl

/-! ### Session records -/

@[simp] theorem State.sess_setSess_self (s : State) (n : Nat) (x : Session) : (s.setSess n x).sess n = some x := tblFind_tblIns_self _ _ _

theorem State.sess_updSess_self (s : State) (n : Nat) (f : Session → Session) : (s.updSess n f).sess n = (s.sess n).map f :=
  tblFind_tblMod_self _ _ _

/-- An operation that leaves the sessions' group alone leaves every session. -/
theorem State.sess_congr {s t : State} (h : t.ses = s.ses) (n : Nat) : t.sess n = s.sess n := congrArg (fun g : Ses => tblFind g.tbl n) h

@[simp] theorem State.sesEvent_ses (s : State) (n : Nat) (x0 x : Session) (code status kind : Nat) :
    (s.sesEvent n x0 x code status kind).ses = s.ses := State.event_ses _ _ _

/-- The session without what its move set down. -/
def Session.moveless (x : Session) : Session := { x with move := moveNone, runs := [], dirRun := none, placed := [], sent := [], kept := [] }

theorem State.sess_moveEnd_self (s : State) (n : Nat) : (s.moveEnd n).sess n = (s.sess n).map Session.moveless :=
  State.sess_updSess_self _ _ _

end Sys2Proof.Machine

/-! PROOFS. Parking, revival and the time to live (06 R171-R185; 05 R153): the commands, pending parks, hints that lapse, and expiry. -/

namespace Sys2Proof.Machine

/-! ### The commands (R171, R179, R180, R185) -/

section
variable {s t u : State} {sq q : Nat} {h : CmdHdr} {handle : BitVec 24} {x : Session}

/-- A PARK whose lease is usable and has a run for each page. -/
theorem exec_park {pfmt : BitVec 4} {lease : BitVec 12} {expiry : BitVec 2} {dual dirOut : Bool} {ttl : W32} {y : Session} {runs : Table Nat}
    {dr : Option Nat} {r v : State} (ha : Accepted s t sq q h (.park handle pfmt lease expiry dual dirOut ttl) [])
    (hx : (t.named h.ctx.toNat handle.toNat).2 = .ok x) (hr : r = (t.named h.ctx.toNat handle.toNat).1)
    (hst : x.state = .idle ∨ (x.state = .active ∧ x.parkPend = false)) (hfmt : isParkFmt pfmt.toNat = true)
    (hmask : bit (r.sbind x).parkMask.toNat (pfmt.toNat - 13) = true) (hexp : expiry.toNat ≤ 1)
    (hlease : r.parkLeaseOk h.ctx.toNat lease.toNat expiry.toNat dual = true) (hy : y = ((r.unhold handle.toNat).sess handle.toNat).getD x)
    (hruns : (r.unhold handle.toNat).takeMove h.ctx.toNat lease.toNat ((r.unhold handle.toNat).parkPages y pfmt.toNat)
      (if dirOut then some (extentFrames y.dir) else none) = some (runs, dr, v)) :
    exec (.park sq h handle pfmt lease expiry dual dirOut ttl) s
      = .next (completed s (v.parkAccept handle.toNat y pfmt.toNat lease.toNat expiry.toNat dual dirOut ttl runs dr) sq q h
          (.park handle pfmt lease expiry dual dirOut ttl) 0) := by
  have hfree : (!(x.state == .idle || (x.state == .active && !x.parkPend))) = false := by
    rcases hst with hst | ⟨hst, hpend⟩
    · rw [hst]; rfl
    · rw [hst, hpend]; rfl
  refine State.ringCmd_accepted ha ?_
  simp only [hx, ← hr, hfree, hfmt, hmask, hlease, ← hy, hruns, Nat.not_lt.2 hexp, decide_false, Bool.not_true, Bool.or_self, Bool.false_eq_true,
    if_false]

/-- A PARKED session is taken for revival, with or without a hint; a revival that is suspended keeps its format. -/
theorem State.revive_parked {ctx n : Nat} {narrow hint : Bool} (hx : (t.named ctx n).2 = .ok x) (hst : x.state = .parked)
    (hsame : x.pdir.isSome = true → x.move.narrow = narrow) (hu : (t.named ctx n).1.reviveAccept n narrow hint = .ok u) :
    t.revive ctx n narrow hint = .done stOk 0 u := by
  have hlost : (SState.parked == .lost) = false := rfl
  have hkept : (x.pdir.isSome && x.move.narrow != narrow) = false := by
    cases hp : x.pdir.isSome with
    | false => rfl
    | true => rw [hsame hp, bne_self_eq_false, Bool.and_false]
  simp only [State.revive, hx, hst, hlost, hkept, hu, bne_self_eq_false, Bool.false_eq_true, if_false]

theorem exec_revive {narrow : Bool} (ha : Accepted s t sq q h (.revive handle narrow) []) (hx : (t.named h.ctx.toNat handle.toNat).2 = .ok x)
    (hst : x.state = .parked) (hsame : x.pdir.isSome = true → x.move.narrow = narrow)
    (hu : (t.named h.ctx.toNat handle.toNat).1.reviveAccept handle.toNat narrow false = .ok u) :
    exec (.revive sq h handle narrow) s = .next (completed s u sq q h (.revive handle narrow) 0) :=
  State.ringCmd_accepted ha (State.revive_parked hx hst hsame hu)

theorem exec_reviveHint {narrow : Bool} (ha : Accepted s t sq q h (.reviveHint handle narrow) [])
    (hx : (t.named h.ctx.toNat handle.toNat).2 = .ok x) (hst : x.state = .parked) (hsame : x.pdir.isSome = true → x.move.narrow = narrow)
    (hu : (t.named h.ctx.toNat handle.toNat).1.reviveAccept handle.toNat narrow true = .ok u) :
    exec (.reviveHint sq h handle narrow) s = .next (completed s u sq q h (.reviveHint handle narrow) 0) :=
  State.ringCmd_accepted ha (State.revive_parked hx hst hsame hu)

/-- A new time to live; DEMOTE (1) asks for copies in a lease that names where they go. -/
theorem exec_ttlSet {e : BitVec 2} {ttl : W32} {r : State} (ha : Accepted s t sq q h (.ttlSet handle e ttl) [])
    (hx : (t.named h.ctx.toNat handle.toNat).2 = .ok x) (hr : r = (t.named h.ctx.toNat handle.toNat).1) (hst : x.state = .parked) (he : e.toNat ≤ 1)
    (hdemote : e.toNat = 1 → ∃ l y, dirCopyLease (x.pdir.getD x.dir) = some l ∧ r.leaseOk x.ctx l = true ∧ r.lease x.ctx l = some y
      ∧ y.rcd.tier.toNat = 2 ∧ y.rcd.demoteEn = true) :
    exec (.ttlSet sq h handle e ttl) s
      = .next (completed s (r.setSess handle.toNat
          { x with ttlMs := ttl.toNat, expiry := e.toNat, ttlDeadline := s.tick + ttlTicks ttl.toNat }) sq q h (.ttlSet handle e ttl) 0) := by
  refine State.ringCmd_accepted ha ?_
  simp only [hx, ← hr, hst, Nat.not_lt.2 he, bne_self_eq_false, Bool.false_eq_true, if_false]
  by_cases he1 : e.toNat = 1
  · obtain ⟨l, y, hl, hok, hy, htier, hen⟩ := hdemote he1
    have htier' : (y.rcd.tier == 2) = true := beq_iff_eq.2 (BitVec.eq_of_toNat_eq htier)
    simp only [hl, hok, hy, htier', hen, Option.any_some, Bool.and_self, Bool.not_true, Bool.and_false, Bool.false_eq_true, if_false]
  · have hdrop : (e == 1) = false := beq_eq_false_iff_ne.2 fun h1 => he1 (congrArg BitVec.toNat h1)
    simp only [hdrop, Bool.false_and, Bool.false_eq_true, if_false]

end

theorem parkReviveAndTimeToLive : Sys2Proof.Parts.ParkReviveAndTimeToLive := by
  unfold Sys2Proof.Parts.ParkReviveAndTimeToLive
  intro s t sq q h handle x n ctx r hx
  exact ⟨fun pfmt lease expiry dual dirOut ttl y runs dr v ha => exec_park ha hx rfl, fun narrow u ha => exec_revive ha hx,
    fun narrow u ha => exec_reviveHint ha hx, fun e ttl ha => exec_ttlSet ha hx rfl⟩

/-! ### An abandoned revival (R184, R185, R192) -/

/-- The session once its revival from the parked directory `d` is abandoned. -/
def Session.abandoned (x : Session) (d : Dir) : Session :=
  { x.moveless with
    dir := (x.dir.ents.filter fun e => e.2.landed && !(d.ent e.1).valid).foldl (fun a e => a.setEnt e.1 e.2) d
    pdir := none, hinted := false, extWait := false, reland := [], relanded := [] }

/-- The parked directory stands where no page that has landed lacks a parked copy. -/
theorem Session.abandoned_dir {x : Session} {d : Dir} (hall : ∀ e ∈ x.dir.ents, e.2.landed = true → (d.ent e.1).valid = true) :
    (x.abandoned d).dir = d := by
  have hstay : (x.dir.ents.filter fun e => e.2.landed && !(d.ent e.1).valid) = [] := by
    rw [List.filter_eq_nil_iff]
    intro e he hno
    rw [Bool.and_eq_true, Bool.not_eq_true'] at hno
    exact Bool.false_ne_true (hno.2.symm.trans (hall e he hno.1))
  rw [Session.abandoned, hstay]
  rfl

section
variable {s : State} {n : Nat} {x : Session} (hx : s.sess n = some x)
include hx

theorem State.abandonRevival_none (hp : x.pdir = none) : s.abandonRevival n = s := by
  simp only [State.abandonRevival, hx, hp]

theorem State.sess_abandonRevival {d : Dir} (hp : x.pdir = some d) : (s.abandonRevival n).sess n = some (x.abandoned d) := by
  have hfree : FreeStep s ((s.each x.dir.ents fun t e =>
      if decide (2 ≤ (d.ent e.1).tier) && e.2.valid && e.2.tier == 1 then t.unitFree e.2.frame else t).unitsFree x.dir.frames) :=
    (State.each_freeStep (fun t e => FreeStep.ite (t.unitFree_freeStep _) (FreeStep.refl t)) _ s).trans (State.unitsFree_freeStep _ _)
  simp only [State.abandonRevival, hx, hp, State.sess_updSess_self, State.sess_moveEnd_self, hfree.sess_eq, Option.map_some]
  rfl

/-- The session stays, and where it was in a revival it is as abandoning leaves it. -/
theorem State.exists_sess_abandonRevival :
    ∃ y, (s.abandonRevival n).sess n = some y ∧ y.ctx = x.ctx ∧ ∀ d, x.pdir = some d → y = x.abandoned d := by
  cases hp : x.pdir with
  | none => exact ⟨x, (congrArg (·.sess n) (State.abandonRevival_none hx hp)).trans hx, rfl, nofun⟩
  | some d => exact ⟨_, State.sess_abandonRevival hx hp, rfl, by rintro _ ⟨⟩; rfl⟩

end

/-! ### Events of parked sessions (05 R153; 06 R176-R178, R185) -/

/-- The session that a lapse of its hint leaves. -/
def State.lapsed (s : State) (n : Nat) (x : Session) : Session :=
  { ((s.abandonRevival n).sess n).getD x with ttlDeadline := s.tick + ttlTicks x.ttlMs }.goto s.tick .parked

section
variable {s : State} {n : Nat} {x : Session} (hl : s.live = true) (hx : s.sess n = some x)
include hl hx

theorem exec_parkPendStart (hst : x.state = .parking) (hpend : x.parkPend = true) (hat : x.parkAt < s.dev.nclk) :
    exec (.parkPendStart n) s = .next (s.parkStart n x) := by
  show execParkPendStart n s = _
  simp only [execParkPendStart, hx, hl, hst, hpend, hat, beq_self_eq_true, decide_true, Bool.and_self, if_true]

theorem exec_hintLapse (hsweep : x.sweep = false) (hst : x.state = .idle) (hheld : x.move.held = true) (hat : x.parkAt < s.dev.nclk)
    (hpast : s.past (x.move.start + s.obj 0x310B 1 x.ctx * ticksPerMs) = true) :
    exec (.hintLapse n) s = .next (((((s.abandonRevival n).setSess n (s.lapsed n x)).sesEvent n { x with state := .parking } (s.lapsed n x)
      1 stOk 2).sesEvent n x (s.lapsed n x) 3 stOk 2).count 0x310B 2) := by
  show execHintLapse n s = _
  simp only [execHintLapse, hx, hl, hst, hheld, hpast, Nat.not_le.2 hat, hsweep, bne_self_eq_false, decide_false, Bool.not_true, Bool.or_self,
    Bool.false_eq_true, if_false]
  rfl

/-- The end of the time to live of a session that is to be demoted. -/
theorem exec_ttlExpiry_demote (hst : x.state = .parked) (hd : s.plinthDown = false) (hdem : x.demoting = false) (hmig : x.mig = .none)
    (hpast : s.past x.ttlDeadline = true) (hexp : x.expiry = 1) : exec (.ttlExpiry n) s = .next ((s.sweepSess n).demoteStart n) := by
  show execTtlExpiry n s = _
  simp only [execTtlExpiry, hx, hl, hd, hst, hdem, hmig, hpast, hexp, bne_self_eq_false, Bool.not_true, Bool.or_self, Bool.false_eq_true, if_false,
    if_true]

/-- The end of the time to live of a session that is to be dropped: its handle keeps a tomb. -/
theorem exec_ttlExpiry_drop (hst : x.state = .parked) (hd : s.plinthDown = false) (hdem : x.demoting = false) (hmig : x.mig = .none)
    (hpast : s.past x.ttlDeadline = true) (hexp : x.expiry ≠ 1) :
    exec (.ttlExpiry n) s = .next (((s.dropSess n x true).count 0x310A 4).sesEvent n x { freed x s.tick true with eventCq := x.eventCq }
      1 stExpired 0) := by
  show execTtlExpiry n s = _
  simp only [execTtlExpiry, hx, hl, hd, hst, hdem, hmig, hpast, hexp, bne_self_eq_false, Bool.not_true, Bool.or_self, Bool.false_eq_true, if_false]

end

@[simp] theorem sess_dropSess_self (s : State) (n : Nat) (x : Session) (tomb : Bool) :
    (s.dropSess n x tomb).sess n = some (freed x s.tick tomb) := State.sess_setSess_self _ _ _

theorem parkedSessionsMoveOn : Sys2Proof.Parts.ParkedSessionsMoveOn := by
  unfold Sys2Proof.Parts.ParkedSessionsMoveOn
  intro s n x hl hx
  refine ⟨exec_parkPendStart hl hx, fun hsweep hst hheld hat hpast => ?_, exec_ttlExpiry_demote hl hx,
    fun hst hd hdem hmig hpast hexp => ⟨_, exec_ttlExpiry_drop hl hx hst hd hdem hmig hpast hexp, ?_⟩⟩
  · obtain ⟨y, hy, hctx, hdir⟩ := State.exists_sess_abandonRevival hx
    refine ⟨_, exec_hintLapse hl hx hsweep hst hheld hat hpast, ?_⟩
    rw [State.sess_congr ((State.count_ses _ _ _ _ _).trans ((State.sesEvent_ses _ _ _ _ _ _ _).trans (State.sesEvent_ses _ _ _ _ _ _ _))),
      State.sess_setSess_self, State.lapsed, hy]
    refine ⟨congrArg (fun c => some (SState.parked, c)) hctx, fun d hp hall => congrArg some ?_⟩
    show y.dir = d
    rw [hdir d hp, Session.abandoned_dir hall]
  · rw [State.sess_congr ((State.sesEvent_ses _ _ _ _ _ _ _).trans (State.count_ses _ _ _ _ _)), sess_dropSess_self]
    rfl

/-- Settles O30: each command, accepted, and each event has its rule; the session they leave is read off the state written last. -/
theorem parkingAndRevival : Obligations.ParkingAndRevival := ⟨parkReviveAndTimeToLive, parkedSessionsMoveOn⟩

end Sys2Proof.Machine

/-! PROOFS. Page movers (06 R172, R182, R186): the item a free mover takes, and a page that leaves. -/

namespace Sys2Proof.Machine

/-! ### Tables whose entries are dropped -/

theorem tblFind_eq_none_iff {α : Type} (t : Table α) (k : Nat) : tblFind t k = none ↔ ∀ e ∈ t, e.1 ≠ k := by
  induction t with
  | nil => simp
  | cons e t ih =>
    rw [tblFind_cons, List.forall_mem_cons, ← ih]
    split
    next hk => simp [hk]
    next hk => simp [hk]

theorem tblFind_tblKeep_of_none {α : Type} {t : Table α} {k : Nat} (p : Nat → α → Bool) (h : tblFind t k = none) :
    tblFind (tblKeep t p) k = none := by
  rw [tblFind_eq_none_iff] at h ⊢
  exact fun e he => h e (List.mem_of_mem_filter he)

/-- A new entry is kept or dropped; no older one comes to light under its key. -/
theorem tblFind_tblKeep_tblIns {α : Type} {t : Table α} {k : Nat} (p : Nat → α → Bool) (a : α) (h : tblFind t k = none) :
    tblFind (tblKeep (tblIns t k a) p) k = if p k a then some a else none := by
  induction t with
  | nil => cases hp : p k a <;> simp [tblIns, tblKeep, tblFind_cons, hp]
  | cons e t ih =>
    obtain ⟨j, b⟩ := e
    have hj : j ≠ k := (tblFind_eq_none_iff _ _).1 h _ List.mem_cons_self
    have ht : tblFind t k = none := by rwa [tblFind_cons, if_neg hj] at h
    have hold := tblFind_tblKeep_of_none p h
    unfold tblKeep at ih hold ⊢
    unfold tblIns
    split
    · cases hp : p k a <;> simp [tblFind_cons, hp, hold]
    · rw [if_neg hj.symm]
      cases hp : p j b <;> simp [tblFind_cons, hp, hj, ih ht]

/-! ### The turn of a mover (R186) -/

/-- Items of context `c` that a mover can take now: beyond landings, those that the context has tokens for. -/
def State.itemsNow (s : State) (c : Nat) : List (Nat × Nat × Nat × MoverItem) :=
  (s.moverItems c).filter fun i => i.2.2.2.free || decide (0 < s.tok c 1)

/-- Mover `m` is free, and item `it` of context `c`, for which it pays `cost`, is the one whose turn it is. -/
structure State.MoverTurn (s : State) (m c cost : Nat) (it : MoverItem) : Prop where
  mover : m < 16
  live : s.live = true
  quiet : s.quiescing = false
  free : tblFind s.ses.movers m = none
  pick : s.fqPick 2 (s.ctxs.filter fun c => !(s.itemsNow c).isEmpty && s.slotOk c) = some c
  item : ∃ a b, firstItem (s.itemsNow c) = some (a, b, cost, it)

/-- Mover `m` holds `j`. -/
def State.busy (s : State) (m : Nat) (j : MoverJob) : State := s.modSes fun g => { g with movers := tblIns g.movers m j }

/-- Mover `m` takes item `it`. -/
def State.takeItem (s : State) (m : Nat) (ue : Option Nat) : MoverItem → State
  | .stage j =>
    let u := s.modSes fun g => { g with staged := g.staged.erase j }
    if j.land then u.busy m j else ((u.busy m { j with data := [] }).reseal j.handle j.n j.second j.data).freeMovers
  | .park h n =>
    let u := s.busy m ⟨h, n, false, false, []⟩
    if n = dirIdx then
      match u.sess h with
      | some x => match x.dirRun with
        | some o => (u.sendExtent h x o).freeMovers
        | none => u.freeMovers
      | none => u.freeMovers
    else (u.parkPage m h n ue).freeMovers
  | .send h n => ((s.busy m ⟨h, n, false, false, []⟩).migPage m h n ue).freeMovers
  | .drain c p => ((s.busy m ⟨2 ^ 24 + c, p, false, false, []⟩).sendPart c p).freeMovers

/-- A free mover takes the item whose turn it is. -/
theorem exec_pageMoverStart {s : State} {m c cost : Nat} {it : MoverItem} (h : s.MoverTurn m c cost it) (ue : Option Nat) :
    exec (.pageMoverStart m ue) s = .next ((s.fqTag 2 c cost).takeItem m ue it) := by
  obtain ⟨hm, hl, hq, hfree, hpick, a, b, hitem⟩ := h
  have hseat : s.unseat m = s := by simp only [State.unseat, hfree]
  unfold State.itemsNow at hpick hitem
  show execPageMoverStart m ue s = _
  simp only [execPageMoverStart, hseat, Nat.not_le.2 hm, hl, hq, hfree, hpick, hitem, Option.isSome_none, Bool.not_true, Bool.or_self,
    Bool.false_eq_true, if_false]
  cases it <;> rfl

theorem moversTakeTheNextItem : Sys2Proof.Parts.MoversTakeTheNextItem := by
  unfold Sys2Proof.Parts.MoversTakeTheNextItem
  intro s m c cost a b it ue hm hl hq hfree items hpick hitem busy
  have hturn : s.MoverTurn m c cost it := ⟨hm, hl, hq, hfree, hpick, a, b, hitem⟩
  rw [exec_pageMoverStart hturn ue]
  refine ⟨?_, ?_, ?_, ?_, ?_, ?_⟩
  · rintro j rfl hland
    refine ⟨_, rfl, ?_, ?_⟩
    · simp only [State.takeItem, hland, if_true]
      exact tblFind_tblIns_self _ _ _
    · simp only [State.takeItem, hland, if_true]
      rfl
  · rintro j rfl hland
    simp only [State.takeItem, hland, Bool.false_eq_true, if_false]
    rfl
  · rintro h x o rfl hx ho
    have hx' : ((s.fqTag 2 c cost).busy m ⟨h, dirIdx, false, false, []⟩).sess h = some x := hx
    simp only [State.takeItem, hx', ho, if_true]
    rfl
  · rintro h n rfl hn
    simp only [State.takeItem, hn, if_false]
    rfl
  · rintro h n rfl
    rfl
  · rintro k p rfl
    rfl

/-! ### What a message sent leaves alone (08 R240, R241) -/

/-- `t` has the keys and counters of `s`, and what `s` keeps of sessions and memories; HBM may differ in the device areas alone. -/
structure SendStep (s t : State) : Prop where
  sec : t.sec = s.sec
  ses : t.ses = { s.ses with hbm := t.ses.hbm }
  hbm : ∀ i, inDeviceArea (i / 64) = false → memGet t.ses.hbm i = memGet s.ses.hbm i

theorem SendStep.of_eq {s t : State} (hsec : t.sec = s.sec) (hses : t.ses = s.ses) : SendStep s t :=
  ⟨hsec, by rw [hses], fun i _ => by rw [hses]⟩

theorem SendStep.trans {s t u : State} (h : SendStep s t) (h2 : SendStep t u) : SendStep s u :=
  ⟨h2.sec.trans h.sec, by rw [h2.ses, h.ses], fun i hi => (h2.hbm i hi).trans (h.hbm i hi)⟩

theorem SendStep.ite {s a b : State} {c : Prop} [Decidable c] (ha : SendStep s a) (hb : SendStep s b) : SendStep s (if c then a else b) := by
  split <;> assumption

theorem SendStep.sess_eq {s t : State} (h : SendStep s t) (n : Nat) : t.sess n = s.sess n := by rw [State.sess, State.sess, h.ses]
theorem SendStep.movers_eq {s t : State} (h : SendStep s t) : t.ses.movers = s.ses.movers := by rw [h.ses]

/-- Each die's device area is the last 2 GiB of its 192 GiB (01 R26). -/
theorem inDeviceArea_of_offset (d : Nat) {j : Nat} (hlo : 0x2F80000000 ≤ j) (hhi : j < 0x3000000000) :
    inDeviceArea ((d * 0x3000000000 + j) / 64) = true := by
  have hslab : (d * 0x3000000000 + j) / 64 / 32768 = j / 2097152 + 98304 * d := by omega
  refine decide_eq_true (show 97280 ≤ (d * 0x3000000000 + j) / 64 / 32768 % 98304 from ?_)
  rw [hslab, Nat.add_mul_mod_self_left, Nat.mod_eq_of_lt (by omega)]
  omega

/-- The record of either role lies in a device area. -/
theorem inDeviceArea_lwAddr (s : State) (node : Nat) {r i : Nat} (hr : r ≤ 1) (hlo : s.lwAddr node r ≤ i) (hhi : i < s.lwAddr node r + 16) :
    inDeviceArea (i / 64) = true := by
  have hhash : node * 0x9E37 % 65536 < 65536 := Nat.mod_lt _ (by decide)
  have hat {d j : Nat} (hj : i = d * 0x3000000000 + j) (hlo : 0x2F80000000 ≤ j) (hhi : j < 0x3000000000) : inDeviceArea (i / 64) = true :=
    hj ▸ inDeviceArea_of_offset d hlo hhi
  unfold State.lwAddr at hlo hhi
  generalize node * 0x9E37 % 65536 = k at hhash hlo hhi
  dsimp only at hlo hhi
  split_ifs at hlo hhi
  · exact hat (d := k % 4) (j := i - k % 4 * 0x3000000000) (by omega) (by omega) (by omega)
  · exact hat (d := (k % 4 + 1) % 4) (j := i - (k % 4 + 1) % 4 * 0x3000000000) (by omega) (by omega) (by omega)

theorem State.lwPut_sendStep (s : State) (node : Nat) {r : Nat} (hr : r ≤ 1) (w : Option LwRec) : SendStep s (s.lwPut node r w) := by
  refine ⟨rfl, rfl, fun i hi => memGet_memWrite_outside _ _ _ _ ?_⟩
  rw [leBytes_length]
  by_contra hin
  exact Bool.false_ne_true (hi.symm.trans (inDeviceArea_lwAddr s node hr (by omega) (by omega)))

theorem State.devRead_sendStep (s : State) (a n : Nat) : SendStep s (s.devRead a n) := by
  unfold State.devRead
  split
  · exact SendStep.of_eq (State.fatal_sec _ _ _ _ _) (State.fatal_ses _ _ _ _ _)
  · exact SendStep.of_eq rfl rfl

theorem State.evict_sendStep (s : State) (node : Nat) : SendStep s (s.evict node) := by
  unfold State.evict
  split
  · exact SendStep.of_eq rfl rfl
  next f hf =>
    have hforget : SendStep s (s.modBulk fun g => { g with flows := tblDel g.flows node, keys := tblDel g.keys node }) := SendStep.of_eq rfl rfl
    have hsend := hforget.trans (State.lwPut_sendStep _ node (Nat.zero_le 1) (some ⟨s.stamp, 0, f.nextSeq⟩))
    exact (SendStep.ite (hsend.trans (State.lwPut_sendStep _ node (Nat.le_refl 1) _)) hsend).trans (SendStep.of_eq rfl rfl)

theorem State.flowLoad_sendStep {s t : State} {node : Nat} (h : s.flowLoad node = some t) : SendStep s t := by
  have hload (u : State) : SendStep u ((u.devRead (u.lwAddr node 0) 32).setFlow node (u.flowInit node)) :=
    (u.devRead_sendStep _ _).trans (SendStep.of_eq rfl rfl)
  have huse : SendStep s (s.modBulk fun g => { g with useCtr := g.useCtr + 1 }) := SendStep.of_eq rfl rfl
  unfold State.flowLoad at h
  dsimp only at h
  split at h
  · exact Option.some.inj h ▸ huse.trans (SendStep.of_eq rfl rfl)
  · split at h
    · exact Option.some.inj h ▸ huse.trans (hload _)
    · obtain ⟨v, -, rfl⟩ := Option.map_eq_some_iff.1 h
      exact huse.trans ((State.evict_sendStep _ v).trans (hload _))

theorem State.bulkIssue_sendStep (s : State) (node : Nat) (m : BulkMsg) : SendStep s (s.bulkIssue node m) := by
  have hcount : SendStep s (s.modFab fun g => { g with nextOrder := g.nextOrder + 1 }) := SendStep.of_eq rfl rfl
  unfold State.bulkIssue
  dsimp only
  split
  next t ht => exact hcount.trans ((State.flowLoad_sendStep ht).trans (SendStep.of_eq rfl rfl))
  next => exact hcount.trans (SendStep.of_eq rfl rfl)

/-! ### A page that leaves (R172) -/

/-- A mover that has taken a page to be sent holds it until no copy of it is under way. -/
theorem State.freeMovers_taken {s : State} {t : Table MoverJob} {m : Nat} {j : MoverJob} (hm : s.ses.movers = tblIns t m j)
    (hfree : tblFind t m = none) (hj : j.land = false) : tblFind s.freeMovers.ses.movers m = some j
      ∨ (tblFind s.freeMovers.ses.movers m = none ∧ s.freeMovers.flying j.handle j.n = false) := by
  have hkeep : tblFind s.freeMovers.ses.movers m = if j.land || s.flying j.handle j.n then some j else none := by
    simp only [State.freeMovers, State.modSes_ses, hm, tblFind_tblKeep_tblIns _ _ hfree]
  rw [hkeep, hj]
  cases hfly : s.flying j.handle j.n with
  | false => exact .inr ⟨rfl, hfly⟩
  | true => exact .inl rfl

/-- The session with the copy of page `n`, in run `o` and with CRC `crc`, kept as sent. -/
def Session.copySent (x : Session) (n o : Nat) (crc : W32) : Session := { x with sent := tblIns x.sent n (o, crc) }

section
variable {s : State} {h n o : Nat} {x : Session} {l : Lease}

/-- A copy toward a lease whose address a node serves is sent. -/
theorem State.putCopy_sent {ctx lease : Nat} (hlease : s.lease ctx lease = some l) (hvalid : l.valid = true) (hlost : l.lost = false)
    (hid : s.idOk (leaseAddr l o) = true) (howner : (s.ownerOf (leaseAddr l o)).isSome = true) (img : List Byte) (u : Purpose) :
    ∃ node m, s.putCopy ctx lease o img u = .ok (s.bulkIssue node m) := by
  obtain ⟨⟨node, b, c⟩, hnode⟩ := Option.isSome_iff_exists.1 howner
  refine ⟨node, bulkMsg 1 ctx 1 0 l.rcd.key (leaseAddr l o) img.length img u, ?_⟩
  simp only [State.putCopy, State.bulkLease, hlease, hvalid, hlost, hid, hnode, Bool.not_true, Bool.or_self, Bool.false_eq_true, if_false]

/-- A copy of a move into one lease takes a nonce, is kept with the session, and leaves in one message. -/
theorem State.sendCopy_single (hdual : x.move.dual = false) (hlease : s.lease x.ctx x.move.lease = some l) (hvalid : l.valid = true)
    (hlost : l.lost = false) (hid : s.idOk (leaseAddr l o) = true) (howner : (s.ownerOf (leaseAddr l o)).isSome = true) (aad pay : List Byte)
    (u : Bool → Purpose) : ∃ node m, s.sendCopy h x n o aad pay u
      = (s.sealNonce.2.setSess h (x.copySent n o (crc32c pay))).bulkIssue node m := by
  obtain ⟨node, m, hput⟩ := State.putCopy_sent (s := s.sealNonce.2.setSess h (x.copySent n o (crc32c pay)))
    hlease hvalid hlost hid howner (sealCopy (s.parkKey x.ctx) s.sealNonce.1 aad pay) (u false)
  have hone : (s.moveLeases x).zipIdx = [(x.move.lease, 0)] := by
    simp only [State.moveLeases, hdual, Bool.false_eq_true, if_false]
    rfl
  have hfirst : ((0 : Nat) == 1) = false := rfl
  refine ⟨node, m, ?_⟩
  unfold Session.copySent at hput ⊢
  simp only [State.sendCopy, hone, List.foldl_cons, List.foldl_nil, hfirst, hput]

/-- A page read sound that has the format of its park leaves as it is. -/
theorem State.parkPage_sound (m : Nat) (hx : s.sess h = some x) (ho : tblFind x.runs n = some o)
    (hbad : s.hbad (x.dir.ent n).frame 0 (pageBytes (s.sbind x) (x.dir.ent n).fmt) = none)
    (hcrc : crc32c (s.hread (x.dir.ent n).frame 0 (pageBytes (s.sbind x) (x.dir.ent n).fmt)) = (x.dir.ent n).crc)
    (hfmt : parkFmtOf x.move.pfmt (x.dir.ent n) = (x.dir.ent n).fmt) : ∃ aad, s.parkPage m h n none
      = s.sendCopy h x n o aad (s.hread (x.dir.ent n).frame 0 (pageBytes (s.sbind x) (x.dir.ent n).fmt)) (.parkPage h n) := by
  have hread : s.moverRead m h n none x = .ok (s.hread (x.dir.ent n).frame 0 (pageBytes (s.sbind x) (x.dir.ent n).fmt)) := by
    simp only [State.moverRead, hbad, Option.filter_none, Option.map_none, Option.orElse_none, hcrc, if_true]
  simp only [State.parkPage, hx, ho, hread, hfmt, if_true]
  exact ⟨_, rfl⟩

end

theorem pagesLeave : Sys2Proof.Parts.PagesLeave := by
  unfold Sys2Proof.Parts.PagesLeave
  intro s m c cost a b h n o x l hm hl hq hfree items hpick hitem hn hx ho hdual _ e len pay hbad hcrc hfmt hlease hvalid hlost hid howner
  have hturn : s.MoverTurn m c cost (.park h n) := ⟨hm, hl, hq, hfree, hpick, a, b, hitem⟩
  let u := (s.fqTag 2 c cost).busy m ⟨h, n, false, false, []⟩
  obtain ⟨aad, hpark⟩ := State.parkPage_sound (s := u) m hx ho hbad hcrc hfmt
  obtain ⟨node, msg, hsend⟩ := State.sendCopy_single (s := u) (h := h) (n := n) hdual hlease hvalid hlost hid howner aad pay (.parkPage h n)
  have hstep := State.bulkIssue_sendStep (u.sealNonce.2.setSess h (x.copySent n o (crc32c pay))) node msg
  refine ⟨((u.sealNonce.2.setSess h (x.copySent n o (crc32c pay))).bulkIssue node msg).freeMovers, x.copySent n o (crc32c pay), ?_, ?_, ?_, rfl,
    ?_, ?_, ?_⟩
  · rw [exec_pageMoverStart hturn none, ← hsend]
    simp only [State.takeItem, hn, if_false]
    exact congrArg (fun t : State => Host.Outcome.next t.freeMovers) hpark
  · exact (hstep.sess_eq h).trans (State.sess_setSess_self _ _ _)
  · rw [← hcrc]; rfl
  · exact congrArg Sec.sealCtr hstep.sec
  · exact hstep.hbm
  · exact State.freeMovers_taken hstep.movers_eq hfree rfl

end Sys2Proof.Machine

/-! PROOFS. Pages that land (06 R181-R183). A landing keeps what it should where the entries of the session's directory are a table in
canonical form; where they are not, the entry of a page that lands as all zeros is deleted, and another one under its key comes to light. -/

namespace Sys2Proof.Machine

/-! ### The landing (R182) -/

/-- The entry of a page that has landed as `bs`. -/
def Pte.withLanding (e : Pte) (bs : List Byte) : Pte := { e.bump with copyPend := false, crc := crc32c bs, dirty := false }

/-- The session with page `n` landed as `bs`. -/
def Session.withLanding (x : Session) (n : Nat) (bs : List Byte) : Session :=
  { x with
    dir := x.dir.setEnt n ((x.dir.ent n).withLanding bs)
    move := if decide (n ∈ x.reland) then x.move else { x.move with done := x.move.done + 1 }
    reland := x.reland.filter (· != n), relanded := if decide (n ∈ x.reland) then n :: x.relanded else x.relanded }

/-- Page `n` of session `h`, landed as `bs`, is written and noted. -/
def State.putLanding (s : State) (h n : Nat) (x : Session) (bs : List Byte) : State :=
  let t := ((s.hwrite (x.dir.ent n).frame 0 bs).setSess h (x.withLanding n bs)).noteEntry h n ((x.dir.ent n).withLanding bs)
  (if decide (n ∈ x.reland) then t.count 0x9005 3 else t).noteLanding h (n % s.lgn x)

theorem State.putLanding_ses (s : State) (h n : Nat) (x : Session) (bs : List Byte) :
    (s.putLanding h n x bs).ses = ((s.hwrite (x.dir.ent n).frame 0 bs).setSess h (x.withLanding n bs)).ses := by
  unfold State.putLanding
  dsimp only
  split <;> rfl

theorem State.hwrite_ses (s : State) (frame off : Nat) (bs : List Byte) :
    (s.hwrite frame off bs).ses = { s.ses with hbm := memWrite s.ses.hbm (4096 * frame + off) bs } :=
  (State.cleanLines_step _ _ _ _).ses_eq

theorem State.sess_putLanding (s : State) (h n : Nat) (x : Session) (bs : List Byte) :
    (s.putLanding h n x bs).sess h = some (x.withLanding n bs) :=
  (State.sess_congr (s.putLanding_ses h n x bs) h).trans (State.sess_setSess_self _ _ _)

section
variable {s : State} {x : Session} {pay : List Byte}

/-- A copy that opens and checks is written, and the revival is looked at. -/
theorem State.landPage_of_open {mv h n : Nat} {second : Bool} {img : List Byte} {p : Pte} (hx : s.sess h = some x)
    (hp : x.pdir.map (fun d => s.readPte x.ctx (d.ent n)) = some p) (hpend : (x.dir.ent n).copyPend = true) (hvalid : p.valid = true)
    (hopen : openCopy (s.parkKey x.ctx) (s.pageAad x n (frameOff p.frame) p.fmt p.fill p.crc p.gen) img = some pay) (hcrc : crc32c pay = p.crc) :
    s.landPage mv h n second img = (s.putLanding h n x (s.landBytes x p (x.dir.ent n) pay)).reviveCheck h := by
  have hsound : (some pay).filter (fun b => crc32c b == p.crc) = some pay := by simp only [hcrc, Option.filter_some, beq_self_eq_true, if_true]
  simp only [State.landPage, hx, hp, hpend, hvalid, hopen, hsound, Bool.not_true, Bool.or_self, Bool.false_eq_true, if_false]
  rfl

/-- A mover that holds a landing, in a slot of its context, is free again, and the page lands. -/
theorem exec_pageLand {m : Nat} {j : MoverJob} (hm : m < 16) (hl : s.live = true) (hdown : s.plinthDown = false)
    (hj : tblFind s.ses.movers m = some j) (hland : j.land = true) (hx : s.sess j.handle = some x) (hslot : s.slotOk x.ctx = true) :
    exec (.pageLand m) s
      = .next ((s.modSes fun g => { g with movers := tblDel g.movers m }).landPage m j.handle j.n j.second j.data) := by
  show execPageLand m s = _
  simp only [execPageLand, Nat.not_le.2 hm, hj, hl, hdown, hland, hx, hslot, Option.any_some, Bool.not_true, Bool.or_self,
    Bool.false_eq_true, if_false]

end

/-! ### Entries -/

theorem Dir.ent_setEnt_self {d : Dir} (hd : tblWf d.ents = true) (n : Nat) (e : Pte) : (d.setEnt n e).ent n = e := tblGet_tblPut_self _ hd n e

/-! ### What the end of a revival leaves alone (R183) -/

/-- `t` has the memories of `s`, no mover more, and in page `n` of session `h` another DIRTY at most. -/
structure ReviveStep (h n : Nat) (s t : State) : Prop where
  hbm : t.ses.hbm = s.ses.hbm
  cmem : t.ses.cmem = s.ses.cmem
  movers : ∀ m, tblFind s.ses.movers m = none → tblFind t.ses.movers m = none
  ent : ∀ x, s.sess h = some x → ∃ y b, t.sess h = some y ∧ y.dir.ent n = { x.dir.ent n with dirty := b }

section
variable {h n : Nat}

theorem ReviveStep.trans {s t u : State} (h1 : ReviveStep h n s t) (h2 : ReviveStep h n t u) : ReviveStep h n s u := by
  refine ⟨h2.hbm.trans h1.hbm, h2.cmem.trans h1.cmem, fun m hm => h2.movers m (h1.movers m hm), fun x hx => ?_⟩
  obtain ⟨y, b, hy, hent⟩ := h1.ent x hx
  obtain ⟨z, c, hz, hent2⟩ := h2.ent y hy
  exact ⟨z, c, hz, by rw [hent2, hent]⟩

theorem ReviveStep.of_ses_eq {s t : State} (hst : t.ses = s.ses) : ReviveStep h n s t :=
  ⟨by rw [hst], by rw [hst], fun m hm => by rw [hst, hm], fun x hx => ⟨x, _, (State.sess_congr hst h).trans hx, rfl⟩⟩

theorem ReviveStep.refl (s : State) : ReviveStep h n s s := ReviveStep.of_ses_eq rfl

theorem ReviveStep.of_freeStep {s t : State} (hf : FreeStep s t) : ReviveStep h n s t :=
  ⟨hf.hbm_eq, hf.cmem_eq, fun m hm => by rw [hf.movers_eq, hm], fun x hx => ⟨x, _, (hf.sess_eq h).trans hx, rfl⟩⟩

theorem ReviveStep.setSess {s : State} {x y : Session} (hx : s.sess h = some x) (hdir : y.dir = x.dir) : ReviveStep h n s (s.setSess h y) := by
  refine ⟨rfl, rfl, fun _ hm => hm, fun x' hx' => ⟨y, (x'.dir.ent n).dirty, s.sess_setSess_self h y, ?_⟩⟩
  obtain rfl := Option.some.inj (hx.symm.trans hx')
  rw [hdir]

theorem ReviveStep.sesEvent {s t : State} (hst : ReviveStep h n s t) (x y : Session) (code status kind : Nat) :
    ReviveStep h n s (t.sesEvent h x y code status kind) :=
  hst.trans (ReviveStep.of_ses_eq (State.sesEvent_ses _ _ _ _ _ _ _))

theorem ReviveStep.ite {s a b : State} {c : Prop} [Decidable c] (ha : ReviveStep h n s a) (hb : ReviveStep h n s b) :
    ReviveStep h n s (if c then a else b) := by
  split <;> assumption

theorem State.moveEnd_reviveStep (s : State) : ReviveStep h n s (s.moveEnd h) :=
  ⟨rfl, rfl, fun _ hm => tblFind_tblKeep_of_none (fun _ (j : MoverJob) => j.handle != h) hm,
    fun x hx => ⟨x.moveless, _, by rw [State.sess_moveEnd_self, hx]; rfl, rfl⟩⟩

/-- The entry of a page that describes none stays so, another keeps all but DIRTY. -/
theorem tblGet_tblMap_dirty (t : Table Pte) (c : Nat → Pte → Bool) :
    ∃ b, tblGet pteNone (tblMap t fun k e => if c k e then { e with dirty := true } else e) n = { tblGet pteNone t n with dirty := b } := by
  unfold tblGet
  rw [tblFind_tblMap]
  cases hn : tblFind t n with
  | none => exact ⟨false, rfl⟩
  | some e =>
    cases hc : c n e with
    | true => exact ⟨true, by simp [hc]⟩
    | false => exact ⟨e.dirty, by simp [hc]⟩

/-- The session without its parked directory `d`: what has landed has no copy there any more. -/
def Session.withoutParked (x : Session) (d : Dir) : Session :=
  { x with
    pdir := none, hinted := false, dual := false
    dir := { x.dir with ents := tblMap x.dir.ents fun n e =>
      if e.landed && decide (2 ≤ (d.ent n).tier) then { e with dirty := true } else e } }

theorem State.freeParked_reviveStep (s : State) : ReviveStep h n s (s.freeParked h) := by
  unfold State.freeParked
  split
  next => exact ReviveStep.refl s
  next x hx =>
    split
    next => exact ReviveStep.refl s
    next d hd =>
      refine ReviveStep.trans (t := (s.each d.ents fun t e =>
          if e.2.valid && decide (2 ≤ e.2.tier) then t.copyFree x.ctx e.2 else t).dirFree x.ctx d)
        (ReviveStep.of_freeStep ((State.each_freeStep (fun t e => ?_) d.ents s).trans (State.dirFree_freeStep _ _ _))) ?_
      · exact FreeStep.ite (State.copyFree_freeStep t x.ctx e.2) (FreeStep.refl t)
      · refine ⟨rfl, rfl, fun _ hm => hm, fun z hz => ?_⟩
        obtain ⟨b, hb⟩ := tblGet_tblMap_dirty (n := n) z.dir.ents fun k e => e.landed && decide (2 ≤ (d.ent k).tier)
        exact ⟨z.withoutParked d, b, by rw [State.sess_updSess_self]; exact congrArg (Option.map _) hz, hb⟩

theorem State.dropParked_reviveStep (s : State) : ReviveStep h n s (s.dropParked h) := by
  unfold State.dropParked
  split
  next => exact ReviveStep.refl s
  next =>
    split
    · exact ReviveStep.refl s
    · exact s.freeParked_reviveStep.trans (State.moveEnd_reviveStep _)

/-- A revival whose pages have all landed ends, in each state that its session can be in. -/
theorem State.reviveCheck_reviveStep (s : State) : ReviveStep h n s (s.reviveCheck h) := by
  unfold State.reviveCheck
  split
  next => exact ReviveStep.refl s
  next x hx =>
    let y := x.goto s.tick (if x.stepPins = 0 then .idle else .active)
    have hback : ReviveStep h n s ((s.setSess h { y with parkAt := s.dev.nclk }).sesEvent h x y 1 stOk 2) :=
      ReviveStep.sesEvent (.setSess (y := { y with parkAt := s.dev.nclk }) hx rfl) x y 1 stOk 2
    have hlost : ReviveStep h n s (s.setSess h { x with move := { x.move with held := false } }) := .setSess hx rfl
    exact .ite (.refl s) (.ite (.ite hback (hback.trans (State.dropParked_reviveStep _))) (.ite (hlost.trans (State.dropParked_reviveStep _))
      (.ite (.refl s) (.ite s.dropParked_reviveStep s.freeParked_reviveStep))))

end

/-! ### A page that lands (R182) -/

theorem State.putLanding_hbm (s : State) (h n : Nat) (x : Session) (bs : List Byte) :
    (s.putLanding h n x bs).ses.hbm = memWrite s.ses.hbm (4096 * (x.dir.ent n).frame) bs := by
  rw [State.putLanding_ses]
  exact (congrArg Ses.hbm (s.hwrite_ses (x.dir.ent n).frame 0 bs) :)

theorem State.putLanding_cmem (s : State) (h n : Nat) (x : Session) (bs : List Byte) : (s.putLanding h n x bs).ses.cmem = s.ses.cmem := by
  rw [State.putLanding_ses]
  exact (congrArg Ses.cmem (s.hwrite_ses (x.dir.ent n).frame 0 bs) :)

theorem State.putLanding_movers (s : State) (h n : Nat) (x : Session) (bs : List Byte) :
    (s.putLanding h n x bs).ses.movers = s.ses.movers := by
  rw [State.putLanding_ses]
  exact (congrArg Ses.movers (s.hwrite_ses (x.dir.ent n).frame 0 bs) :)

/-- What a landing keeps in the entry of its page, whatever DIRTY becomes when the revival ends. -/
theorem Pte.withLanding_landed (e : Pte) (bs : List Byte) (b : Bool) :
    ({ e.withLanding bs with dirty := b } : Pte).landed = (e.valid && e.tier == 1) := Bool.and_true _

/-- The claim of O31 about landings (`Parts.PagesLand`), for a directory whose entries are a table in canonical form. -/
theorem exec_pageLand_lands {s : State} {m : Nat} {j : MoverJob} {x : Session} {d : Dir} {pay : List Byte} (hm : m < 16) (hl : s.live = true)
    (hdown : s.plinthDown = false) (hj : tblFind s.ses.movers m = some j) (hland : j.land = true) (hwf : tblWf s.ses.movers = true)
    (hx : s.sess j.handle = some x) (hslot : s.slotOk x.ctx = true) (hd : x.pdir = some d) (hents : tblWf x.dir.ents = true) :
    let e := x.dir.ent j.n
    let p := s.readPte x.ctx (d.ent j.n)
    e.copyPend = true → p.valid = true →
    openCopy (s.parkKey x.ctx) (s.pageAad x j.n (frameOff p.frame) p.fmt p.fill p.crc p.gen) j.data = some pay → crc32c pay = p.crc →
    let bs := s.landBytes x p e pay
    ∃ (t : State) (y : Session), exec (.pageLand m) s = .next t ∧ t.sess j.handle = some y ∧ tblFind t.ses.movers m = none
      ∧ (memWf s.ses.hbm = true → t.hread e.frame 0 bs.length = bs)
      ∧ (∀ i, i < 4096 * e.frame ∨ 4096 * e.frame + bs.length ≤ i → memGet t.ses.hbm i = memGet s.ses.hbm i)
      ∧ t.ses.cmem = s.ses.cmem
      ∧ (y.dir.ent j.n).crc = crc32c bs ∧ (y.dir.ent j.n).gen = e.gen + 1 ∧ (y.dir.ent j.n).frame = e.frame
      ∧ (y.dir.ent j.n).copyPend = false ∧ (y.dir.ent j.n).landed = (e.valid && e.tier == 1) := by
  intro e p hpend hvalid hopen hcrc bs
  let r := s.modSes fun g => { g with movers := tblDel g.movers m }
  let u := r.putLanding j.handle j.n x bs
  have hlanded : r.landPage m j.handle j.n j.second j.data = u.reviveCheck j.handle :=
    State.landPage_of_open (s := r) (p := p) hx (by rw [hd]; rfl) hpend hvalid hopen hcrc
  have hexec : exec (.pageLand m) s = .next (u.reviveCheck j.handle) :=
    (exec_pageLand hm hl hdown hj hland hx hslot).trans (congrArg Host.Outcome.next hlanded)
  have hhbm : u.ses.hbm = memWrite s.ses.hbm (4096 * e.frame) bs := r.putLanding_hbm _ _ _ _
  have hcmem : u.ses.cmem = s.ses.cmem := r.putLanding_cmem _ _ _ _
  have hmovers : u.ses.movers = tblDel s.ses.movers m := r.putLanding_movers _ _ _ _
  have hent : (x.withLanding j.n bs).dir.ent j.n = e.withLanding bs := Dir.ent_setEnt_self hents _ _
  have hstep : ReviveStep j.handle j.n u (u.reviveCheck j.handle) := u.reviveCheck_reviveStep
  obtain ⟨y, b, hy, hyent⟩ := hstep.ent _ (r.sess_putLanding _ _ _ _)
  rw [hent] at hyent
  refine ⟨_, y, hexec, hy, hstep.movers m (by rw [hmovers, tblFind_tblDel_self hwf]), fun hmem => ?_, fun i hi => ?_, hstep.cmem.trans hcmem, ?_⟩
  · rw [State.hread, hstep.hbm, hhbm]
    exact memRead_memWrite hmem _ _
  · rw [hstep.hbm, hhbm, memGet_memWrite_outside _ _ _ _ hi]
  · rw [hyent]
    exact ⟨rfl, rfl, rfl, rfl, e.withLanding_landed bs b⟩

/-! ### The refutation -/

/-- A revival that still waits for a page goes on. -/
theorem State.reviveCheck_waits {s : State} {h : Nat} {x : Session} (hx : s.sess h = some x) (hwait : (x.dir.ents.any fun e => e.2.copyPend) = true) :
    s.reviveCheck h = s := by
  simp only [State.reviveCheck, hx, hwait, Bool.or_true, if_true]

/-- An entry that its landing with no bytes leaves as one that describes no page. -/
def pteLandingAsNone : Pte := { pteNone with copyPend := true, gen := 0xFFFFFFFF }

/-- A session in a revival whose directory has two entries under index 0. -/
def sessTwoEntries : Session :=
  { sesFree 0 with
    state := .reviving, dir := { dirNone with ents := [(0, pteLandingAsNone), (0, { pteNone with copyPend := true })] }
    pdir := some { dirNone with ents := [(0, { pteNone with valid := true })] } }

/-- A mover's copy of page 0 of session 0, with no bytes. -/
def jobNoBytes : MoverJob := ⟨0, 0, false, true, sealCopy 0 0 (sealAad 0 0 0 0 0 0 0) []⟩

/-- A device that runs, with that session and that landing. -/
def stateTwoEntries : State :=
  { State.reset with
    dev := { State.reset.dev with locked := true }
    ses := { State.reset.ses with tbl := [(0, sessTwoEntries)], movers := [(0, jobNoBytes)] } }

/-- What the landing leaves under index 0 is the second entry. -/
theorem sessTwoEntries_withLanding : (sessTwoEntries.withLanding 0 []).dir.ents = [(0, { pteNone with copyPend := true })] := by decide +kernel

theorem jobNoBytes_opens : openCopy 0 (sealAad 0 0 0 0 0 0 0) jobNoBytes.data = some [] := openCopy_sealCopy 0 0 _ _ (by decide)

/-- The device as the landing finds it, with its mover free. -/
def stateTwoEntriesFree : State := stateTwoEntries.modSes fun g => { g with movers := tblDel g.movers 0 }

/-- The landing writes nothing, and the revival waits for the entry that it brought to light. -/
theorem exec_pageLand_twoEntries : exec (.pageLand 0) stateTwoEntries = .next (stateTwoEntriesFree.putLanding 0 0 sessTwoEntries []) := by
  have hland : stateTwoEntriesFree.landPage 0 0 0 false jobNoBytes.data
      = (stateTwoEntriesFree.putLanding 0 0 sessTwoEntries []).reviveCheck 0 :=
    State.landPage_of_open (p := { pteNone with valid := true }) (pay := []) rfl rfl rfl rfl jobNoBytes_opens rfl
  have hwait : ((sessTwoEntries.withLanding 0 []).dir.ents.any fun e => e.2.copyPend) = true := by rw [sessTwoEntries_withLanding]; rfl
  calc exec (.pageLand 0) stateTwoEntries
    _ = .next (stateTwoEntriesFree.landPage 0 0 0 false jobNoBytes.data) :=
        exec_pageLand (j := jobNoBytes) (x := sessTwoEntries) (by decide) (by decide +kernel) rfl rfl rfl rfl (by decide +kernel)
    _ = .next (stateTwoEntriesFree.putLanding 0 0 sessTwoEntries []) := by
        rw [hland, State.reviveCheck_waits (State.sess_putLanding _ _ _ _ _) hwait]

/-- The claim about landings, which asks nothing of the order of a directory's entries, fails at that state. -/
theorem not_pagesLand : ¬ Sys2Proof.Parts.PagesLand := by
  unfold Sys2Proof.Parts.PagesLand
  intro hall
  obtain ⟨t, y, hexec, hy, -, -, -, -, -, -, -, hpend, -⟩ := hall stateTwoEntries 0 jobNoBytes sessTwoEntries _ [] (by decide)
    (by decide +kernel) rfl rfl rfl rfl rfl (by decide +kernel) rfl rfl rfl jobNoBytes_opens rfl
  obtain rfl := Host.Outcome.next.inj (hexec.symm.trans exec_pageLand_twoEntries)
  obtain rfl := Option.some.inj (hy.symm.trans (State.sess_putLanding _ _ _ _ _))
  have hshown : ((sessTwoEntries.withLanding 0 []).dir.ent 0).copyPend = true := by rw [Dir.ent, sessTwoEntries_withLanding]; rfl
  exact Bool.false_ne_true (hpend.symm.trans hshown)

/-- Refutes O31, by its part on landings: it lacks the hypothesis that the entries of the session's directory are a table in canonical form. Of two
entries under one index the first lands as an entry that describes no page, which deletes it, and the index then shows the second, whose
copy has not landed. With that hypothesis the part holds (`exec_pageLand_lands`); the parts on movers and on pages that leave hold as they
are (`moversTakeTheNextItem`, `pagesLeave`). -/
theorem not_pageMovers : ¬ Obligations.PageMovers := by
  unfold Obligations.PageMovers
  rintro ⟨-, -, hland⟩
  exact not_pagesLand hland

end Sys2Proof.Machine

/-! PROOFS. A migration (06 R187, R188): its commands, the messages between the two state engines, and its timeouts. -/

namespace Sys2Proof.Machine

section
variable {s t u v : State} {sq q : Nat} {h : CmdHdr} {handle : BitVec 24}

/-! ### The commands (R187 steps 1 and 2) -/

/-- A session that is named leaves no migration behind it undecided. -/
theorem State.leaving_of_named {ctx n : Nat} {x : Session} (hx : (s.named ctx n).2 = .ok x) : x.leaving = false := by
  have hown := (State.owned_of_named hx).1
  unfold State.named at hx
  simp only [hown] at hx
  split at hx
  · cases hx
  next hno => exact (Bool.or_eq_false_iff.1 (Bool.eq_false_iff.2 hno)).2

/-- A session of its own, IDLE or PARKED, is offered to a joined peer; one whose directory lies in a lease is swept first. -/
theorem exec_migrate {dev : BitVec 16} {ph : BitVec 24} {x : Session} (ha : Accepted s t sq q h (.migrate handle dev ph) [])
    (hx : (t.named h.ctx.toNat handle.toNat).2 = .ok x) (hst : x.state = .idle ∨ x.state = .parked) (hpins : x.stepPins = 0)
    (hpeer : ((t.named h.ctx.toNat handle.toNat).1.peerCtx x.ctx dev.toNat).isSome = true)
    (hu : u = if 2 ≤ x.dir.tier then (t.named h.ctx.toNat handle.toNat).1.sweepExtent handle.toNat x else (t.named h.ctx.toNat handle.toNat).1)
    (hkept : (u.sess handle.toNat).map (·.state) ≠ some .lost) :
    exec (.migrate sq h handle dev ph) s
      = .next (completed s (u.migStart handle.toNat dev.toNat ph.toNat) sq q h (.migrate handle dev ph) 0) := by
  obtain ⟨hown, hin⟩ := State.owned_of_named hx
  have hstay : (x.state == .migrating || x.leaving) = false := by
    rw [State.leaving_of_named hx]
    rcases hst with hst | hst <;> rw [hst] <;> rfl
  have hfree : (!(x.state == .idle || x.state == .parked) || x.stepPins != 0) = false := by
    rcases hst with hst | hst <;> rw [hst, hpins] <;> rfl
  have hfound : ((u.sess handle.toNat).any fun y => y.state == .lost) = false := by
    cases hy : u.sess handle.toNat with
    | none => rfl
    | some y => simpa [hy] using hkept
  rw [State.named_fst] at hpeer hu
  refine State.ringCmd_accepted ha ?_
  simp only [hown, hin, hstay, hfree, ← hu, hfound, ← Option.not_isSome, hpeer, Bool.false_and, Bool.not_true, Bool.false_eq_true, if_false]

/-- A handle that no session has is held for an incoming one. -/
theorem exec_migrateIn {dev : BitVec 16} {ev : BitVec 6} {sh : BitVec 24} (ha : Accepted s t sq q h (.migrateIn handle dev ev false sh) [])
    (hok : t.inHandle h.ctx.toNat handle.toNat = stOk) (hnew : tblFind t.ses.migIn handle.toNat = none) :
    exec (.migrateIn sq h handle dev ev sh) s
      = .next (completed s (t.modSes fun g => { g with
          migIn := tblIns g.migIn handle.toNat ⟨h.ctx.toNat, dev.toNat, sh.toNat, ev.toNat⟩ }) sq q h (.migrateIn handle dev ev false sh) 0) := by
  refine State.ringCmd_accepted ha ?_
  simp only [hok, hnew, Option.isSome_none, ne_eq, not_true_eq_false, Bool.false_eq_true, if_false]

theorem exec_migrateInCancel {dev : BitVec 16} {ev : BitVec 6} {sh : BitVec 24} {m : MigIn}
    (ha : Accepted s t sq q h (.migrateIn handle dev ev true sh) []) (hok : t.inHandle h.ctx.toNat handle.toNat = stOk)
    (hm : tblFind t.ses.migIn handle.toNat = some m) (hctx : m.ctx = h.ctx.toNat) :
    exec (.migrateInCancel sq h handle dev ev sh) s
      = .next (completed s (t.modSes fun g => { g with migIn := tblDel g.migIn handle.toNat }) sq q h (.migrateIn handle dev ev true sh) 0) := by
  refine State.ringCmd_accepted ha ?_
  simp only [hok, hm, hctx, Option.any_some, beq_self_eq_true, ne_eq, not_true_eq_false, if_false, if_true]

end

theorem migrationCommands : Sys2Proof.Parts.MigrationCommands := by
  unfold Sys2Proof.Parts.MigrationCommands
  intro s t sq q h handle
  exact ⟨fun dev ph x u => exec_migrate, fun dev ev sh => exec_migrateIn, fun dev ev sh m => exec_migrateInCancel⟩

/-! ### The messages and the timeouts (R187 steps 5 to 8, R188) -/

section
variable {s t : State} {n a : Nat} {x : Session} (hl : s.live = true) (hd : s.plinthDown = false) (hx : s.sess n = some x)
include hl hd hx

/-- A message in the inbox of the session's context takes effect in a phase of the migration that `ph` admits. -/
theorem State.migEvent_taken {m : MigMsg} (ph : MigPh → Bool) (f : State → Session → State)
    (hm : s.takeMsg m = some (a, x.ctx, t)) (hph : ph x.mig = true) : s.migEvent n m ph f = .next (f t x) := by
  simp only [State.migEvent, hx, hm, hl, hd, hph, Bool.not_false, beq_self_eq_true, Bool.and_self, if_true]

theorem exec_accept (hm : s.takeMsg (.accept n) = some (a, x.ctx, t)) (hph : x.mig = .offered) :
    exec (.accept n) s = .next ((t.setSess n { x with mig := .sending }).migNext n) :=
  State.migEvent_taken hl hd hx (· == .offered) (fun t x => (t.setSess n { x with mig := .sending }).migNext n) hm (beq_iff_eq.2 hph)

theorem exec_refuse {st : BitVec 16} (hm : s.takeMsg (.refuse n st.toNat) = some (a, x.ctx, t)) (hph : x.mig = .offered) :
    exec (.refuse n st) s = .next (t.migBack n st.toNat) :=
  State.migEvent_taken hl hd hx (· == .offered) (fun t _ => t.migBack n st.toNat) hm (beq_iff_eq.2 hph)

theorem exec_ready (hm : s.takeMsg (.ready n) = some (a, x.ctx, t)) (hph : x.mig = .sentLast) :
    exec (.ready n) s
      = .next ((t.setSess n { x with mig := .releasing }).migDecide n { x with mig := .releasing } (.release x.peerHandle)) :=
  State.migEvent_taken hl hd hx (· == .sentLast) (fun t x => (t.setSess n { x with mig := .releasing }).migDecide n { x with mig := .releasing }
    (.release x.peerHandle)) hm (beq_iff_eq.2 hph)

theorem exec_release (hm : s.takeMsg (.release n) = some (a, x.ctx, t)) (hph : x.mig = .inReady) : exec (.release n) s = .next (t.migComplete n) :=
  State.migEvent_taken hl hd hx (· == .inReady) (fun t _ => t.migComplete n) hm (beq_iff_eq.2 hph)

theorem exec_abort (hm : s.takeMsg (.abort n) = some (a, x.ctx, t)) (hph : x.mig = .inReceiving ∨ x.mig = .inReady) :
    exec (.abort n) s = .next (t.migDrop n) :=
  State.migEvent_taken hl hd hx (fun p => p == .inReceiving || p == .inReady) (fun t _ => t.migDrop n) hm
    (Bool.or_eq_true_iff.2 (hph.imp beq_iff_eq.2 beq_iff_eq.2))

theorem exec_migrateReadyTimeout (hph : x.mig = .offered ∨ x.mig = .sentLast) (hlate : s.past x.migDeadline = true) :
    exec (.migrateReadyTimeout n) s = .next (s.migAbort n stTimeout) := by
  have hwaits : (x.mig == .offered || x.mig == .sentLast) = true := by
    rcases hph with hph | hph <;> rw [hph] <;> rfl
  show execMigrateReadyTimeout n s = _
  simp only [execMigrateReadyTimeout, hx, hl, hd, hwaits, hlate, Bool.not_false, Bool.and_self, if_true]

theorem exec_migratePeerTimeout (hph : x.mig = .inReceiving) (hlate : s.past x.migDeadline = true) :
    exec (.migratePeerTimeout n) s = .next (s.migDrop n) := by
  show execMigratePeerTimeout n s = _
  simp only [execMigratePeerTimeout, hx, hl, hd, hph, hlate, beq_self_eq_true, Bool.not_false, Bool.and_self, if_true]

end

theorem migrationMessages : Sys2Proof.Parts.MigrationMessages := by
  unfold Sys2Proof.Parts.MigrationMessages
  intro s t n a x hl hd hx
  exact ⟨exec_accept hl hd hx, fun st => exec_refuse hl hd hx, exec_ready hl hd hx, exec_release hl hd hx, exec_abort hl hd hx,
    exec_migrateReadyTimeout hl hd hx, exec_migratePeerTimeout hl hd hx⟩

/-! ### Offers (R187 steps 3 and 4) -/

section
variable {s t u v : State} {a : Nat} {o : Offer} (hl : s.live = true) (hd : s.plinthDown = false)
  (hm : s.takeMsg (.offer o) = some (a, o.ctx.toNat, t))
include hl hd hm

theorem exec_offer_accepted (hu : t.migAccept o = .ok u)
    (hv : u.migSend o.ctx.toNat o.srcDev.toNat o.dstHandle.toNat (.accept o.srcHandle.toNat) [] = .ok v) :
    exec (.offer o) s = .next (v.migReady o.dstHandle.toNat) := by
  show execOffer o s = _
  simp only [execOffer, hm, hl, hd, hu, hv, ne_eq, not_true_eq_false, decide_false, Bool.not_true, Bool.or_self, Bool.false_eq_true, if_false]

/-- An offer that is not taken is answered with the reason, and ends the hold of the MIGRATE_IN it matches. -/
theorem exec_offer_refused {st : Nat} (hst : t.migAccept o = .error st)
    (hu : u = if (tblFind t.ses.migIn o.dstHandle.toNat).any (fun m =>
        m.ctx == o.ctx.toNat && m.srcDev == o.srcDev.toNat && m.srcHandle == o.srcHandle.toNat) then
      t.modSes fun g => { g with migIn := tblDel g.migIn o.dstHandle.toNat } else t)
    (hv : u.migSend o.ctx.toNat o.srcDev.toNat o.dstHandle.toNat (.refuse o.srcHandle.toNat st) [] = .ok v) : exec (.offer o) s = .next v := by
  show execOffer o s = _
  simp only [execOffer, hm, hl, hd, hst, ← hu, hv, ne_eq, not_true_eq_false, decide_false, Bool.not_true, Bool.or_self, Bool.false_eq_true,
    if_false]

end

theorem offersAreAnswered : Sys2Proof.Parts.OffersAreAnswered := by
  unfold Sys2Proof.Parts.OffersAreAnswered
  intro s t a o hl hd hm
  exact ⟨fun u v => exec_offer_accepted hl hd hm, fun st u v => exec_offer_refused hl hd hm⟩

/-- Settles O32: a rule for each command, message and timeout; the messages for a session share one about the inbox. -/
theorem migration : Obligations.Migration := ⟨migrationCommands, migrationMessages, offersAreAnswered⟩

end Sys2Proof.Machine

/-! PROOFS. Leases (06 R165-R167, R190-R192): they are set, cleared and declared lost, and the sweep follows a loss. -/

namespace Sys2Proof.Machine

/-! ### The bitmap a lease leaves (R167) -/

theorem State.leaveBitmap_freeStep (s : State) (ctx l : Nat) : FreeStep s (s.leaveBitmap ctx l) := by
  unfold State.leaveBitmap
  dsimp only
  split
  · exact FreeStep.ite (s.updLease_freeStep _ _ _) (s.unitsFree_freeStep _)
  · exact s.unitsFree_freeStep _

/-- A lease that shares its bitmap with none frees it. -/
theorem State.leaveBitmap_alone {s : State} {ctx l : Nat} {x : Lease} (hx : s.lease ctx l = some x) (hp : s.paired ctx l = none) :
    s.leaveBitmap ctx l = s.unitsFree x.slabs := by
  simp only [State.leaveBitmap, hx, hp, Option.map_some, Option.getD_some]

/-- An update that gives back the group of the checkpoints as it was changes nothing. -/
theorem State.modCks_eq_self {s : State} {f : Cks → Cks} (hf : f s.cks = s.cks) : s.modCks f = s := by
  rw [State.modCks, hf]

/-! ### The commands -/

section
variable {s t u : State} {sq q : Nat} {h : CmdHdr} {lease : BitVec 12}

/-- The partner that record `rcd` of lease `l` names has `l` as its own partner: the two share one bitmap. -/
def State.namedBack (s : State) (ctx l : Nat) (rcd : LeaseRec) : Bool :=
  rcd.partnerEn && (s.lease ctx rcd.partner.toNat).any fun y => y.rcd.partnerEn && y.rcd.partner.toNat == l

theorem State.namedBack_eq_false {ctx l : Nat} {rcd : LeaseRec}
    (hno : rcd.partnerEn = true → ∀ y, s.lease ctx rcd.partner.toNat = some y → ¬(y.rcd.partnerEn = true ∧ y.rcd.partner.toNat = l)) :
    s.namedBack ctx l rcd = false := by
  unfold State.namedBack
  cases hen : rcd.partnerEn with
  | false => rfl
  | true =>
    cases hy : s.lease ctx rcd.partner.toNat with
    | none => rfl
    | some y => simpa using hno hen y hy

/-- A lease whose partner does not name it back takes slabs of its own for its bitmap. -/
theorem exec_leaseSet_alone {ev : BitVec 6} {rcd : LeaseRec} {fs : List Nat} (ha : Accepted s t sq q h (.leaseSet lease ev rcd) [])
    (hok : t.leaseSetOk h.ctx.toNat lease.toNat rcd = true)
    (hno : (t.leaveBitmap h.ctx.toNat lease.toNat).namedBack h.ctx.toNat lease.toNat rcd = false)
    (hu : (t.leaveBitmap h.ctx.toNat lease.toNat).unitsAlloc h.ctx.toNat (t.leaveBitmap h.ctx.toNat lease.toNat).lowDie .lease
      ((rcd.len.toNat + 32767) / 32768) = some (fs, u)) :
    exec (.leaseSet sq h lease ev rcd) s
      = .next (completed s (u.modSes fun g => { g with
          leases := tblIns g.leases (leaseKey h.ctx.toNat lease.toNat) ⟨rcd, false, true, ev.toNat, [], 0, fs⟩ })
          sq q h (.leaseSet lease ev rcd) 0) := by
  have hceil : ceilDiv rcd.len.toNat 32768 = (rcd.len.toNat + 32767) / 32768 := rfl
  unfold State.namedBack at hno
  refine State.ringCmd_accepted ha ?_
  simp only [hok, hno, hceil, hu, Bool.not_true, Bool.false_eq_true, if_false]
  rfl

/-- A lease whose partner names it back takes the partner's bitmap. -/
theorem exec_leaseSet_paired {ev : BitVec 6} {rcd : LeaseRec} {y : Lease} (ha : Accepted s t sq q h (.leaseSet lease ev rcd) [])
    (hok : t.leaseSetOk h.ctx.toNat lease.toNat rcd = true) (hen : rcd.partnerEn = true)
    (hy : (t.leaveBitmap h.ctx.toNat lease.toNat).lease h.ctx.toNat rcd.partner.toNat = some y) (hyen : y.rcd.partnerEn = true)
    (hyl : y.rcd.partner.toNat = lease.toNat) :
    exec (.leaseSet sq h lease ev rcd) s
      = .next (completed s ((t.leaveBitmap h.ctx.toNat lease.toNat).modSes fun g => { g with
          leases := tblIns g.leases (leaseKey h.ctx.toNat lease.toNat) ⟨rcd, false, true, ev.toNat, y.runs, y.cursor, []⟩ }) sq q h
          (.leaseSet lease ev rcd) 0) := by
  have hback : (y.rcd.partnerEn && y.rcd.partner.toNat == lease.toNat) = true := by simp only [hyen, hyl, beq_self_eq_true, Bool.and_self]
  refine State.ringCmd_accepted ha ?_
  simp only [hok, hen, hy, hback, Option.any_some, Bool.and_self, Bool.not_true, Bool.false_eq_true, if_false, if_true]
  rfl

/-- Clearing a lease of a context without a checkpoint; the sessions of a lost one are swept first. -/
theorem exec_leaseClear {x : Lease} {v : State} (ha : Accepted s t sq q h (.leaseClear lease) []) (hx : t.lease h.ctx.toNat lease.toNat = some x)
    (hvalid : x.valid = true) (hunused : x.lost = true ∨ x.used = 0)
    (hv : v = if x.lost then (t.ses.tbl.filter fun e => e.2.ctx == h.ctx.toNat && e.2.sweep).foldl (fun u e => u.sweepSess e.1) t else t)
    (hck : tblFind v.cks.tbl h.ctx.toNat = none) :
    exec (.leaseClear sq h lease) s
      = .next (completed s ((v.leaveBitmap h.ctx.toNat lease.toNat).modSes fun g => { g with
          leases := tblDel g.leases (leaseKey h.ctx.toNat lease.toNat) }) sq q h (.leaseClear lease) 0) := by
  have hgo : (!x.valid || !(x.lost || x.used == 0)) = false := by
    rcases hunused with hl | hu
    · rw [hvalid, hl]; rfl
    · rw [hvalid, hu, beq_self_eq_true, Bool.or_true]; rfl
  refine State.ringCmd_accepted ha ?_
  simp only [hx, hgo, ← hv, Bool.false_eq_true, if_false]
  refine congrArg (CmdOut.done stOk 0) (State.modCks_eq_self ?_)
  simp only [State.modSes_cks, (v.leaveBitmap_freeStep _ _).cks_eq, hck]

theorem exec_leaseLost (ha : Accepted s t sq q h (.leaseLost lease) []) (hok : t.leaseOk h.ctx.toNat lease.toNat = true) :
    exec (.leaseLost sq h lease) s = .next (completed s (t.loseLease h.ctx.toNat lease.toNat) sq q h (.leaseLost lease) 0) := by
  refine State.ringCmd_accepted ha ?_
  simp only [hok, if_true]

/-! ### The sweep (R191, R192) -/

/-- A session of a lost lease that is in no revival is swept, and that is all. -/
theorem exec_lossSweep_settled {n : Nat} {x : Session} (hl : s.live = true) (hx : (s.sweepSess n).sess n = some x) (hp : x.pdir = none) :
    exec (.lossSweep n) s = .next (s.sweepSess n) := by
  show execLossSweep n s = _
  simp only [execLossSweep, hl, hx, hp, Option.isSome_none, Bool.false_and, Bool.not_true, Bool.false_eq_true, if_false]

/-- A revival that goes on asks again for the pages whose read ended with the lease. -/
theorem exec_lossSweep_revival {n : Nat} {x : Session} (hl : s.live = true) (hx : (s.sweepSess n).sess n = some x) (hp : x.pdir.isSome = true)
    (hst : x.state = .reviving ∨ x.state = .lost) (hgo : x.move.suspended = false) :
    exec (.lossSweep n) s = .next ((s.sweepSess n).reviveGo n) := by
  have hrev : (x.state == .reviving || x.state == .lost) = true := by
    rcases hst with hst | hst <;> rw [hst] <;> rfl
  show execLossSweep n s = _
  simp only [execLossSweep, hl, hx, hp, hrev, hgo, Bool.not_true, Bool.not_false, Bool.and_self, Bool.false_eq_true, if_false, if_true]

end

/-- Settles O33: each of the four commands, accepted under its conditions, has its rule, and so has the sweep. -/
theorem leases : Obligations.Leases := by
  unfold Obligations.Leases
  intro s t sq q h lease
  refine ⟨fun ev rcd fs u t0 ha hok ht0 hno hu => ?_, fun ev rcd y t0 ha hok ht0 hen hy hyen hyl => ?_,
    fun x ha hx hvalid hlost hused hp hck => ?_, fun x v ha hx hvalid hlost hv hck => ?_, exec_leaseLost,
    fun n x => exec_lossSweep_settled, fun n x => exec_lossSweep_revival⟩
  · subst ht0
    exact exec_leaseSet_alone ha hok (State.namedBack_eq_false hno) hu
  · subst ht0
    exact exec_leaseSet_paired ha hok hen hy hyen hyl
  · rw [← State.leaveBitmap_alone hx hp]
    exact exec_leaseClear ha hx hvalid (.inr hused) (by rw [hlost]; rfl) hck
  · exact exec_leaseClear ha hx hvalid (.inl hlost) (by rw [hlost]; exact hv) hck

end Sys2Proof.Machine

/-! PROOFS. Owners of addresses and the epoch check (07 R223, R224). -/

namespace Sys2Proof.Machine

/-! ### The record that covers a slot (R223) -/

/-- Record `e` covers slot `sl` of identity `x`. -/
def Extent.Covers (e : Extent) (x sl : Nat) : Prop := e.id = x ∧ e.first ≤ sl ∧ sl ≤ e.last

/-- The test by which `CompMap.owner` looks for a record. -/
theorem Extent.covers_iff (e : Extent) (x sl : Nat) :
    (e.id == x && decide (e.first ≤ sl) && decide (sl ≤ e.last)) = true ↔ e.Covers x sl := by
  simp only [Extent.Covers, Bool.and_eq_true, beq_iff_eq, decide_eq_true_iff, and_assoc]

section
variable {m : CompMap} {e : Extent} {x sl : Nat}

theorem CompMap.owner_of_covered (he : e ∈ m.exts) (hc : e.Covers x sl) (hone : ∀ f ∈ m.exts, f.Covers x sl → f = e) :
    m.owner x sl = some (e.node, e.localSlot + sl - e.first, e.state == 2) := by
  have hfind : (m.exts.find? fun e => e.id == x && decide (e.first ≤ sl) && decide (sl ≤ e.last)) = some e := by
    cases hf : m.exts.find? fun e => e.id == x && decide (e.first ≤ sl) && decide (sl ≤ e.last) with
    | none => exact absurd ((e.covers_iff x sl).2 hc) (List.find?_eq_none.1 hf e he)
    | some f => rw [hone f (List.mem_of_find?_eq_some hf) ((f.covers_iff x sl).1 (List.find?_some hf :))]
  simp only [CompMap.owner, hfind]

theorem CompMap.owner_of_uncovered (hnone : ∀ f ∈ m.exts, ¬ f.Covers x sl) :
    m.owner x sl = if (m.idEnt x).kind = 0 then none else some ((m.idEnt x).node, sl, false) := by
  have hfind : (m.exts.find? fun e => e.id == x && decide (e.first ≤ sl) && decide (sl ≤ e.last)) = none :=
    List.find?_eq_none.2 fun f hf => mt (f.covers_iff x sl).1 (hnone f hf)
  simp only [CompMap.owner, hfind]

end

/-! ### A slot that is HELD (R223, R224) -/

section
variable {s : State} {e : W32} {a sl : Nat}

theorem State.epochCheck_held_write (ho : s.ownerOf a = some (s.fab.node, sl, true)) : s.epochCheck e a true = .error stEpochWait := by
  simp only [State.epochCheck, ho, Bool.and_self, if_true]

theorem State.epochCheck_held_read (ho : s.ownerOf a = some (s.fab.node, sl, true)) (hnew : epNewer s.fab.prevMap.epoch e = false) :
    s.epochCheck e a false = .ok sl := by
  simp only [State.epochCheck, ho, hnew, Bool.and_false, Bool.false_eq_true, if_false, if_true]

end

/-- Settles O45: the only record that covers a slot is the one found, none is found where none covers it, and HELD fails a write alone. -/
theorem ownersOfAddresses : Obligations.OwnersOfAddresses := by
  unfold Obligations.OwnersOfAddresses
  refine ⟨fun m e x sl he hid hlo hhi hone => ?_, fun m x sl => CompMap.owner_of_uncovered,
    fun s e a sl ho => ⟨State.epochCheck_held_write ho, State.epochCheck_held_read ho⟩⟩
  exact CompMap.owner_of_covered he ⟨hid, hlo, hhi⟩ fun f hf ⟨hfid, hflo, hfhi⟩ => hone f hf hfid hflo hfhi

end Sys2Proof.Machine

/-! PROOFS. Link frames and the ports (07 R199-R204). -/

namespace Sys2Proof.Machine

/-! ### Ports of the state -/

theorem State.port_setPort_self {s : State} {p : Nat} (hp : p < s.fab.ports.length) (x : Port) : (s.setPort p x).port p = x := by
  show (s.fab.ports.set p x).getD p portReset = x
  rw [List.getD_eq_getElem?_getD, List.getElem?_set_self hp, Option.getD_some]

theorem State.port_congr {s t : State} (h : t.fab = s.fab) (p : Nat) : t.port p = s.port p := congrArg (fun g : Fab => g.ports.getD p portReset) h

theorem State.modFab_eq_self {s : State} {f : Fab → Fab} (hf : f s.fab = s.fab) : s.modFab f = s := by
  rw [State.modFab, hf]

/-- Nothing leaves where nothing waits. -/
theorem State.drainQ_of_nil {s : State} (hq : s.fab.sendQ = []) : s.drainQ = s := by
  simp only [State.drainQ, hq, List.filter_nil, List.append_nil, List.foldl_nil]
  exact State.modFab_eq_self (by rw [← hq])

@[simp] theorem State.portRec_fab (s : State) (p sev : Nat) (shared : Bool) : (s.portRec p sev shared).fab = s.fab := State.record_fab _ _

/-! ### Credits that come back (R204) -/

section
variable {x : Port}

/-- `Port.refresh` changes the credits, what is owed, and the mark that they are still to come back. -/
theorem Port.refresh_changes (x : Port) : ∃ fr cr ow, x.refresh = { x with fresh := fr, credits := cr, owed := ow } := by
  unfold Port.refresh
  split
  · exact ⟨_, _, _, rfl⟩
  · exact ⟨_, _, _, rfl⟩

@[simp] theorem Port.refresh_state (x : Port) : x.refresh.state = x.state := by obtain ⟨fr, cr, ow, h⟩ := x.refresh_changes; rw [h]
@[simp] theorem Port.refresh_lanes (x : Port) : x.refresh.lanes = x.lanes := by obtain ⟨fr, cr, ow, h⟩ := x.refresh_changes; rw [h]
@[simp] theorem Port.refresh_txSeq (x : Port) : x.refresh.txSeq = x.txSeq := by obtain ⟨fr, cr, ow, h⟩ := x.refresh_changes; rw [h]
@[simp] theorem Port.refresh_rxSeq (x : Port) : x.refresh.rxSeq = x.rxSeq := by obtain ⟨fr, cr, ow, h⟩ := x.refresh_changes; rw [h]
@[simp] theorem Port.refresh_replay (x : Port) : x.refresh.replay = x.replay := by obtain ⟨fr, cr, ow, h⟩ := x.refresh_changes; rw [h]
@[simp] theorem Port.refresh_retryOut (x : Port) : x.refresh.retryOut = x.retryOut := by obtain ⟨fr, cr, ow, h⟩ := x.refresh_changes; rw [h]

theorem Port.refresh_of_not_fresh (h : x.fresh = false) : x.refresh = x := by
  simp only [Port.refresh, h, Bool.false_and, Bool.false_eq_true, if_false]

/-- A port that retrained gets its initial credits back once both replay buffers have drained; how it knows the peer's is the
model's choice (DESIGN CHOICE, log entry 19). -/
theorem Port.refresh_credits (hf : x.fresh = true) (hr : x.replay = []) (ho : x.retryOut = false) (ha : x.ackSent = x.rxSeq) :
    x.refresh.credits = vcBuffers := by
  simp only [Port.refresh, hf, hr, ho, ha, List.isEmpty_nil, Bool.not_false, beq_self_eq_true, Bool.and_self, if_true]

end

/-! ### Frames (R202) -/

section
variable {s : State} {p : Nat} {f : LinkFrame} (hp : p < 18) (hl : s.live = true) (hup : (s.port p).up = true)
include hp hl hup

theorem exec_linkFrameReceive_badCrc (hcrc : f.crc ≠ crc32c (frameBytes f)) :
    exec (.linkFrameReceive p f) s = .next ((s.fecCount p true).setPort p { s.port p with retryOut := true }) := by
  show execLinkFrameReceive p f s = _
  simp only [execLinkFrameReceive, Nat.not_le.2 hp, hl, hup, hcrc, ne_eq, not_false_eq_true, decide_true, Bool.or_true, Bool.not_true,
    Bool.or_self, Bool.false_eq_true, if_false, if_true]

theorem exec_linkFrameReceive_otherSeq (hd : f.data.length = 8) (hcrc : f.crc = crc32c (frameBytes f)) (hseq : f.seq.toNat ≠ (s.port p).rxSeq) :
    exec (.linkFrameReceive p f) s = .next (s.fecCount p false) := by
  show execLinkFrameReceive p f s = _
  simp only [execLinkFrameReceive, Nat.not_le.2 hp, hl, hup, hd, ← hcrc, hseq, ne_eq, not_true_eq_false, not_false_eq_true, decide_false,
    Bool.not_true, Bool.or_self, Bool.false_eq_true, if_false, if_true]

theorem exec_linkFrameReceive_accepted (hd : f.data.length = 8) (hcrc : f.crc = crc32c (frameBytes f)) (hseq : f.seq.toNat = (s.port p).rxSeq) :
    exec (.linkFrameReceive p f) s = .next ((s.fecCount p false).frameIn p f) := by
  show execLinkFrameReceive p f s = _
  simp only [execLinkFrameReceive, Nat.not_le.2 hp, hl, hup, hd, ← hcrc, hseq, ne_eq, not_true_eq_false, decide_false,
    Bool.not_true, Bool.or_self, Bool.false_eq_true, if_false]

end

/-- The credits of an accepted frame are added; a port that retrained may get its initial ones instead. -/
theorem Port.accept_credits {x : Port} (hf : x.fresh = false) (f : LinkFrame) (t : Nat) :
    (x.accept f t).credits = x.credits.set f.cvc.toNat (x.credits.getD f.cvc.toNat 0 + f.credits.toNat) := by
  show (Port.refresh _).credits = _
  rw [Port.refresh_of_not_fresh (by exact hf)]
  rfl

theorem linkFramesInOrder : Sys2Proof.Parts.LinkFramesInOrder := by
  unfold Sys2Proof.Parts.LinkFramesInOrder
  refine ⟨fun s p f hp hl hup hd => ⟨exec_linkFrameReceive_accepted hp hl hup hd, exec_linkFrameReceive_badCrc hp hl hup,
    exec_linkFrameReceive_otherSeq hp hl hup hd⟩, fun x f t => ⟨?_, ?_, ?_, ?_, fun hf => Port.accept_credits hf f t⟩⟩
  · exact Port.refresh_rxSeq _
  · exact Port.refresh_replay _
  · exact Port.refresh_retryOut _
  · exact Port.refresh_txSeq _

/-! ### Bring-up, training and the loss of lanes (R199, R200, R204) -/

/-- A port whose training ended with `w` lanes, four or two. -/
def Port.trained (x : Port) (w : Nat) : Port :=
  Port.refresh { x with
    state := if w = 4 then 2 else 3, lanes := if w = 4 then 15 else if x.lanes = 12 then 12 else 3, fresh := true, retries := 0, resetAt := none }

theorem Port.trained_state (x : Port) (w : Nat) : (x.trained w).state = if w = 4 then 2 else 3 := Port.refresh_state _

theorem exec_portBringup_first {s : State} {node id : BitVec 16} (hl : s.live = true) (hup : s.fabricUp = true) (hn : s.fab.named = false) :
    exec (.portBringup node id) s = .next (s.modFab fun g => { g with node := node.toNat, ownId := id.toNat, named := true }) := by
  show execPortBringup node id s = _
  simp only [execPortBringup, hl, hup, hn, Bool.not_true, Bool.or_self, Bool.false_eq_true, if_false]

theorem exec_portBringup_again {s : State} {node id : BitVec 16} (hn : s.fab.named = true) : exec (.portBringup node id) s = .next s := by
  show execPortBringup node id s = _
  simp only [execPortBringup, hn, Bool.or_true, if_true]

section
variable {s : State} {p : Nat} (hp : p < 18) (hl : s.live = true)
include hp hl

theorem exec_portTrainingDone_up {w : Nat} (hw : w = 4 ∨ w = 2) (hlen : s.fab.ports.length = 18) (hst : (s.port p).state = 1)
    (hq : s.fab.sendQ = []) : ∃ t, exec (.portTrainingDone p w) s = .next t ∧ t.port p = (s.port p).trained w := by
  refine ⟨(((if w = 2 then s.portRec p 0 true else s).setPort p ((s.port p).trained w)).domEnd (0x20 + p)).drainQ, ?_, ?_⟩
  · show execPortTrainingDone p w s = _
    simp only [execPortTrainingDone, Nat.not_le.2 hp, hl, hst, hw, ne_eq, not_true_eq_false, decide_false, Bool.not_true, Bool.or_self,
      Bool.false_eq_true, if_false, if_true]
    rfl
  · have hfab : (if w = 2 then s.portRec p 0 true else s).fab = s.fab := by split <;> simp
    rw [State.drainQ_of_nil (by simpa [State.domEnd, State.setPort, hfab] using hq)]
    exact State.port_setPort_self (by rw [hfab, hlen]; exact hp) _

theorem exec_portTrainingDone_down {w : Nat} (h4 : w ≠ 4) (h2 : w ≠ 2) (hst : (s.port p).state = 1) :
    exec (.portTrainingDone p w) s = .next ((s.portDown p).domEnd (0x20 + p)) := by
  show execPortTrainingDone p w s = _
  simp only [execPortTrainingDone, Nat.not_le.2 hp, hl, hst, h4, h2, ne_eq, not_true_eq_false, decide_false, Bool.not_true, Bool.or_self,
    Bool.false_eq_true, or_self, if_false]

/-- Of a port's four lanes some fall silent: a pair that still carries a signal goes on, the lower one first. -/
theorem exec_portLaneLoss {lanes : BitVec 4} (hup : (s.port p).up = true) (h15 : (s.port p).lanes = 15) (hloss : Nat.land lanes.toNat 15 ≠ 15) :
    exec (.portLaneLoss p lanes) s = .next
      (if Nat.land lanes.toNat 3 = 3 then s.portRetrain p 3 else if Nat.land lanes.toNat 12 = 12 then s.portRetrain p 12 else s.portDown p) := by
  show execPortLaneLoss p lanes s = _
  simp only [execPortLaneLoss, Nat.not_le.2 hp, hl, hup, h15, beq_eq_false_iff_ne.2 hloss, beq_iff_eq, Bool.not_true, Bool.or_self,
    Bool.false_eq_true, if_false]
  rw [apply_ite Host.Outcome.next, apply_ite Host.Outcome.next]

end

theorem portsTrainAndFail : Sys2Proof.Parts.PortsTrainAndFail := by
  unfold Sys2Proof.Parts.PortsTrainAndFail
  intro s p hp hl hlen
  refine ⟨fun node id => exec_portBringup_first hl, fun node id => exec_portBringup_again, fun hst hr ho ha hq => ?_, fun hst hq => ?_,
    fun w hst h4 h2 => exec_portTrainingDone_down hp hl h4 h2 hst, fun hup h15 => ?_⟩
  · obtain ⟨t, ht, hport⟩ := exec_portTrainingDone_up hp hl (.inl rfl) hlen hst hq
    refine ⟨t, ht, ?_⟩
    rw [hport]
    exact ⟨Port.trained_state _ _, Port.refresh_lanes _, Port.refresh_credits rfl hr ho ha⟩
  · obtain ⟨t, ht, hport⟩ := exec_portTrainingDone_up hp hl (.inr rfl) hlen hst hq
    exact ⟨t, ht, by rw [hport]; exact Port.trained_state _ _⟩
  · exact ⟨exec_portLaneLoss hp hl hup h15 (by decide), exec_portLaneLoss hp hl hup h15 (by decide), exec_portLaneLoss hp hl hup h15 (by decide)⟩

/-- Settles O35: each frame and each event of a port has its rule; a port that trains keeps its replay buffer and gets its credits back. -/
theorem linksAndPorts : Obligations.LinksAndPorts := ⟨linkFramesInOrder, portsTrainAndFail⟩

end Sys2Proof.Machine

/-! PROOFS. Compose maps that are staged and committed (07 R222, R226). -/

namespace Sys2Proof.Machine

/-- A MAP_COMMIT that fails a check: no map changes, the map staged is gone, and MAP_ACK answers ST_MAP (R222, R226). -/
def State.mapRefused (s : State) (e : W32) : State :=
  (s.count 0x4006 1).modFab fun g => { g with staging := none, mapAck := g.mapAck ++ [(e, stMap)] }

/-- The map after this one is epoch `e` of the map staged, whose bytes have the CRC `crc`, and it keeps to its rules. -/
def State.MapPasses (s : State) (m : Staging) (e crc : W32) : Prop :=
  m.epoch = e ∧ e = epSucc s.fab.map.epoch ∧ crc32c (memRead m.bytes 0 (m.idBytes + m.extBytes + m.gwBytes)) = crc ∧ s.mapOk m (mapOf m) = true

section
variable {s : State} {m : Staging} {e crc : W32}

/-- The checks of MAP_COMMIT as the model makes them. -/
theorem State.mapPasses_iff (hn : s.fab.named = true) :
    (!s.fab.named || m.epoch != e || e != epSucc s.fab.map.epoch || crc32c (memRead m.bytes 0 (m.idBytes + m.extBytes + m.gwBytes)) != crc
      || !s.mapOk m (mapOf m)) = false ↔ s.MapPasses m e crc := by
  simp only [State.MapPasses, hn, Bool.not_true, Bool.or_eq_false_iff, bne_eq_false_iff_eq, Bool.not_eq_false', true_and, and_assoc]

theorem State.locked_of_live (hl : s.live = true) : s.dev.locked = true := (Bool.and_eq_true_iff.1 hl).1

theorem exec_mapBegin {a b c : Nat} (hl : s.live = true) (hup : s.fabricUp = true) (hn : s.fab.named = true) :
    exec (.mapBegin e a b c) s = .next (s.modFab fun g => { g with staging := some ⟨e, a, b, c, []⟩ }) := by
  show execMapBegin e a b c s = _
  simp only [execMapBegin, hl, hup, hn, Bool.not_true, Bool.or_self, Bool.false_eq_true, if_false]

theorem exec_mapData {off : Nat} {data : List Byte} (hl : s.live = true) (hup : s.fabricUp = true) (hm : s.fab.staging = some m)
    (hd : data.length ≤ 4096) :
    exec (.mapData off data) s = .next (s.modFab fun g => { g with staging := some { m with bytes := memWrite m.bytes off data } }) := by
  show execMapData off data s = _
  simp only [execMapData, hl, hup, Nat.not_lt.2 hd, decide_false, Bool.not_true, Bool.or_self, Bool.false_eq_true, if_false, State.modFab, hm,
    Option.map_some]

theorem exec_mapCommit_passes (hl : s.live = true) (hup : s.fabricUp = true) (hn : s.fab.named = true) (hm : s.fab.staging = some m)
    (hp : s.MapPasses m e crc) :
    exec (.mapCommit e crc) s = .next (s.modFab fun g =>
      { g with staging := none, prevMap := g.map, map := mapOf m, mapAck := g.mapAck ++ [(e, stOk)] }).mapEffects := by
  show execMapCommit e crc s = _
  simp only [execMapCommit, State.locked_of_live hl, hup, hm, (State.mapPasses_iff hn).2 hp, Bool.not_true, Bool.or_self,
    Bool.false_eq_true, if_false]

theorem exec_mapCommit_fails (hl : s.live = true) (hup : s.fabricUp = true) (hn : s.fab.named = true) (hm : s.fab.staging = some m)
    (hp : ¬ s.MapPasses m e crc) : exec (.mapCommit e crc) s = .next (s.mapRefused e) := by
  show execMapCommit e crc s = _
  simp only [execMapCommit, State.locked_of_live hl, hup, hm, Bool.eq_true_of_not_eq_false (mt (State.mapPasses_iff hn).1 hp), Bool.not_true,
    Bool.or_self, Bool.false_eq_true, if_false, if_true]
  rfl

theorem exec_mapCommit_nothingStaged (hl : s.live = true) (hup : s.fabricUp = true) (hm : s.fab.staging = none) :
    exec (.mapCommit e crc) s = .next (s.mapRefused e) := by
  show execMapCommit e crc s = _
  simp only [execMapCommit, State.locked_of_live hl, hup, hm, Bool.not_true, Bool.or_self, Bool.false_eq_true, if_false]
  rfl

theorem exec_mapAckSend {st : Nat} {rest : List (W32 × Nat)} (hl : s.live = true) (ha : s.fab.mapAck = (e, st) :: rest)
    (hd : s.requestsDue (fun _ => true) = false) :
    exec .mapAckSend s = .next ((s.modFab fun g => { g with mapAck := rest }).send 3 1 false (.mapAck e st)) := by
  show execMapAckSend s = _
  simp only [execMapAckSend, ha, State.locked_of_live hl, hd, Bool.not_true, Bool.or_self, Bool.false_eq_true, if_false]

end

/-- Settles O36: MAP_COMMIT turns on one test of the map staged; a map that fails it, or none, leaves both maps. -/
theorem mapsAreStagedAndCommitted : Obligations.MapsAreStagedAndCommitted := by
  unfold Obligations.MapsAreStagedAndCommitted
  intro s e crc hl hup hn
  refine ⟨fun a b c => exec_mapBegin hl hup hn, fun m off data => exec_mapData hl hup,
    fun m hm hme he hcrc hok => exec_mapCommit_passes hl hup hn hm ⟨hme, he, hcrc, hok⟩, fun m hm he => ?_, fun m hm hbad => ?_, fun hm => ?_,
    fun st rest => exec_mapAckSend hl⟩
  · exact ⟨_, exec_mapCommit_fails hl hup hn hm fun ⟨_, hnext, _⟩ => he hnext, rfl, rfl, rfl, rfl⟩
  · refine ⟨_, exec_mapCommit_fails hl hup hn hm fun ⟨hme, _, hcrc, hok⟩ => ?_, rfl, rfl, rfl, rfl⟩
    rcases hbad with h | h | h
    · exact h hme
    · exact h hcrc
    · exact Bool.false_ne_true (h.symm.trans hok)
  · exact ⟨_, exec_mapCommit_nothingStaged hl hup hm, rfl, rfl, rfl⟩

end Sys2Proof.Machine

/-! PROOFS. Regions (07 R215, R216) and quarantines (12 R355). -/

namespace Sys2Proof.Machine

/-! ### Commands of a ring that are rejected, or complete later (11 R324, R325) -/

section
variable {s t u : State} {sq q r : Nat} {h : CmdHdr} {c : HostCmd} {hosts : List (Nat × Nat)} {f : State → CmdOut}

theorem State.ringCmd_rejected {st : Nat} (ha : Accepted s t sq q h c hosts) (hf : f t = .done st 0 u) :
    s.ringCmd sq h c hosts f = .next (rejected s u sq q h c st) := by
  obtain ⟨⟨hm, hq, rfl, rfl⟩, he, hh, hc, hk⟩ := ha
  rw [State.ringCmd_next, State.command_passes f hm hq he hh hc hk, hf]
  rfl

theorem State.ringCmd_later (ha : Accepted s t sq q h c hosts) (hf : f t = .later u) : s.ringCmd sq h c hosts f = .next u := by
  obtain ⟨⟨hm, hq, rfl, rfl⟩, he, hh, hc, hk⟩ := ha
  rw [State.ringCmd_next, State.command_passes f hm hq he hh hc hk, hf]
  rfl

end

/-! ### The ring an entry completes in, once the entry is taken (R324) -/

theorem State.takeEntry_step (s : State) (sq q : Nat) : SiteStep s (s.takeEntry sq q) :=
  .setQp (.ite (((SiteStep.refl s).modSite _).modSite _) (((SiteStep.refl s).modSite _).setQp _ _)) _ _

/-- A write of a pair that keeps its enable keeps that of every pair. -/
theorem State.qp_setQp_enabled {s : State} {q : Nat} {x : Qp} (hx : x.enabled = (s.qp q).enabled) (j : Nat) :
    ((s.setQp q x).qp j).enabled = (s.qp j).enabled := by
  show ((s.site.qps.set q x).getD j qpReset).enabled = _
  rw [List.getD_eq_getElem?_getD, List.getElem?_set]
  split
  next hj =>
    subst hj
    split
    · exact hx
    next hlen => rw [State.qp, List.getD_eq_getElem?_getD, List.getElem?_eq_none (Nat.not_lt.1 hlen)]
  next => rw [State.qp, List.getD_eq_getElem?_getD]

theorem State.qp_takeEntry_enabled (s : State) (sq q j : Nat) : ((s.takeEntry sq q).qp j).enabled = (s.qp j).enabled := by
  unfold State.takeEntry
  dsimp only
  rw [State.qp_setQp_enabled (by split <;> rfl)]
  split
  · rfl
  · rw [State.qp_setQp_enabled (by rfl)]
    rfl

/-- Taking an entry does not change the ring an entry completes in. -/
theorem State.target_takeEntry {s : State} {sq : Nat} {e : Entry} (hq : s.cqOk sq e = true) (q : Nat) :
    (s.takeEntry sq q).target sq e = s.target sq e := by
  have hen := s.qp_takeEntry_enabled sq q
  obtain ⟨o, g, ht⟩ := s.takeEntry_step sq q
  have hnamed : (s.takeEntry sq q).namedCq e = s.namedCq e := by rw [ht]; rfl
  have hctx : ∀ j, (s.takeEntry sq q).qctx j = s.qctx j := fun j => by rw [ht]; rfl
  have hok : (s.takeEntry sq q).cqOk sq e = true := by
    rw [← hq]
    simp only [State.cqOk, hnamed, hctx, hen]
  rw [State.target, State.target, hok, hq, hnamed]
  rfl

/-! ### The commands (R215, R216) -/

section
variable {s t : State} {sq q : Nat} {h : CmdHdr} {first : BitVec 16}

/-- A region is set: its slots keep its key as the one they last held. -/
theorem exec_regionSet {r : RegionRec} (ha : Accepted s t sq q h (.regionSet first r) []) (hok : t.regionFieldsOk h.ctx.toNat first.toNat r = true)
    (hfree : tblAny t.fab.regions (fun g x => overlaps first.toNat (regSlots r) g (regSlots x.rcd)) = false)
    (hkey : tblFind t.fab.lastKeys first.toNat ≠ some r.key) :
    exec (.regionSet sq h first r) s = .next (completed s (t.modFab fun g => { g with
      regions := tblIns g.regions first.toNat ⟨r, h.ctx.toNat, false, true⟩
      lastKeys := (span first.toNat (regSlots r)).foldl (fun l k => tblIns l k r.key) t.fab.lastKeys }) sq q h (.regionSet first r) 0) := by
  refine State.ringCmd_accepted ha ?_
  simp only [hok, hfree, beq_eq_false_iff_ne.2 hkey, Bool.not_true, Bool.or_self, Bool.false_eq_true, if_false, State.modFab]

theorem exec_regionSet_sameKey {r : RegionRec} (ha : Accepted s t sq q h (.regionSet first r) [])
    (hok : t.regionFieldsOk h.ctx.toNat first.toNat r = true) (hkey : tblFind t.fab.lastKeys first.toNat = some r.key) :
    exec (.regionSet sq h first r) s = .next (rejected s t sq q h (.regionSet first r) stRegionBusy) := by
  refine State.ringCmd_rejected ha ?_
  simp only [hok, hkey, beq_self_eq_true, Bool.or_true, Bool.not_true, Bool.false_eq_true, if_false, if_true]

theorem exec_regionClear {r : Region} (ha : Accepted s t sq q h (.regionClear first) []) (hr : tblFind t.fab.regions first.toNat = some r)
    (hctx : r.ctx = h.ctx.toNat) (hopen : r.closing = false) :
    exec (.regionClear sq h first) s = .next (t.modFab fun g => { g with
      regions := tblIns g.regions first.toNat { r with closing := true }
      closes := tblIns g.closes first.toNat ⟨sq, h.tag, q, h.ctx.toNat, t.sqHeadOf sq⟩ }) := by
  have htarget : t.target sq (.cmd h (.regionClear first)) = q := by
    obtain ⟨⟨-, hq, rfl, rfl⟩, -⟩ := ha
    exact State.target_takeEntry hq _
  refine State.ringCmd_later ha ?_
  simp only [hr, hctx, hopen, htarget, ne_eq, not_true_eq_false, Bool.false_eq_true, if_false]

theorem exec_regionClearDone {n : Nat} {r : Region} {c : RegionClose} (hl : s.live = true) (hr : tblFind s.fab.regions n = some r)
    (hc : tblFind s.fab.closes n = some c) (hd : s.requestsDue (regionCovers n r.rcd) = false) :
    exec (.regionClearDone n) s = .next ((s.modFab fun g => { g with regions := tblDel g.regions n, closes := tblDel g.closes n }).cmdDone
      c.sq c.cq c.ctx c.head c.tag 0xB1 stOk 0) := by
  show execRegionClearDone n s = _
  simp only [execRegionClearDone, hr, hc, hl, hd, Bool.not_true, Bool.or_self, Bool.false_eq_true, if_false]

theorem exec_quarantineEnd {node n till : Nat} (hl : s.live = true) (hq : tblFind s.bulk.quar (node * 65536 + n) = some till)
    (ht : till ≤ s.tick) :
    exec (.quarantineEnd node n) s = .next (s.modBulk fun g => { g with quar := tblDel g.quar (node * 65536 + n) }) := by
  show execQuarantineEnd node n s = _
  simp only [execQuarantineEnd, hq, hl, ht, decide_true, Bool.and_self, if_true]

end

/-- Settles O37: a rule for each command and event; the ring that a REGION_CLEAR keeps for its completion is the one it was taken for. -/
theorem regionsAreSetAndCleared : Obligations.RegionsAreSetAndCleared := by
  unfold Obligations.RegionsAreSetAndCleared
  intro s t sq q h first
  exact ⟨fun r ha hok hfree hkey => ⟨_, exec_regionSet ha hok hfree hkey⟩, fun r => exec_regionSet_sameKey, fun r => exec_regionClear,
    fun n r c => exec_regionClearDone, fun node n till => exec_quarantineEnd⟩

end Sys2Proof.Machine

/-! PROOFS. The checks of a line request at its target (07 R205, R217, R224). -/

namespace Sys2Proof.Machine

/-! ### The checks of a region (R217 items 4 and 5) -/

section
variable {s : State} {src sl off n first : Nat} {key : W32} {perm : Perm} {g : Region}

/-- The request names a region that is in force, whose key it gives, and stays inside it. -/
def Region.Admits (g : Region) (key : W32) (o n : Nat) : Prop :=
  g.valid = true ∧ g.closing = false ∧ o + n ≤ g.rcd.len.toNat * 4096 ∧ g.rcd.key = key

/-- A request that a quarantine or the region does not admit is answered ST_KEY, whatever permission it wants. -/
theorem State.regionCheck_key (hr : s.regionAt sl = some (first, g))
    (hbad : (tblFind s.bulk.quar (src * 65536 + first)).isSome = true ∨ ¬ g.Admits key ((sl - first) * 2 ^ 32 + off) n) :
    s.regionCheck src sl off n key perm = (s.keyReject src first g, .error stKey) := by
  have hcond : ((tblFind s.bulk.quar (src * 65536 + first)).isSome || !g.valid || g.closing
      || decide (g.rcd.len.toNat * 4096 < (sl - first) * 2 ^ 32 + off + n) || decide (g.rcd.key ≠ key)) = true := by
    by_contra hgood
    simp only [Bool.not_eq_true, Bool.or_eq_false_iff, Bool.not_eq_false', decide_eq_false_iff_not, not_lt, ne_eq, not_not] at hgood
    obtain ⟨⟨⟨⟨hquar, hvalid⟩, hopen⟩, hlen⟩, hkey⟩ := hgood
    rcases hbad with h | h
    · exact Bool.false_ne_true (hquar.symm.trans h)
    · exact h ⟨hvalid, hopen, hlen, hkey⟩
  simp only [State.regionCheck, hr, hcond, if_true]

/-- A request that the region admits is held to the region's permissions. -/
theorem State.regionCheck_admitted (hr : s.regionAt sl = some (first, g)) (hquar : tblFind s.bulk.quar (src * 65536 + first) = none)
    (ha : g.Admits key ((sl - first) * 2 ^ 32 + off) n) :
    s.regionCheck src sl off n key perm =
      if regPermits g.rcd perm then (s, .ok (g.ctx, g.rcd.tbase.toNat + ((sl - first) * 2 ^ 32 + off))) else (s, .error stRegionPerm) := by
  obtain ⟨hvalid, hopen, hlen, hkey⟩ := ha
  cases hp : regPermits g.rcd perm <;>
    simp only [State.regionCheck, hr, hquar, hvalid, hopen, hkey, hp, Nat.not_lt.2 hlen, Option.isSome_none, ne_eq, not_true_eq_false,
      decide_false, Bool.not_true, Bool.not_false, Bool.or_self, Bool.false_eq_true, if_false, if_true]

end

theorem keysGuardRegions : Sys2Proof.Parts.KeysGuardRegions := by
  unfold Sys2Proof.Parts.KeysGuardRegions
  intro s src sl off n first key perm g hr
  have hkey : ¬ g.Admits key ((sl - first) * 2 ^ 32 + off) n → (s.regionCheck src sl off n key perm).2 = .error stKey :=
    fun h => congrArg Prod.snd (State.regionCheck_key hr (.inr h))
  refine ⟨fun h => hkey fun ⟨_, _, _, hk⟩ => h hk, fun h => hkey fun ⟨_, hopen, _⟩ => Bool.false_ne_true (hopen.symm.trans h),
    fun h => hkey fun ⟨_, _, hlen, _⟩ => Nat.not_lt.2 hlen h, fun hquar hvalid hopen hk hlen => ?_⟩
  have hok := State.regionCheck_admitted (perm := perm) hr hquar ⟨hvalid, hopen, hlen, hk⟩
  exact ⟨fun hp => hok.trans (if_neg (Bool.not_eq_true _ ▸ hp)), fun hp => hok.trans (if_pos hp)⟩

/-! ### The checks in order (R217) -/

theorem op_eq_read_iff (r : LineReq) : r.op = 1 ↔ r.op.toNat = 1 := BitVec.toNat_inj.symm
theorem op_eq_write_iff (r : LineReq) : r.op = 2 ↔ r.op.toNat = 2 := BitVec.toNat_inj.symm

/-- What a request wants of the region, as the target reads it. -/
theorem linePerm_eq (r : LineReq) : (if r.op = 1 then Perm.read else if r.op = 2 then .write else .atom) = linePerm r := by
  simp only [linePerm, op_eq_read_iff, op_eq_write_iff]

section
variable {s : State} {p : Nat} {r : LineReq}

theorem State.lineIn_otherNode (hd : r.dstNode.toNat ≠ s.fab.node) : (s.lineIn p r).ses = s.ses ∧ (s.lineIn p r).fab = s.fab := by
  simp only [State.lineIn, hd, ne_eq, not_false_eq_true, if_true, State.record_ses, State.record_fab, State.count_ses, State.count_fab, and_self]

theorem State.lineIn_resting (hd : r.dstNode.toNat = s.fab.node) (hrest : s.resting = true) : s.lineIn p r = s.answer r stBusy 0 [] := by
  simp only [State.lineIn, hd, hrest, ne_eq, not_true_eq_false, if_false, if_true]

theorem State.lineIn_badForm (hd : r.dstNode.toNat = s.fab.node) (hrest : s.resting = false) (hform : lineFormOk r = false) :
    s.lineIn p r = s.answer r stLineFormat 0 [] := by
  simp only [State.lineIn, hd, hrest, hform, ne_eq, not_true_eq_false, Bool.not_false, Bool.false_eq_true, if_false, if_true]

/-- A request for a node of its own bay is no business of a gateway. -/
theorem ForThisNode.not_relayed (h : ForThisNode s r) : (s.gateway && (s.ownerOf r.addr.toNat).any fun o => o.1 / 4096 != s.bay) = false := by
  obtain ⟨-, -, -, hgw⟩ := h
  rw [Bool.and_eq_false_imp]
  intro hg
  cases ho : s.ownerOf r.addr.toNat with
  | none => rfl
  | some o => exact bne_eq_false_iff_eq.2 (hgw hg o ho)

/-- A request for this node goes to the checks of the epoch and of the region. -/
theorem State.lineIn_epochFails {st : Nat} (h : ForThisNode s r) (he : s.epochCheck r.epoch r.addr.toNat (r.op != 1) = .error st) :
    s.lineIn p r = s.answer r st 0 [] := by
  have hgw := h.not_relayed
  obtain ⟨hd, hrest, hform, -⟩ := h
  simp only [State.lineIn, hd, hrest, hform, hgw, he, ne_eq, not_true_eq_false, Bool.not_true, Bool.false_eq_true, if_false]

section
variable {sl ctx ca : Nat} {t : State} (h : ForThisNode s r) (he : s.epochCheck r.epoch r.addr.toNat (r.op != 1) = .ok sl)
include h he

theorem State.lineIn_regionFails {st : Nat}
    (hr : s.regionCheck r.srcNode.toNat sl (hallOff r.addr.toNat) (reqSize r) r.key (linePerm r) = (t, .error st)) :
    s.lineIn p r = t.answer r st 0 [] := by
  have hgw := h.not_relayed
  obtain ⟨hd, hrest, hform, -⟩ := h
  simp only [State.lineIn, hd, hrest, hform, hgw, he, linePerm_eq, hr, ne_eq, not_true_eq_false, Bool.not_true, Bool.false_eq_true, if_false]

/-- A request that passes is performed, unless it writes and the cut of a checkpoint has frames of it still to copy (13 R376). -/
theorem State.lineIn_passes
    (hr : s.regionCheck r.srcNode.toNat sl (hallOff r.addr.toNat) (reqSize r) r.key (linePerm r) = (t, .ok (ctx, ca))) :
    s.lineIn p r = if r.op.toNat = 1 ∨ t.uncopied ctx ca (reqSize r) = [] then t.performLine r ctx ca
      else (t.cbwHold (t.uncopied ctx ca (reqSize r))).modFab fun g => { g with inQ := g.inQ ++ [⟨p, r, some (ctx, ca, sl)⟩] } := by
  have hgw := h.not_relayed
  obtain ⟨hd, hrest, hform, -⟩ := h
  simp only [State.lineIn, hd, hrest, hform, hgw, he, linePerm_eq, hr, ne_eq, not_true_eq_false, Bool.not_true, Bool.false_eq_true, if_false]
  by_cases hop : r.op.toNat = 1
  · simp only [op_eq_read_iff, hop, if_true, true_or, List.isEmpty_nil]
  · simp only [op_eq_read_iff, hop, if_false, false_or, List.isEmpty_iff]

end

/-! ### Requests taken from their buffers (R205) -/

theorem exec_lineRequestReceive_taken (ha : s.answering = true) (hup : (s.port p).up = true) (hb : s.inBehind p r = false)
    (hs : s.rspSlot r = true) : exec (.lineRequestReceive p r) s = .next ((s.takeFlits p (reqVc r) (reqFlits r)).lineIn p r) := by
  show execLineRequestReceive p r s = _
  simp only [execLineRequestReceive, ha, hup, hb, hs, Bool.not_true, Bool.or_self, Bool.false_eq_true, if_false]

theorem exec_lineRequestReceive_waits (ha : s.answering = true) (hup : (s.port p).up = true) (hw : s.inBehind p r = true ∨ s.rspSlot r = false) :
    exec (.lineRequestReceive p r) s = .next (s.modFab fun g => { g with inQ := g.inQ ++ [⟨p, r, none⟩] }) := by
  have hwait : (s.inBehind p r || !s.rspSlot r) = true := by rw [Bool.or_eq_true, Bool.not_eq_true']; exact hw
  show execLineRequestReceive p r s = _
  simp only [execLineRequestReceive, ha, hup, hwait, Bool.not_true, Bool.or_self, Bool.false_eq_true, if_false, if_true]

end

theorem lineRequestsAreCheckedInOrder : Sys2Proof.Parts.LineRequestsAreCheckedInOrder := by
  unfold Sys2Proof.Parts.LineRequestsAreCheckedInOrder
  refine ⟨fun s p r ha hup => ⟨exec_lineRequestReceive_taken ha hup, exec_lineRequestReceive_waits ha hup⟩, fun s p r =>
    ⟨State.lineIn_otherNode, State.lineIn_resting, State.lineIn_badForm, fun st => State.lineIn_epochFails,
      fun sl t st h he => State.lineIn_regionFails h he, fun sl t ctx ca h he hr => ?_⟩⟩
  have hin := State.lineIn_passes (p := p) h he hr
  exact ⟨fun hgo => hin.trans (if_pos hgo), fun hop hcut => hin.trans (if_neg (not_or.2 ⟨hop, hcut⟩))⟩

/-- Settles O38: one lemma per check of `State.lineIn`, and two about the checks of a region. -/
theorem lineRequestsAreChecked : Obligations.LineRequestsAreChecked := ⟨lineRequestsAreCheckedInOrder, keysGuardRegions⟩

end Sys2Proof.Machine

/-! PROOFS. What a line operation does to memory (07 R208, R220; 12 R342). -/

namespace Sys2Proof.Machine

/-! ### Context memory after a write -/

theorem State.cwrite_step (s : State) (ctx a : Nat) (bs : List Byte) :
    LogStep (s.modSes fun g => { g with cmem := memWrite g.cmem (ckey ctx a) bs }) (s.cwrite ctx a bs) := State.cleanLines_step _ _ _ _

theorem LogStep.sec_eq {s t : State} (h : LogStep s t) : t.sec = s.sec := by obtain ⟨o, g, m, e, rfl⟩ := h; rfl

theorem State.cwrite_cmem (s : State) (ctx a : Nat) (bs : List Byte) : (s.cwrite ctx a bs).ses.cmem = memWrite s.ses.cmem (ckey ctx a) bs :=
  congrArg Ses.cmem (s.cwrite_step ctx a bs).ses_eq

theorem State.memKey_cwrite (s : State) (ctx a c : Nat) (bs : List Byte) : (s.cwrite ctx a bs).memKey c = s.memKey c :=
  congrArg (fun g : Sec => (tblFind g.ctx c).map CtxSec.memKey) (s.cwrite_step ctx a bs).sec_eq

theorem State.cread_cwrite {s : State} (hw : memWf s.ses.cmem = true) (ctx a : Nat) (bs : List Byte) :
    (s.cwrite ctx a bs).cread ctx a bs.length = bs := by
  rw [State.cread, State.cwrite_cmem, memRead_memWrite hw]

theorem State.memGet_cwrite_outside (s : State) (ctx a b : Nat) (bs : List Byte) (h : b < ckey ctx a ∨ ckey ctx a + bs.length ≤ b) :
    memGet (s.cwrite ctx a bs).ses.cmem b = memGet s.ses.cmem b := by
  rw [State.cwrite_cmem, memGet_memWrite_outside _ _ _ _ h]

/-- A whole line written is what the stacks hold, under the context's key and the number of the line (log entries 11, 64). -/
theorem State.rawCtxLine_cwrite {s : State} {ctx a k : Nat} {bs : List Byte} (hw : memWf s.ses.cmem = true) (hlen : bs.length = 64)
    (ha : a % 64 = 0) (hk : s.memKey ctx = some k) : (s.cwrite ctx a bs).rawCtxLine ctx a = some (rawBytes k (ctxLine (ckey ctx a)) bs) := by
  rw [State.rawCtxLine, State.memKey_cwrite, hk, Nat.div_mul_cancel (Nat.dvd_of_mod_eq_zero ha), ← hlen, State.cread_cwrite hw, Option.map_some]

/-! ### Atomics on eight bytes (R220) -/

theorem leNat_lt (bs : List Byte) : leNat bs < 256 ^ bs.length := by
  induction bs with
  | nil => exact Nat.one_pos
  | cons b bs ih =>
    have hb := b.isLt
    rw [leNat, List.length_cons, Nat.pow_succ]
    omega

theorem State.cnum_lt (s : State) (ctx a n : Nat) : s.cnum ctx a n < 256 ^ n := by
  have h := leNat_lt (s.cread ctx a n)
  rwa [State.cread, memRead_length] at h

/-- What an atomic makes of two words is a word. -/
theorem lineMerge_lt (op : Nat) {x y : Nat} (hx : x < 2 ^ 64) (hy : y < 2 ^ 64) : lineMerge op x y < 2 ^ 64 := by
  unfold lineMerge
  split
  · exact Nat.mod_lt _ (Nat.two_pow_pos 64)
  · exact Nat.or_lt_two_pow hx hy
  · exact lt_of_le_of_lt (min_le_left x y) hx
  · exact max_lt hx hy
  · split
    · exact Nat.two_pow_pos 64
    · exact hx

theorem State.cnum_cwrite {s : State} (hw : memWf s.ses.cmem = true) (ctx a : Nat) {v : Nat} (hv : v < 2 ^ 64) :
    (s.cwrite ctx a (leBytes 8 v)).cnum ctx a 8 = v := by
  have hread := State.cread_cwrite hw ctx a (leBytes 8 v)
  rw [leBytes_length] at hread
  rw [State.cnum, hread, leNat_leBytes]
  exact Nat.mod_eq_of_lt hv

/-! ### The operations (R208, R220) -/

section
variable {s : State} {r : LineReq} {ctx a : Nat}

theorem State.performLine_read (hop : r.op.toNat = 1) (hbad : s.cbad ctx a 64 = none) :
    s.performLine r ctx a = s.answer r stOk 0 (s.cread ctx a 64) := by
  simp only [State.performLine, hop, Nat.reduceEqDiff, if_false, if_true, hbad]

theorem State.performLine_write (hop : r.op.toNat = 2) (hmask : r.operand.toNat = 2 ^ 64 - 1) :
    s.performLine r ctx a = (s.cwrite ctx a r.payload).answer r stOk 0 [] := by
  simp only [State.performLine, hop, hmask, if_true, State.maskWrite]

/-- The word that an atomic without compare leaves in memory. -/
def State.merged (s : State) (r : LineReq) (ctx a : Nat) : Nat := lineMerge r.op.toNat (s.cnum ctx a 8) r.operand.toNat

/-- An atomic stores its word and answers the old one; one that was combined is counted as well. -/
theorem State.performLine_atomic (hlo : 0x10 ≤ r.op.toNat) (hhi : r.op.toNat ≤ 0x13) (hbad : s.cbad ctx a 8 = none) :
    ∃ t : State, s.performLine r ctx a = t.answer r stOk (s.cnum ctx a 8) [] ∧ t.ses = (s.cwrite ctx a (leBytes 8 (s.merged r ctx a))).ses := by
  have h1 : r.op.toNat ≠ 1 := by omega
  have h2 : r.op.toNat ≠ 2 := by omega
  have hcas : r.op.toNat ≠ 0x14 := by omega
  refine ⟨if r.cmb then (s.cwrite ctx a (leBytes 8 (s.merged r ctx a))).count 0x4008 3 else s.cwrite ctx a (leBytes 8 (s.merged r ctx a)), ?_, ?_⟩
  · simp only [State.performLine, h1, h2, hcas, if_false, hbad, State.merged]
  · split <;> rfl

end

/-- Settles O39: each operation is a read or a write of context memory, whose rules say what is read after it. -/
theorem lineOperationsOnMemory : Obligations.LineOperationsOnMemory := by
  unfold Obligations.LineOperationsOnMemory
  intro s r ctx a _ _ hw
  refine ⟨State.performLine_read, fun hop hmask hlen => ?_, fun hlo hhi hbad => ?_⟩
  · refine ⟨_, State.performLine_write hop hmask, ?_, fun b hb => ?_, fun k ha hk => State.rawCtxLine_cwrite hw hlen ha hk⟩
    · rw [← hlen, State.cread_cwrite hw]
    · exact State.memGet_cwrite_outside _ _ _ _ _ (hlen ▸ hb)
  · obtain ⟨t, ht, hses⟩ := State.performLine_atomic hlo hhi hbad
    refine ⟨t, ht, ?_, fun b hb => ?_⟩
    · rw [State.cnum, State.cread, hses]
      exact State.cnum_cwrite hw ctx a (lineMerge_lt _ (s.cnum_lt ctx a 8) r.operand.isLt)
    · rw [hses, State.memGet_cwrite_outside _ _ _ _ _ (by rw [leBytes_length]; exact hb)]

end Sys2Proof.Machine

/-! PROOFS. Line transactions at their source: requests that leave, responses, waits and timeouts (07 R209, R210, R218, R225; 08 R256). -/

namespace Sys2Proof.Machine

/-! ### Requests that leave (R209, R218) -/

section
variable {s t : State} {n : Nat} {x : Txn} {l : LineSent} (hl : s.live = true) (hx : s.txn n = some x) (hready : s.lineReady x = true)
include hl hx hready

/-- A request that ST_MOVED sent back goes first. -/
theorem exec_lineRequestSend_again (hh : x.head = some (l, true))
    (ht : s.lineTx n { x with again := x.again.erase l } l true true true = some t) : exec (.lineRequestSend n) s = .next t := by
  show execLineRequestSend n s = _
  simp only [execLineRequestSend, hx, hl, hready, hh, ht, Option.getD_some, Bool.not_true, Bool.or_self, Bool.false_eq_true, if_false]

theorem exec_lineRequestSend_alone (hh : x.head = some (l, false)) (hone : (s.combine n x l.item).length = 1) (hparts : l.parts = [])
    (ht : s.lineTx n { x with todo := x.todo.erase l.item } l false true false = some t) : exec (.lineRequestSend n) s = .next t := by
  show execLineRequestSend n s = _
  simp only [execLineRequestSend, hx, hl, hready, hh, hone, hparts, List.isEmpty_nil, ht, Option.getD_some, Bool.not_true, Bool.or_self,
    Bool.false_eq_true, if_false, if_true]

/-- Requests for one line travel together: the request counts as one of those that do, and the others are lent to it. -/
theorem exec_lineRequestSend_combined {p : Nat × LineItem} {ps : List (Nat × LineItem)} (hh : x.head = some (l, false))
    (hparts : s.combine n x l.item = p :: ps) (hmore : ps ≠ [])
    (ht : s.lineTx n { x with todo := x.todo.erase l.item, shared := x.shared ++ [l.item] } { l with parts := p :: ps } false true false = some t) :
    exec (.lineRequestSend n) s = .next t := by
  have hlen : (p :: ps).length ≠ 1 := fun h => hmore (List.eq_nil_of_length_eq_zero (Nat.succ.inj h))
  show execLineRequestSend n s = _
  simp only [execLineRequestSend, hx, hl, hready, hh, hparts, hlen, List.isEmpty_cons, ht, Option.getD_some, Bool.not_true, Bool.or_self,
    Bool.false_eq_true, if_false]

end

theorem lineRequestsAreSent : Sys2Proof.Parts.LineRequestsAreSent := by
  unfold Sys2Proof.Parts.LineRequestsAreSent
  intro s t n x hl hx hready
  exact ⟨fun l => exec_lineRequestSend_again hl hx hready, fun l => exec_lineRequestSend_alone hl hx hready,
    fun l p ps => exec_lineRequestSend_combined hl hx hready⟩

/-! ### Responses (R210, R225) -/

/-- Transaction `x` with the request `l` answered: it is no longer outstanding. -/
def Txn.answered (x : Txn) (l : LineSent) : Txn := { x with sent := x.sent.erase l, epoch := none }

/-- The state once a response has left its receive buffer. -/
def State.rspTaken (s : State) (p : Nat) (r : LineRsp) : State := s.takeFlits p 1 (if r.payload.isEmpty then 1 else 3)

/-- The model's own form of it. -/
theorem State.takeFlits_eq_rspTaken (s : State) (p : Nat) (r : LineRsp) :
    s.takeFlits p 1 (if r.payload.isEmpty then 1 else 3) = s.rspTaken p r := rfl

theorem State.txn_rspTaken (s : State) (p : Nat) (r : LineRsp) (n : Nat) : (s.rspTaken p r).txn n = s.txn n := rfl
theorem State.node_rspTaken (s : State) (p : Nat) (r : LineRsp) : (s.rspTaken p r).fab.node = s.fab.node := rfl

/-- Response `r` at port `p` answers request `l` of transaction `n`: of several WRITE64s the first outstanding (DESIGN CHOICE, log entry 19). -/
structure Answers (s : State) (p n : Nat) (x : Txn) (r : LineRsp) (l : LineSent) : Prop where
  live : s.live = true
  txn : s.txn n = some x
  up : (s.port p).up = true
  num : r.txn.toNat = n
  node : r.dstNode.toNat = s.fab.node
  op : r.op.toNat = x.op
  sent : (x.sent.find? fun l => x.op != 1 || l.item.line == r.line.toNat) = some l

section
variable {s : State} {p n : Nat} {x : Txn} {r : LineRsp} {l : LineSent} (h : Answers s p n x r l)
include h

/-- The answer ends the request, or makes it go again or wait, by its status. -/
theorem exec_lineResponseReceive :
    exec (.lineResponseReceive p r) s = .next (
      if r.status.toNat = stMoved then
        (s.rspTaken p r).lineAgain n (x.answered l) { l with wait := .none, hint := some (r.epoch, r.hintNode.toNat) }
      else if r.status.toNat = stEpochWait then
        (s.rspTaken p r).lineAgain n (x.answered l) { l with wait := .epoch (s.tick + s.obj 0x4007 1 * ticksPerUs), hint := none }
      else if r.status.toNat = stBusy then
        (s.rspTaken p r).lineAgain n (x.answered l) { l with wait := .gateway (s.tick + s.obj 0x4205 4 * ticksPerUs) }
      else ((s.rspTaken p r).setTxn n (x.answered l)).sentDone n x.op l r.status.toNat r.value.toNat r.payload) := by
  obtain ⟨hl, hx, hup, rfl, hnode, hop, hsent⟩ := h
  show execLineResponseReceive p r s = _
  simp only [execLineResponseReceive, hl, hup, State.takeFlits_eq_rspTaken, State.txn_rspTaken, hx, State.node_rspTaken, hnode,
    hop, hsent, ne_eq, not_true_eq_false, decide_false, Bool.not_true, Bool.or_self, Bool.false_eq_true, if_false]
  rw [apply_ite Host.Outcome.next, apply_ite Host.Outcome.next, apply_ite Host.Outcome.next]
  rfl

end

/-- A request that is to wait is kept with those to be replayed. -/
theorem State.lineAgain_waits (s : State) (n : Nat) (x : Txn) {l : LineSent} (hw : l.wait ≠ .none) :
    s.lineAgain n x l = s.setTxn n { x with again := x.again ++ [l] } := by
  simp only [State.lineAgain, hw, if_false]

/-! ### Timeouts and waits that run out (R210, R225; 08 R256) -/

section
variable {s t : State} {n : Nat} {x : Txn} (hl : s.live = true) (hx : s.txn n = some x)
include hl hx

/-- The late answers to what is outstanding when a transaction times out are still due under its number. -/
theorem exec_lineTimeout {d : Nat} (hd : x.deadline = some d) (hpast : s.past d = true) :
    exec (.lineTimeout n) s = .next (
      (if x.sent = [] then s else s.modFab fun g => { g with spent := tblIns g.spent n x.sent.length }).txnEnd n x stTimeout 0 []) := by
  show execLineTimeout n s = _
  simp only [execLineTimeout, hx, hl, hd, Option.any_some, hpast, Bool.and_self, if_true, List.isEmpty_iff]

/-- The one request that waits goes again once its wait is over. -/
theorem State.replayDue_one {l : LineSent} {due : LineWait → Bool} {counts : Bool} (ha : x.again = [l]) (hdue : due l.wait = true)
    (ht : s.lineTx n { x with again := [] } l true false counts = some t) : s.replayDue n due counts = t := by
  have hfind : (x.again.find? fun l => due l.wait) = some l := by rw [ha]; exact List.find?_cons_of_pos hdue
  have herase : x.again.erase l = [] := by rw [ha, List.erase_cons_head]
  simp only [State.replayDue, hx, hfind, herase, hl, ht, Option.getD_some, Bool.not_true, Bool.false_eq_true, if_false]

theorem exec_epochWaitReplay {l : LineSent} {till : Nat} (ha : x.again = [l]) (hw : l.wait = .epoch till) (hpast : s.past till = true)
    (ht : s.lineTx n { x with again := [] } l true false true = some t) : exec (.epochWaitReplay n) s = .next t :=
  congrArg Host.Outcome.next (State.replayDue_one hl hx ha (by rw [hw]; exact hpast) ht)

theorem exec_gatewayBusyReplay {l : LineSent} {till : Nat} (ha : x.again = [l]) (hw : l.wait = .gateway till) (hpast : s.past till = true)
    (ht : s.lineTx n { x with again := [] } l true false false = some t) : exec (.gatewayBusyReplay n) s = .next t :=
  congrArg Host.Outcome.next (State.replayDue_one hl hx ha (by rw [hw]; exact hpast) ht)

end

theorem lineResponsesAndReplays : Sys2Proof.Parts.LineResponsesAndReplays := by
  unfold Sys2Proof.Parts.LineResponsesAndReplays
  intro s p n x hl hx
  refine ⟨fun r l hup hn hnode hop hsent => ?_, fun d hd hpast => ?_, fun l till t => exec_epochWaitReplay hl hx,
    fun l till t => exec_gatewayBusyReplay hl hx⟩
  · have hrsp := exec_lineResponseReceive ⟨hl, hx, hup, hn, hnode, hop, hsent⟩
    refine ⟨fun hst => ?_, fun hst => hrsp.trans (congrArg _ (if_pos hst)), fun hst => ?_⟩
    · rw [hst, if_neg (by decide), if_neg (by decide), if_neg (by decide)] at hrsp
      exact hrsp
    · rw [hst, if_neg (by decide), if_pos rfl, State.lineAgain_waits _ _ _ (by exact nofun)] at hrsp
      exact hrsp
  · have hto := exec_lineTimeout hl hx hd hpast
    exact ⟨fun hs => by rwa [if_pos hs] at hto, fun hs => by rwa [if_neg hs] at hto⟩

/-- Settles O40: a request that leaves is the head of its transaction, a response acts by its status, and a wait that is over replays. -/
theorem lineTransactions : Obligations.LineTransactions := ⟨lineRequestsAreSent, lineResponsesAndReplays⟩

end Sys2Proof.Machine

/-! PROOFS. What leaves for another node (08 R235, R247, R254, R255): a record message that closes, and the order in which the packets of a
flow go out. -/

namespace Sys2Proof.Machine

/-! ### Record messages (R255) -/

/-- A bay's requests and its answers have a record message each; here the one of the requests is due and there is none of answers. -/
theorem exec_gwBatchClose {s : State} {far : Nat} {b : Batch} (hl : s.live = true) (hb : tblFind s.fab.batches (2 * far) = some b)
    (hdue : s.obj 0x4205 3 * 5 ≤ (s.tick - b.first) * 8) (hnone : tblFind s.fab.batches (2 * far + 1) = none) :
    exec (.gwBatchClose far) s = .next (s.gwClose (2 * far)) := by
  show execGwBatchClose far s = _
  simp only [execGwBatchClose, hl, hb, hdue, hnone, decide_true, Bool.not_true, Bool.false_eq_true, if_false, if_true]

/-! ### The next packet of a flow (R235, R247, R254) -/

theorem State.pullFlow_of_nil {s : State} (hq : s.bulk.noFlow = []) (n : Nat) : s.pullFlow n = s := by
  simp only [State.pullFlow, hq, List.filter_nil, List.isEmpty_nil, if_true]

section
variable {s t : State} {n k : Nat} {f : Flow} (hl : s.live = true) (hq : s.bulk.noFlow = []) (hf : s.flow n = some f)
include hl hq hf

theorem exec_bulkPacketSend_noRoute (hw : f.waiting ≠ []) (hhop : s.hop n 0 = none) :
    exec (.bulkPacketSend n) s = .next (s.endWaiting n stNoRoute) := by
  have hwait : f.waiting.isEmpty = false := List.isEmpty_eq_false_iff.2 hw
  show execBulkPacketSend n s = _
  simp only [execBulkPacketSend, State.pullFlow_of_nil hq, hf, hl, hwait, hhop, Option.isNone_none, Bool.and_false, Bool.and_self,
    Bool.not_true, Bool.not_false, Bool.false_eq_true, if_false, if_true]

section
variable (hway : (s.hop n 0).isNone = false)
include hway

theorem exec_bulkPacketSend_noKey (hw : f.waiting ≠ []) (hkey : s.txKey n f = none) : exec (.bulkPacketSend n) s = .next (s.hello n) := by
  have hwait : f.waiting.isEmpty = false := List.isEmpty_eq_false_iff.2 hw
  show execBulkPacketSend n s = _
  simp only [execBulkPacketSend, State.pullFlow_of_nil hq, hf, hl, hwait, hway, hkey, Option.isNone_none, Bool.and_false, Bool.false_and,
    Bool.not_true, Bool.false_eq_true, if_false, if_true]

variable (hkey : s.txKey n f = some k)
include hkey

theorem exec_bulkPacketSend_again {a : Nat × Nat} (ha : s.dueAgain f = some a) (ht : s.resend n a.1 a.2 = some t) :
    exec (.bulkPacketSend n) s = .next t := by
  show execBulkPacketSend n s = _
  simp only [execBulkPacketSend, State.pullFlow_of_nil hq, hf, hl, hway, hkey, ha, ht, Option.isNone_some, Option.bind_some, Bool.false_and,
    Bool.not_true, Bool.false_eq_true, if_false]

/-- The rest of an open message goes out where the window has room for its next packet. -/
theorem exec_bulkPacketSend_open {e : Nat × BulkMsg} (ha : s.dueAgain f = none) (he : s.openMsg f = some e)
    (hroom : f.inflight + e.2.counted e.2.next ≤ f.win) (ht : s.bulkTx n e.1 e.2.next f e.2 = some t) :
    exec (.bulkPacketSend n) s = .next t := by
  show execBulkPacketSend n s = _
  simp only [execBulkPacketSend, State.pullFlow_of_nil hq, hf, hl, hway, hkey, ha, he, hroom, ht, Option.isNone_some, Option.isNone_none,
    Option.bind_some, Option.bind_none, Bool.and_false, Bool.false_and, Bool.not_true, Bool.false_eq_true, if_false, if_true]

theorem exec_bulkPacketSend_new (ha : s.dueAgain f = none) (he : s.openMsg f = none) (hw : f.waiting ≠ []) (ht : s.startMsg n f = some t) :
    exec (.bulkPacketSend n) s = .next t := by
  have hwait : f.waiting.isEmpty = false := List.isEmpty_eq_false_iff.2 hw
  show execBulkPacketSend n s = _
  simp only [execBulkPacketSend, State.pullFlow_of_nil hq, hf, hl, hwait, hway, hkey, ha, he, ht, Option.isNone_some, Option.isSome_none,
    Option.bind_none, Option.getD_some, Bool.and_false, Bool.false_and, Bool.not_true, Bool.false_eq_true, if_false]

end
end

theorem gatewayBatchesClose : Sys2Proof.Parts.GatewayBatchesClose := by
  unfold Sys2Proof.Parts.GatewayBatchesClose
  exact fun s far b => exec_gwBatchClose

theorem bulkPacketsLeaveInOrder : Sys2Proof.Parts.BulkPacketsLeaveInOrder := by
  unfold Sys2Proof.Parts.BulkPacketsLeaveInOrder
  intro s t n f hl hq hf
  refine ⟨exec_bulkPacketSend_noRoute hl hq hf, fun hhop => ?_⟩
  have hway : (s.hop n 0).isNone = false := Option.isNone_eq_false_iff.2 hhop
  exact ⟨exec_bulkPacketSend_noKey hl hq hf hway, fun k a hkey => exec_bulkPacketSend_again hl hq hf hway hkey,
    fun k e hkey => exec_bulkPacketSend_open hl hq hf hway hkey, fun k hkey => exec_bulkPacketSend_new hl hq hf hway hkey⟩

/-- Settles O41: a record message closes when it is due, and one rule for each thing that a flow may have to send, in their order. -/
theorem bulkSending : Obligations.BulkSending := ⟨gatewayBatchesClose, bulkPacketsLeaveInOrder⟩

end Sys2Proof.Machine

/-! PROOFS. Answers at the sender, FLUSH and PLACED, and the horizons of the bulk transport (08 R242, R246, R247, R250, R251). -/

namespace Sys2Proof.Machine

/-! ### Answers (R246, R250) -/

/-- Answer `a` comes to port `p` of the device that it is for: a gateway has not to pass it on (R254). -/
structure AnswerHere (s : State) (p : Nat) (a : BulkAns) : Prop where
  live : s.live = true
  up : (s.port p).up = true
  hop : a.dstNode.toNat = s.fab.node
  final : s.gateway = false ∨ a.finalNode.toNat = s.fab.node

theorem State.relayAns_eq_none {s : State} {a : BulkAns} (h : s.gateway = false ∨ a.finalNode.toNat = s.fab.node) : s.relayAns a = none := by
  have hcond : (!s.gateway || decide (a.finalNode.toNat = s.fab.node)) = true := by
    rwa [Bool.or_eq_true, Bool.not_eq_true', decide_eq_true_iff]
  exact if_pos hcond

@[simp] theorem State.node_takeFlits (s : State) (p vc n : Nat) : (s.takeFlits p vc n).fab.node = s.fab.node := rfl
@[simp] theorem State.dev_takeFlits (s : State) (p vc n : Nat) : (s.takeFlits p vc n).dev = s.dev := rfl
@[simp] theorem State.flow_takeFlits (s : State) (p vc n node : Nat) : (s.takeFlits p vc n).flow node = s.flow node := rfl
@[simp] theorem State.ansOk_takeFlits (s : State) (p vc n node x : Nat) (a : BulkAns) :
    (s.takeFlits p vc n).ansOk node x a = s.ansOk node x a := rfl

theorem AnswerHere.not_relayed {s : State} {p : Nat} {a : BulkAns} (h : AnswerHere s p a) : (s.takeFlits p 1 3).relayAns a = none :=
  State.relayAns_eq_none h.final

section
variable {s : State} {p : Nat} {a : BulkAns} {f : Flow} (h : AnswerHere s p a)
include h

theorem exec_bulkAckReceive_noFlow (hf : s.flow a.srcNode.toNat = none) :
    exec (.bulkAckReceive p a) s = .next ((s.takeFlits p 1 3).count 0x4008 5) := by
  show execBulkAckReceive p a s = _
  simp only [execBulkAckReceive, h.live, h.up, State.node_takeFlits, h.hop, h.not_relayed, State.flow_takeFlits, hf,
    State.lateAnswer, ne_eq, not_true_eq_false, Bool.not_true, Bool.or_self, Bool.false_eq_true, if_false]

variable (hf : s.flow a.srcNode.toNat = some f) (hver : a.hver.toNat = 1)
include hf hver

/-- An ACK that verifies is acted on if its packet is outstanding. -/
theorem exec_bulkAckReceive_matches {m : BulkMsg} {k : PktSt} {x : Nat} (htyp : a.typ.toNat = 8)
    (hboot : a.msgId.toNat / 2 ^ 48 = s.dev.bootEpoch) (hm : tblFind f.msgs (a.msgId.toNat % 2 ^ 48) = some m)
    (hk : tblFind m.pkts a.offset.toNat = some k) (hx : answered k.tx a = some x) (hok : s.ansOk a.srcNode.toNat x a = true)
    (hout : k.acked = false) :
    exec (.bulkAckReceive p a) s
      = .next ((s.takeFlits p 1 3).ackIn a.srcNode.toNat (a.msgId.toNat % 2 ^ 48) a.offset.toNat f m k a) := by
  have htyp8 : a.typ = 8 := BitVec.eq_of_toNat_eq htyp
  have hver1 : a.hver = 1 := BitVec.eq_of_toNat_eq hver
  show execBulkAckReceive p a s = _
  simp only [execBulkAckReceive, h.live, h.up, State.node_takeFlits, h.hop, h.not_relayed, State.flow_takeFlits, hf,
    State.dev_takeFlits, htyp8, hver1, hboot, hm, hk, hx, State.ansOk_takeFlits, hok, hout, Option.bind_some, Option.map_some, ne_eq,
    not_true_eq_false, or_self, Bool.not_true, Bool.or_self, Bool.false_eq_true, if_false]

/-- A PLACED that verifies ends the FLUSH, and places what waits for it. -/
theorem exec_bulkPlacedReceive_matches {l : FlushOut} {x : Nat} (hl : f.flush = some l) (htyp : a.typ.toNat = 9)
    (hid : a.msgId.toNat = l.upto + s.dev.bootEpoch * 2 ^ 48) (hx : answered l.tx a = some x) (hok : s.ansOk a.srcNode.toNat x a = true) :
    exec (.bulkPlacedReceive p a) s
      = .next (l.waits.foldl (fun v w => v.msgPlaced w) ((s.takeFlits p 1 3).flushEnd a.srcNode.toNat f l)) := by
  have htyp9 : a.typ = 9 := BitVec.eq_of_toNat_eq htyp
  have hver1 : a.hver = 1 := BitVec.eq_of_toNat_eq hver
  show execBulkPlacedReceive p a s = _
  simp only [execBulkPlacedReceive, h.live, h.up, State.node_takeFlits, h.hop, h.not_relayed, State.flow_takeFlits,
    hf, hl, State.dev_takeFlits, htyp9, hver1, hid, hx, State.ansOk_takeFlits, hok, Option.bind_some, Option.map_some, ne_eq,
    not_true_eq_false, or_self, Bool.not_true, Bool.or_self, Bool.false_eq_true, if_false]

end

theorem acknowledgmentsMatchPackets : Sys2Proof.Parts.AcknowledgmentsMatchPackets := by
  unfold Sys2Proof.Parts.AcknowledgmentsMatchPackets
  intro s p a hl hup hhop hfin
  have h : AnswerHere s p a := ⟨hl, hup, hhop, hfin⟩
  exact ⟨fun f m k x hf htyp hver => exec_bulkAckReceive_matches h hf hver htyp, exec_bulkAckReceive_noFlow h,
    fun f l x hf hfl htyp hver => exec_bulkPlacedReceive_matches h hf hver hfl htyp⟩

/-! ### FLUSH and PLACED (R250) -/

section
variable {s : State} {n k : Nat} {f : Flow} (hl : s.live = true) (hf : s.flow n = some f)
include hl hf

theorem exec_flushSend {l : FlushOut} (hfl : f.flush = some l) (htx : l.tx = []) (hleft : l.upto ≤ f.floor) (hroom : f.inflight + 64 ≤ f.win)
    (hkey : s.txKey n f = some k) : exec (.flushSend n) s = .next (s.flushTx n) := by
  show execFlushSend n s = _
  simp only [execFlushSend, hf, hfl, hl, htx, hkey, Nat.not_lt.2 hleft, Nat.not_lt.2 hroom, List.isEmpty_nil, Option.isNone_some, decide_false,
    Bool.not_true, Bool.or_self, Bool.false_and, Bool.false_eq_true, if_false]

/-- No packet of the flow waits for a cut. -/
theorem exec_placedSend {l : FlushIn} (hheld : ∀ h ∈ s.bulk.held, h.pkt.srcNode.toNat ≠ n)
    (hfl : f.pendFlush.find? (fun l => decide (l.upto ≤ f.lw)) = some l) (hkey : keyFor (s.fkeys n).rx (s.fkeys n).rxPrev l.xmit = some k) :
    exec (.placedSend n) s = .next ((s.setFlow n { f with pendFlush := f.pendFlush.erase l }).bulkAns 9 n (l.upto + f.peerEpoch * 2 ^ 48) 0
      l.ts.toNat l.xmit k stOk 0 l.delay l.ce) := by
  have hnone : (s.bulk.held.any fun h => h.pkt.srcNode.toNat == n) = false :=
    List.any_eq_false.2 fun h hh => mt beq_iff_eq.1 (hheld h hh)
  show execPlacedSend n s = _
  simp only [execPlacedSend, hf, hfl, hl, hkey, hnone, Bool.not_true, Bool.or_self, Bool.false_eq_true, if_false]

end

theorem flushAndPlaced : Sys2Proof.Parts.FlushAndPlaced := by
  unfold Sys2Proof.Parts.FlushAndPlaced
  intro s n f hl hf
  exact ⟨fun l k => exec_flushSend hl hf, fun l k => exec_placedSend hl hf⟩

/-! ### Timeouts and horizons (R242, R247, R251) -/

/-- Flow `f` once packet `off` of message `seq` has had no answer in time: its window is cut, and the packet is due again. -/
def State.lateFlow (s : State) (f : Flow) (seq off : Nat) (m : BulkMsg) (p : PktSt) : Flow :=
  { f.cut true with msgs := tblIns f.msgs seq { m with
      pkts := tblIns m.pkts off { p with again := true, remap := false, waitTill := s.tick } } }

section
variable {s : State} {n seq : Nat} (hl : s.live = true)
include hl

section
variable {f : Flow} {m : BulkMsg} (hf : s.flow n = some f) (hseq : seq ≠ 0) (hm : tblFind f.msgs seq = some m)
include hf hseq hm

theorem exec_bulkRetxTimeout {t : State} {off : Nat} {p : PktSt} (hp : tblFind m.pkts off = some p) (hout : p.acked = false)
    (hfirst : p.again = false) (hlate : s.past (p.sentAt + p.timeout) = true) (htime : s.inTime m = true)
    (ht : (s.setFlow n (s.lateFlow f seq off m p)).resend n seq off = some t) : exec (.bulkRetxTimeout n seq off) s = .next t := by
  have hdue : (p.acked || p.again || !s.past (p.sentAt + p.timeout) || !s.inTime m) = false := by
    simp only [hout, hfirst, hlate, htime, Bool.not_true, Bool.or_self]
  rw [State.lateFlow] at ht
  show execBulkRetxTimeout n seq off s = _
  simp only [execBulkRetxTimeout, hf, hl, hseq, hm, hp, hdue, ht, Option.bind_some, Option.map_some, Option.getD_some,
    Bool.not_true, Bool.false_eq_true, if_false]

theorem exec_bulkMessageHorizon {d : Nat} (hd : m.first = some d) (hlate : s.past (horizon d) = true) :
    exec (.bulkMessageHorizon n seq) s = .next (s.bulkEnd n seq stTimeout m) := by
  have hover : (m.first.any fun t => s.past (horizon t)) = true := by rw [hd, Option.any_some, hlate]
  show execBulkMessageHorizon n seq s = _
  simp only [execBulkMessageHorizon, hf, hl, hseq, hm, hover, Bool.not_true, Bool.false_eq_true, if_false, if_true]

end

/-- A GET whose flow is gone from the cache has no message left to drop. -/
theorem exec_getTimeout_noFlow {g : GetRec} (hg : tblFind s.bulk.gets (n * 2 ^ 48 + seq) = some g) (hlate : s.past g.deadline = true)
    (hf : s.flow n = none) :
    exec (.getTimeout n seq) s = .next (((s.modBulk fun b => { b with
      gets := tblDel b.gets (n * 2 ^ 48 + seq) }).count 0x4204 3).msgFail g.purpose stTimeout) := by
  show execGetTimeout n seq s = _
  simp only [execGetTimeout, hg, hl, hlate, hf, Option.bind_none, Bool.not_true, Bool.or_self, Bool.false_eq_true, if_false]

theorem exec_lwRecordDiscard {r : LwRec} (hr : s.lwGet n 1 = some r)
    (hage : s.obj 0x4201 1 * ticksPerMs ≤ (s.tick % 2 ^ 52 + 2 ^ 52 - r.stamp * 2 ^ 20) % 2 ^ 52) :
    exec (.lwRecordDiscard n) s = .next (s.lwPut n 1 none) := by
  show execLwRecordDiscard n s = _
  simp only [execLwRecordDiscard, hr, hl, Nat.not_lt.2 hage, decide_false, Bool.not_true, Bool.or_self, Bool.false_eq_true, if_false]

end

theorem bulkTimeouts : Sys2Proof.Parts.BulkTimeouts := by
  unfold Sys2Proof.Parts.BulkTimeouts
  intro s n seq off hl
  exact ⟨fun f m p t hf hseq hm => exec_bulkRetxTimeout hl hf hseq hm, fun f m d hf hseq hm => exec_bulkMessageHorizon hl hf hseq hm,
    fun g => exec_getTimeout_noFlow hl, fun r => exec_lwRecordDiscard hl⟩

/-- Settles O42: an answer that matches is acted on, a FLUSH and its PLACED go out when they may, and each horizon ends what it is for. -/
theorem bulkAnswersAndTimeouts : Obligations.BulkAnswersAndTimeouts := ⟨acknowledgmentsMatchPackets, flushAndPlaced, bulkTimeouts⟩

end Sys2Proof.Machine

/-! PROOFS. Bulk packets that arrive (08 R243, R251, R254): taken, passed on or dropped, and discarded when their tag does not verify. -/

namespace Sys2Proof.Machine

/-! ### A packet for this device (R243; 07 R205) -/

section
variable {s : State} {p : Nat} {k : BulkPkt}

/-- A packet for this device is taken once a slot for its answer is free, and waits until then. -/
theorem exec_bulkPacketReceive_here (ha : s.answering = true) (hup : (s.port p).up = true) (hd : k.dstNode.toNat = s.fab.node)
    (hr : s.relays k = false) (hx : isKeyx k = false) :
    exec (.bulkPacketReceive p k) s = .next (if s.bulkRoom p = true then (s.takeFlits p 0 (bulkFlits k)).bulkIn k (s.waited p 0)
      else s.modBulk fun b => { b with waitQ := b.waitQ ++ [(p, k)] }) := by
  show execBulkPacketReceive p k s = _
  cases hroom : s.bulkRoom p <;>
    simp only [execBulkPacketReceive, ha, hup, hd, hr, hx, hroom, ne_eq, not_true_eq_false, Bool.not_true, Bool.not_false, Bool.and_false,
      Bool.or_self, Bool.false_eq_true, if_false, if_true]

/-! ### Gateways (R254) -/

variable (hl : s.live = true) (hup : (s.port p).up = true) (hr : s.relays k = true)
include hl hup hr

theorem exec_gatewayRelay {t : State} {wait hop q : Nat} {trunk : Bool} (hwait : wait ≤ 2000)
    (hhop : s.hop k.finalNode.toNat (pairNum k.addr.toNat) = some (hop, trunk))
    (hport : s.nextPort s.fab.rotor 0 (bulkFlits k) trunk none = some q) (hturn : s.classTurn q 0 (bulkFlits k) = some t) :
    exec (.gatewayRelay p k wait) s = .next (((t.takeFlits p 0 (bulkFlits k)).sendPkt q 0 (bulkFlits k) (.bulk { k with
      dstNode := BitVec.ofNat 16 hop, ce := k.ce || decide (500 < wait) })).modFab fun g => { g with rotor := q }) := by
  show execGatewayRelay p k wait s = _
  simp only [execGatewayRelay, hl, hup, hr, Nat.not_lt.2 hwait, hhop, hport, hturn, Option.bind_some, Option.map_some, decide_false,
    Bool.not_true, Bool.or_self, Bool.false_eq_true, if_false]

theorem exec_gatewayRelayDrop : exec (.gatewayRelayDrop p k) s = .next ((s.takeFlits p 0 (bulkFlits k)).count 0x4205 6) := by
  show execGatewayRelayDrop p k s = _
  simp only [execGatewayRelayDrop, hl, hup, hr, Bool.not_true, Bool.or_self, Bool.false_eq_true, if_false]

end

/-! ### The data of a GET (R251) -/

theorem exec_getDataSend {s u : State} {n seq : Nat} {g : GetServe} {f : Flow} (hl : s.live = true)
    (hg : tblFind s.bulk.serves (n * 2 ^ 48 + seq) = some g) (hsent : g.sent = false) (hbad : s.cbad g.ctx g.caddr g.len = none)
    (hu : s.flowLoad n = some u) (hf : u.flow n = some f) :
    exec (.getDataSend n seq) s = .next ((s.modBulk fun b => { b with
      serves := tblIns b.serves (n * 2 ^ 48 + seq) { g with sent := true } }).bulkIssue n
        (bulkMsg 3 g.ctx 3 0 0 (seq + f.peerEpoch * 2 ^ 48) g.len (s.cread g.ctx g.caddr g.len) (.getData n seq))) := by
  show execGetDataSend n seq s = _
  simp only [execGetDataSend, hg, hu, hf, hl, hsent, hbad, Option.bind_some, Bool.not_true, Bool.or_self, Bool.false_eq_true, if_false]

theorem bulkPacketsArriveOrAreRelayed : Sys2Proof.Parts.BulkPacketsArriveOrAreRelayed := by
  unfold Sys2Proof.Parts.BulkPacketsArriveOrAreRelayed
  intro s p k hl hup
  exact ⟨fun ha => exec_bulkPacketReceive_here ha hup, fun wait hop trunk q t hr => exec_gatewayRelay hl hup hr,
    exec_gatewayRelayDrop hl hup, fun n seq g f u => exec_getDataSend hl⟩

/-! ### Forged packets (R243) -/

theorem State.bulkIn_badTag {s u : State} {k : BulkPkt} {f : Flow} {key : Nat} (delay : Nat) (hu : s.flowLoad k.srcNode.toNat = some u)
    (hf : u.flow k.srcNode.toNat = some f)
    (hkey : keyFor (u.fkeys k.srcNode.toNat).rx (u.fkeys k.srcNode.toNat).rxPrev k.xmit.toNat = some key)
    (htag : Config.gcmTag key k.xmit.toNat (bulkAad { k with dstNode := 0, ce := false }) k.payload ≠ k.tag) :
    s.bulkIn k delay = u.count 0x4204 4 := by
  simp only [State.bulkIn, hu, hf, hkey]
  exact if_pos htag

theorem forgedPacketsAreDiscarded : Sys2Proof.Parts.ForgedPacketsAreDiscarded := by
  unfold Sys2Proof.Parts.ForgedPacketsAreDiscarded
  intro s u k f key delay hu hf hkey htag
  have hin := State.bulkIn_badTag delay hu hf hkey htag
  exact ⟨hin, by rw [hin, State.count_ses]⟩

/-- Settles O43: a packet is taken, waits, is passed on or is dropped by the rule of its case, and one that is forged is only counted. -/
theorem bulkArrivals : Obligations.BulkArrivals := ⟨bulkPacketsArriveOrAreRelayed, forgedPacketsAreDiscarded⟩

end Sys2Proof.Machine

/-! PROOFS. Rules that the text commands and events share (09): streams of the state, entries of a stream, commands that name a stream,
and the space and the lines that a load needs. -/

namespace Sys2Proof.Machine

/-! ### Streams of the state (R262) -/

@[simp] theorem State.strm_setStrm_self (s : State) (n : Nat) (x : TStream) : (s.setStrm n x).strm n = some x := tblFind_tblIns_self _ _ _

theorem State.strm_congr {s t : State} (h : t.txt = s.txt) (n : Nat) : t.strm n = s.strm n := congrArg (fun g : Txt => tblFind g.streams n) h

theorem LogStep.txt_eq {s t : State} (h : LogStep s t) : t.txt = s.txt := by obtain ⟨o, g, m, e, rfl⟩ := h; rfl

/-! ### Entries of a stream (R276) -/

/-- Apart from the host site, the outputs, the objects and the error logs, a TOKENIZED entry changes ESEQ of its stream alone. -/
theorem State.tokenized_step {s : State} {n : Nat} {x : TStream} (hx : s.strm n = some x) (sq cq head : Nat) (tag : W64) (st count : Nat)
    (inv : Bool) : LogStep (s.setStrm n { x with eseq := x.eseq + 1 }) (s.tokenized sq cq x.ctx head tag n st count inv) := by
  have hown : (tblFind s.txt.streams n).filter (fun y => y.ctx == x.ctx) = some x := by
    rw [State.strm] at hx
    simp only [hx, Option.filter_some, beq_self_eq_true, if_true]
  simp only [State.tokenized, hown]
  exact State.settle_step _ _ _ _

theorem State.tokenized_counts {s : State} {n : Nat} {x : TStream} (hx : s.strm n = some x) (sq cq head : Nat) (tag : W64) (st count : Nat)
    (inv : Bool) :
    let u := s.tokenized sq cq x.ctx head tag n st count inv
    u.strm n = some { x with eseq := x.eseq + 1 } ∧ u.ses = s.ses := by
  have hstep := State.tokenized_step hx sq cq head tag st count inv
  exact ⟨(State.strm_congr hstep.txt_eq n).trans (State.strm_setStrm_self _ _ _), hstep.ses_eq⟩

/-- The entries of a release change ESEQ of the stream alone. -/
theorem releaseGo_fst (n kind aux status token : Nat) (cs : List (List (Byte × Bool))) (x : TStream) (s : State) :
    ∃ e, (releaseGo n kind aux status token cs x s).1 = { x with eseq := e } := by
  induction cs generalizing x s with
  | nil => exact ⟨x.eseq, rfl⟩
  | cons c cs ih => exact ih _ _

/-- A stream that ends keeps nothing back, and its binding to a grammar ends with it. -/
theorem endStream_fst (n : Nat) (x : TStream) (s : State) (kind status token : Nat) :
    ∃ e, (endStream n x s kind status token).1 = { x with held := [], tail := [], state := .ended, inst := endInst x.inst, eseq := e } :=
  releaseGo_fst _ _ _ _ _ _ _ _

/-! ### Commands that name a stream (R271) -/

section
variable {s t u : State} {sq q n r : Nat} {h : CmdHdr} {c : HostCmd} {hosts : List (Nat × Nat)} {f : State → CmdOut}

theorem State.streamCmd_eq_ringCmd (hn : NoEventFirst s h.ctx.toNat n) : s.streamCmd sq h n c hosts f = s.ringCmd sq h c hosts f := by
  have hany : (s.txt.events.any fun e => e.stream == n && e.ctx == h.ctx.toNat) = false := by
    rw [NoEventFirst, List.find?_eq_none] at hn
    exact List.any_eq_false.2 hn
  simp only [State.streamCmd, hany, Bool.false_eq_true, if_false]

/-- A command waits for a token event of its stream that goes first. -/
theorem State.streamCmd_eventFirst {e : TokEvent} (he : s.txt.events.find? (fun e => e.stream == n && e.ctx == h.ctx.toNat) = some e) :
    s.streamCmd sq h n c hosts f = .next s :=
  if_pos (List.any_eq_true.2 ⟨e, List.mem_of_find?_eq_some he, List.find?_some he⟩)

theorem State.streamCmd_accepted (ha : Accepted s t sq q h c hosts) (hn : NoEventFirst s h.ctx.toNat n) (hf : f t = .done stOk r u) :
    s.streamCmd sq h n c hosts f = .next (completed s u sq q h c r) :=
  (State.streamCmd_eq_ringCmd hn).trans (State.ringCmd_accepted ha hf)

theorem State.streamCmd_later (ha : Accepted s t sq q h c hosts) (hn : NoEventFirst s h.ctx.toNat n) (hf : f t = .later u) :
    s.streamCmd sq h n c hosts f = .next u :=
  (State.streamCmd_eq_ringCmd hn).trans (State.ringCmd_later ha hf)

end

/-! ### What a load needs (R260, R261; 16 R444) -/

theorem State.noBlocks_of_fit {t : State} {ctx old new : Nat} (h : BlocksFit t ctx old new) : t.noBlocks ctx old new = false := by
  obtain ⟨hquota, hall⟩ := h
  simp only [State.noBlocks, Nat.not_lt.2 hquota, Nat.not_lt.2 hall, decide_false, Bool.or_self]

theorem CmdOut.reading_of_readable {t : State} {ctx addr n : Nat} (h : t.cbad ctx addr n = none) (o : CmdOut) :
    CmdOut.reading t ctx addr n o = o := by
  simp only [CmdOut.reading, h]

theorem inSpace_of_le {addr len : Nat} (h : addr + len ≤ 2 ^ 48) : inSpace addr len = true := decide_eq_true h

end Sys2Proof.Machine

/-! PROOFS. Vocabularies, stop sets, streams and the tokenizer (09 R262-R274). -/

namespace Sys2Proof.Machine

section
variable {s t : State} {sq q : Nat} {h : CmdHdr}

/-! ### Vocabularies and stop sets (R265, R274) -/

theorem exec_vocabLoad {vocab : BitVec 4} {addr : BitVec 48} {imageLen : W32} (ha : Accepted s t sq q h (.vocabLoad vocab addr imageLen) [])
    (hlen : imageLen.toNat ≤ 33554432) (hend : addr.toNat + imageLen.toNat ≤ 2 ^ 48)
    (hfit : BlocksFit t h.ctx.toNat (((tblFind t.txt.vocabs (h.ctx.toNat * 16 + vocab.toNat)).map fun v => imgBlocks v.len).getD 0)
      (imgBlocks imageLen.toNat))
    (hread : t.cbad h.ctx.toNat addr.toNat imageLen.toNat = none)
    (hok : vocOk (t.image h.ctx.toNat addr.toNat imageLen.toNat) imageLen.toNat = true) :
    exec (.vocabLoad sq h vocab addr imageLen) s
      = .next (completed s (t.modTxt fun g => { g with
          vocabs := tblIns g.vocabs (h.ctx.toNat * 16 + vocab.toNat) ⟨t.image h.ctx.toNat addr.toNat imageLen.toNat, imageLen.toNat, false⟩ })
          sq q h (.vocabLoad vocab addr imageLen) 0) := by
  have hroom := State.noBlocks_of_fit hfit
  refine State.ringCmd_accepted ha ?_
  cases hold : tblFind t.txt.vocabs (h.ctx.toNat * 16 + vocab.toNat) with
  | none | some v =>
    simp only [hold, Option.map_none, Option.map_some, Option.getD_none, Option.getD_some] at hroom
    simp only [hold, hroom, Nat.not_lt.2 hlen, inSpace_of_le hend, CmdOut.reading_of_readable hread, hok, decide_false, Bool.not_true,
      Bool.or_self, Bool.false_eq_true, if_false]

theorem exec_vocabRemove {vocab : BitVec 4} (ha : Accepted s t sq q h (.vocabRemove vocab) [])
    (hold : (tblFind t.txt.vocabs (h.ctx.toNat * 16 + vocab.toNat)).isSome = true)
    (huse : tblAny t.txt.streams (fun _ x => x.ctx == h.ctx.toNat && x.vocab == vocab.toNat) = false) :
    exec (.vocabRemove sq h vocab) s
      = .next (completed s (t.modTxt fun g => { g with vocabs := tblDel g.vocabs (h.ctx.toNat * 16 + vocab.toNat) }) sq q h
          (.vocabRemove vocab) 0) := by
  refine State.ringCmd_accepted ha ?_
  simp only [← Option.not_isSome, hold, huse, Bool.not_true, Bool.false_eq_true, if_false]

theorem exec_stopsetSet {stopset : BitVec 8} {countM1 : BitVec 4} {addr : BitVec 48} {lens : BitVec 128}
    (ha : Accepted s t sq q h (.stopsetSet stopset countM1 addr lens) [])
    (hend : addr.toNat + (64 * countM1.toNat + bits lens.toNat (8 * countM1.toNat + 7) (8 * countM1.toNat)) ≤ 2 ^ 48)
    (hread : t.cbad h.ctx.toNat addr.toNat (64 * (countM1.toNat + 1)) = none)
    (hstrs : ∀ x ∈ t.stopStrings h.ctx.toNat addr.toNat (countM1.toNat + 1) lens, x ≠ [] ∧ x.length ≤ 64 ∧ utf8Ok x = true)
    (hroom : (tblFind t.txt.stops (h.ctx.toNat * 256 + stopset.toNat)).isSome = true
      ∨ tblCount t.txt.stops (fun j _ => j / 256 == h.ctx.toNat) < t.obj 0x6001 2 h.ctx.toNat ∧ t.txt.stops.length < 2048) :
    exec (.stopsetSet sq h stopset countM1 addr lens) s
      = .next (completed s (t.modTxt fun g => { g with
          stops := tblIns g.stops (h.ctx.toNat * 256 + stopset.toNat) (t.stopStrings h.ctx.toNat addr.toNat (countM1.toNat + 1) lens) })
          sq q h (.stopsetSet stopset countM1 addr lens) 0) := by
  have hgood : ((t.stopStrings h.ctx.toNat addr.toNat (countM1.toNat + 1) lens).any
      fun x => x.isEmpty || decide (64 < x.length) || !utf8Ok x) = false := by
    refine List.any_eq_false.2 fun x hx => ?_
    obtain ⟨hne, hlen, hutf⟩ := hstrs x hx
    simp [hne, hlen, hutf]
  have hspace : ((tblFind t.txt.stops (h.ctx.toNat * 256 + stopset.toNat)).isNone
      && (decide (t.obj 0x6001 2 h.ctx.toNat ≤ tblCount t.txt.stops fun j _ => j / 256 == h.ctx.toNat)
        || decide (2048 ≤ t.txt.stops.length))) = false := by
    rcases hroom with hold | ⟨hquota, hall⟩
    · rw [← Option.not_isSome, hold, Bool.not_true, Bool.false_and]
    · simp only [Nat.not_le.2 hquota, Nat.not_le.2 hall, decide_false, Bool.or_self, Bool.and_false]
  refine State.ringCmd_accepted ha ?_
  simp only [inSpace_of_le hend, CmdOut.reading_of_readable hread, hgood, hspace, Bool.not_true, Bool.false_eq_true, if_false]

/-! ### Streams (R262, R271) -/

/-- The stop set that STREAM_OPEN names: none for 0xFFFF. -/
def namedStopset (stopset : BitVec 16) : Option Nat := if stopset.toNat = 0xFFFF then none else some stopset.toNat

/-- The stream that STREAM_OPEN opens, from what stands under its number. -/
def openedStream (ctx : Nat) (vocab : BitVec 4) (stopset : BitVec 16) (incl : Bool) (eventCq : BitVec 6) (old : Option TStream) : TStream :=
  { old.getD ⟨ctx, .ended, 0, none, false, 0, [], [], [], 0, [], none⟩ with
    state := .open, vocab := vocab.toNat, stopset := namedStopset stopset, inclStop := incl, cq := eventCq.toNat, held := [], tail := [], eseq := 0 }

theorem openedStream_ctx {ctx : Nat} {old : Option TStream} (hold : ∀ o, old = some o → o.ctx = ctx) (vocab : BitVec 4) (stopset : BitVec 16)
    (incl : Bool) (eventCq : BitVec 6) : (openedStream ctx vocab stopset incl eventCq old).ctx = ctx := by
  cases old with
  | none => rfl
  | some o => exact hold o rfl

theorem openedStream_queue (ctx : Nat) (vocab : BitVec 4) (stopset : BitVec 16) (incl : Bool) (eventCq : BitVec 6) (old : Option TStream) :
    (openedStream ctx vocab stopset incl eventCq old).queue = (old.map (·.queue)).getD [] := by
  cases old <;> rfl

theorem exec_streamOpen {stream : BitVec 14} {vocab : BitVec 4} {stopset : BitVec 16} {incl : Bool} {eventCq : BitVec 6} {v : Vocab}
    (ha : Accepted s t sq q h (.streamOpen stream vocab stopset incl eventCq) []) (hn : NoEventFirst s h.ctx.toNat stream.toNat)
    (hin : t.strmIn h.ctx.toNat stream.toNat = true) (hfree : ∀ o, t.strm stream.toNat = some o → o.ctx = h.ctx.toNat ∧ o.state ≠ .open)
    (hv : t.voc h.ctx.toNat vocab.toNat = some v) (hwhole : v.damaged = false)
    (hstop : stopset.toNat = 0xFFFF
      ∨ (stopset.toNat ≤ 255 ∧ (tblFind t.txt.stops (h.ctx.toNat * 256 + stopset.toNat)).isSome = true)) :
    exec (.streamOpen sq h stream vocab stopset incl eventCq) s
      = .next (completed s (t.setStrm stream.toNat (openedStream h.ctx.toNat vocab stopset incl eventCq (t.strm stream.toNat))) sq q h
          (.streamOpen stream vocab stopset incl eventCq) 0) := by
  refine State.streamCmd_accepted ha hn ?_
  refine (if_neg fun hbad => ?_).trans ?_
  · rw [hin] at hbad
    cases hold : t.strm stream.toNat with
    | none => simp only [hold, Bool.not_true, Bool.or_self, Bool.false_eq_true] at hbad
    | some o =>
      obtain ⟨hctx, hst⟩ := hfree o hold
      simp only [hold, hctx, beq_eq_false_iff_ne.2 hst, bne_self_eq_false, Bool.not_true, Bool.or_self, Bool.false_eq_true] at hbad
  · simp only [hv, hwhole, Bool.false_eq_true, if_false]
    refine (if_neg fun hbad => ?_).trans rfl
    rcases hstop with hnone | ⟨hle, hset⟩
    · simp only [hnone, if_true, Bool.false_eq_true] at hbad
    · have hne : stopset.toNat ≠ 0xFFFF := by omega
      simp only [hne, if_false, ← Option.not_isSome, hset, Nat.not_lt.2 hle, decide_false, Bool.not_true, Bool.or_self,
        Bool.false_eq_true] at hbad

theorem exec_streamClose {stream : BitVec 14} {x : TStream} (ha : Accepted s t sq q h (.streamClose stream) [])
    (hn : NoEventFirst s h.ctx.toNat stream.toNat) (hx : t.ownStrm h.ctx.toNat stream.toNat = some x) (hq : x.queue = []) :
    let r := if x.state = .open then endStream stream.toNat x t 4 stOk 0 else (x, t)
    exec (.streamClose sq h stream) s
      = .next (completed s ((r.2.setStrm stream.toNat r.1).modTxt fun g => { g with streams := tblDel g.streams stream.toNat }) sq q h
          (.streamClose stream) 0) := by
  refine State.streamCmd_accepted ha hn ?_
  simp only [hx, hq]
  rfl

end

theorem vocabulariesAndStreams : Sys2Proof.Parts.VocabulariesAndStreams := by
  unfold Sys2Proof.Parts.VocabulariesAndStreams
  intro s t sq q h
  refine ⟨fun vocab addr imageLen => exec_vocabLoad, fun vocab => exec_vocabRemove, fun stopset countM1 addr lens => exec_stopsetSet,
    fun stream vocab stopset incl eventCq v ha hn hin hfree hv hwhole hstop => ?_, fun stream x => exec_streamClose,
    fun n c hosts f e => State.streamCmd_eventFirst⟩
  exact ⟨_, exec_streamOpen ha hn hin hfree hv hwhole hstop, openedStream_ctx (fun o ho => (hfree o ho).1) _ _ _ _, rfl, rfl, rfl, rfl, rfl,
    rfl, rfl, openedStream_queue _ _ _ _ _ _, rfl⟩

/-! ### TOKENIZE (R266-R269) -/

/-- A TOKENIZE as it joins the queue of its stream: the entry it completes by goes to ring `q`. -/
def State.tokCmd (t : State) (sq q : Nat) (tag : W64) (last : Bool) (inAddr outAddr : BitVec 48) (len : W32) : TokCmd where
  sq := sq
  cq := q
  tag := tag
  last := last
  inAddr := inAddr.toNat
  len := len.toNat
  outAddr := outAddr.toNat
  head := t.sqHeadOf sq
  order := t.txt.nextOrder
  left := none
  till := 0

theorem exec_tokenize {s t : State} {sq q : Nat} {h : CmdHdr} {stream : BitVec 14} {last : Bool} {inAddr outAddr : BitVec 48} {len outCap : W32}
    {x : TStream} (ha : Accepted s t sq q h (.tokenize stream last inAddr len outAddr outCap) []) (hn : NoEventFirst s h.ctx.toNat stream.toNat)
    (hx : t.ownStrm h.ctx.toNat stream.toNat = some x) (hst : x.state = .open) (hmin : 1 ≤ len.toNat) (hmax : len.toNat ≤ 16777216)
    (halign : outAddr.toNat % 64 = 0) (hcap : len.toNat + 3 ≤ outCap.toNat) (hin : inAddr.toNat + len.toNat ≤ 2 ^ 48)
    (hout : outAddr.toNat + 4 * (len.toNat + 3) ≤ 2 ^ 48) :
    exec (.tokenize sq h stream last inAddr len outAddr outCap) s
      = .next ((t.setStrm stream.toNat { x with queue := x.queue ++ [t.tokCmd sq q h.tag last inAddr outAddr len] }).modTxt fun g =>
          { g with nextOrder := g.nextOrder + 1 }) := by
  have htarget : t.target sq (.cmd h (.tokenize stream last inAddr len outAddr outCap)) = q := by
    obtain ⟨⟨-, hq, rfl, rfl⟩, -⟩ := ha
    exact State.target_takeEntry hq _
  refine State.streamCmd_later ha hn ?_
  simp only [hx, hst, Nat.not_lt.2 hmin, Nat.not_lt.2 hmax, halign, Nat.not_lt.2 hcap, inSpace_of_le hin, inSpace_of_le hout, htarget,
    State.tokCmd, ne_eq, not_true_eq_false, decide_false, bne_self_eq_false, Bool.not_true, Bool.or_self, Bool.false_eq_true, if_false]

/-! ### TOKENIZE_DONE (R267-R269) -/

/-- What TOKENIZE `c` of stream `x` yields under vocabulary `v`: tokens, new carry, subparts replaced, lane cycles. -/
def State.tokYield (s : State) (x : TStream) (c : TokCmd) (v : Vocab) : List Nat × List Byte × Nat × Nat :=
  tokenizeBytes v.image (s.obj 0x6002 1 x.ctx == 1) c.last x.carry (s.cread x.ctx c.inAddr c.len)

/-- Stream `n` once its oldest TOKENIZE has written its tokens and left its carry, and both are counted; the entry is not yet posted. -/
def State.tokensWritten (s : State) (n : Nat) (x : TStream) (c : TokCmd) (rest : List TokCmd) (v : Vocab) : State :=
  let r := s.tokYield x c v
  (((s.cwrite x.ctx c.outAddr (r.1.flatMap (leBytes 4))).setStrm n { x with queue := rest, carry := r.2.1 }).count 0x6006 1 0
    (c.len + x.carry.length - r.2.1.length)).count 0x6006 2 0 r.2.2.1

@[simp] theorem State.strm_tokensWritten (s : State) (n : Nat) (x : TStream) (c : TokCmd) (rest : List TokCmd) (v : Vocab) :
    (s.tokensWritten n x c rest v).strm n = some { x with queue := rest, carry := (s.tokYield x c v).2.1 } :=
  (State.strm_congr rfl n).trans (State.strm_setStrm_self _ _ _)

theorem State.tokensWritten_ses (s : State) (n : Nat) (x : TStream) (c : TokCmd) (rest : List TokCmd) (v : Vocab) :
    (s.tokensWritten n x c rest v).ses = (s.cwrite x.ctx c.outAddr ((s.tokYield x c v).1.flatMap (leBytes 4))).ses := rfl

section
variable {s : State} {n : Nat} {x : TStream} {c : TokCmd} {rest : List TokCmd} {v : Vocab} (hrun : TokenizeRun s n x c rest v)
  (hcut : s.uncopied x.ctx c.outAddr (4 * (s.tokYield x c v).1.length) = [])
include hrun hcut

/-- Under a damaged vocabulary nothing is written and the carry stays. -/
theorem exec_tokenizeDone_damaged (hv : v.damaged = true) :
    exec (.tokenizeDone n) s
      = .next ((s.setStrm n { x with queue := rest }).tokenized c.sq c.cq x.ctx c.head c.tag n stSramUe 0 false) := by
  obtain ⟨hup, hx, hq, hleft, htill, hvoc⟩ := hrun
  rw [State.tokYield] at hcut
  show execTokenizeDone n s = _
  simp only [execTokenizeDone, hup, hx, hq, hleft, Nat.not_lt.2 htill, hvoc, hcut, hv, bne_self_eq_false, decide_false, List.isEmpty_nil,
    Bool.not_true, Bool.or_self, Bool.false_eq_true, if_false, if_true]

theorem exec_tokenizeDone_written (hv : v.damaged = false) (hread : s.cbad x.ctx c.inAddr c.len = none) :
    exec (.tokenizeDone n) s
      = .next ((s.tokensWritten n x c rest v).tokenized c.sq c.cq x.ctx c.head c.tag n stOk (s.tokYield x c v).1.length
          (decide (0 < (s.tokYield x c v).2.2.1))) := by
  obtain ⟨hup, hx, hq, hleft, htill, hvoc⟩ := hrun
  rw [State.tokYield] at hcut
  show execTokenizeDone n s = _
  simp only [execTokenizeDone, hup, hx, hq, hleft, Nat.not_lt.2 htill, hvoc, hcut, hv, hread, bne_self_eq_false, decide_false,
    List.isEmpty_nil, Bool.not_true, Bool.or_self, Bool.false_eq_true, if_false]
  rfl

end

theorem length_flatMap_leBytes (n : Nat) (l : List Nat) : (l.flatMap (leBytes n)).length = n * l.length := by
  simp only [List.length_flatMap, leBytes_length, List.map_const', List.sum_replicate, smul_eq_mul, Nat.mul_comm]

theorem textIsTokenized : Sys2Proof.Parts.TextIsTokenized := by
  unfold Sys2Proof.Parts.TextIsTokenized
  refine ⟨fun s t sq q h stream last inAddr outAddr len outCap x ha hn hx hst hmin hmax halign hcap hin hout => ?_,
    fun s n x c rest v hrun => ⟨fun hv hcut => ?_, fun hv hw hread hcut _ _ => ?_⟩⟩
  · exact ⟨_, exec_tokenize ha hn hx hst hmin hmax halign hcap hin hout, rfl, rfl, rfl, rfl, rfl, rfl, rfl, rfl, rfl⟩
  · exact ⟨_, exec_tokenizeDone_damaged hrun hcut hv, State.tokenized_counts (State.strm_setStrm_self _ _ _) _ _ _ _ _ _ _⟩
  · obtain ⟨hstrm, hses⟩ := State.tokenized_counts (s.strm_tokensWritten n x c rest v) c.sq c.cq c.head c.tag stOk
      (s.tokYield x c v).1.length (decide (0 < (s.tokYield x c v).2.2.1))
    have hlen := length_flatMap_leBytes 4 (s.tokYield x c v).1
    refine ⟨_, exec_tokenizeDone_written hrun hcut hv hread, hstrm, ?_, fun b hb => ?_⟩
    · have hback := State.cread_cwrite hw x.ctx c.outAddr ((s.tokYield x c v).1.flatMap (leBytes 4))
      rw [hlen] at hback
      rw [State.cread, hses, State.tokensWritten_ses]
      exact hback
    · rw [hses, State.tokensWritten_ses]
      exact State.memGet_cwrite_outside _ _ _ _ _ (by rw [hlen]; exact hb)

/-- Settles O47: each command, accepted under its conditions, has its rule; a TOKENIZE that is done writes its tokens by one write of context
memory, and what posts its entry changes no memory. -/
theorem textCommands : Obligations.TextCommands := ⟨vocabulariesAndStreams, textIsTokenized⟩

end Sys2Proof.Machine

/-! PROOFS. Grammars and token events (09 R272, R277-R282). -/

namespace Sys2Proof.Machine

section
variable {s t : State} {sq q : Nat} {h : CmdHdr}

/-! ### Grammars (R277) -/

theorem exec_grammarLoad {grammar : BitVec 6} {addr : BitVec 48} {len : Nat} (ha : Accepted s t sq q h (.grammarLoad grammar addr) [])
    (hnum : len = t.cnum h.ctx.toNat (addr.toNat + 8) 4) (hlen : len ≤ 16777216) (hend : addr.toNat + max 64 len ≤ 2 ^ 48)
    (hfit : BlocksFit t h.ctx.toNat (((tblFind t.txt.grammars (h.ctx.toNat * 64 + grammar.toNat)).map fun v => imgBlocks v.len).getD 0)
      (imgBlocks len))
    (hread : t.cbad h.ctx.toNat addr.toNat (max 64 len) = none) (hok : gramOk (t.image h.ctx.toNat addr.toNat len) = true) :
    exec (.grammarLoad sq h grammar addr) s
      = .next (completed s (t.modTxt fun g => { g with
          grammars := tblIns g.grammars (h.ctx.toNat * 64 + grammar.toNat) ⟨t.image h.ctx.toNat addr.toNat len, len, false⟩ })
          sq q h (.grammarLoad grammar addr) 0) := by
  have hroom := State.noBlocks_of_fit hfit
  refine State.ringCmd_accepted ha ?_
  cases hold : tblFind t.txt.grammars (h.ctx.toNat * 64 + grammar.toNat) with
  | none | some v =>
    simp only [hold, Option.map_none, Option.map_some, Option.getD_none, Option.getD_some] at hroom
    simp only [← hnum, hold, hroom, Nat.not_lt.2 hlen, inSpace_of_le hend, CmdOut.reading_of_readable hread, hok, decide_false, Bool.not_true,
      Bool.or_self, Bool.false_eq_true, if_false]

theorem exec_grammarRemove {grammar : BitVec 6} (ha : Accepted s t sq q h (.grammarRemove grammar) [])
    (hold : (tblFind t.txt.grammars (h.ctx.toNat * 64 + grammar.toNat)).isSome = true)
    (huse : tblAny t.txt.streams (fun _ x => x.ctx == h.ctx.toNat && x.inst.any fun i => i.grammar == grammar.toNat) = false) :
    exec (.grammarRemove sq h grammar) s
      = .next (completed s (t.modTxt fun g => { g with grammars := tblDel g.grammars (h.ctx.toNat * 64 + grammar.toNat) }) sq q h
          (.grammarRemove grammar) 0) := by
  refine State.ringCmd_accepted ha ?_
  simp only [← Option.not_isSome, hold, huse, Bool.not_true, Bool.false_eq_true, if_false]

/-! ### Binding (R278, R281, R282) -/

/-- What GRAMMAR_BIND makes of grammar `g` for a stream, before its first mask. -/
def boundInst (grammar : BitVec 6) (mask : BitVec 48) (escape : BitVec 18) (g : Grammar) : Instance_ :=
  ⟨grammar.toNat, mask.toNat, if escape.toNat = 0x3FFFF then none else some escape.toNat, 0, gramStart g.image, [], false, 0⟩

/-- The first configuration of a bound grammar, settled as lane work of its context: `i` with its mask written, whether that is a dead end, and
the state. -/
def State.bindSettle (t : State) (ctx n : Nat) (i : Instance_) (m : Mem) : Instance_ × Bool × State :=
  (t.laneTake ctx (512 + (gramConf m i.gs 0).length)).settleInst n ctx m i

theorem exec_grammarBind {stream : BitVec 14} {grammar : BitVec 6} {escape : BitVec 18} {mask : BitVec 48} {x : TStream} {g : Grammar}
    (ha : Accepted s t sq q h (.grammarBind stream grammar escape mask) []) (hn : NoEventFirst s h.ctx.toNat stream.toNat)
    (hlane : s.bindWaits h.ctx.toNat stream.toNat = false) (hcut : s.uncopied h.ctx.toNat mask.toNat 32832 = [])
    (hx : t.ownStrm h.ctx.toNat stream.toNat = some x) (hst : x.state = .open) (hfree : x.inst = none) (halign : mask.toNat % 64 = 0)
    (hend : mask.toNat + 32832 ≤ 2 ^ 48) (hg : t.gram h.ctx.toNat grammar.toNat = some g) (hwhole : g.damaged = false)
    (hquota : t.instsHeld h.ctx.toNat < t.obj 0x6005 1 h.ctx.toNat) (hall : tblCount t.txt.streams (fun _ y => y.inst.isSome) < 4096) :
    let r := t.bindSettle h.ctx.toNat stream.toNat (boundInst grammar mask escape g) g.image
    r.2.1 = false →
    exec (.grammarBind sq h stream grammar escape mask) s
      = .next (completed s (r.2.2.setStrm stream.toNat { x with inst := some r.1 }) sq q h (.grammarBind stream grammar escape mask) 0) := by
  intro r halive
  show execGrammarBind sq h stream grammar escape mask s = _
  simp only [execGrammarBind, hcut, hlane, List.isEmpty_nil, Bool.not_true, Bool.false_and, Bool.and_false, Bool.false_eq_true, if_false]
  refine State.streamCmd_accepted ha hn ?_
  simp only [r, State.bindSettle, boundInst] at halive ⊢
  simp only [hx, hst, hfree, halign, inSpace_of_le hend, hg, hwhole, Nat.not_le.2 hquota, Nat.not_le.2 hall, halive, ne_eq,
    not_true_eq_false, decide_false, Option.isSome_none, bne_self_eq_false, Bool.not_true, Bool.not_false, Bool.or_self, Bool.false_eq_true,
    if_false, if_true]

theorem exec_grammarUnbind {stream : BitVec 14} {x : TStream} (ha : Accepted s t sq q h (.grammarUnbind stream) [])
    (hn : NoEventFirst s h.ctx.toNat stream.toNat) (hx : t.ownStrm h.ctx.toNat stream.toNat = some x) :
    exec (.grammarUnbind sq h stream) s
      = .next (completed s (t.setStrm stream.toNat { x with inst := none }) sq q h (.grammarUnbind stream) 0) := by
  refine State.streamCmd_accepted ha hn ?_
  simp only [hx]

end

theorem grammarCommands : Sys2Proof.Parts.GrammarCommands := by
  unfold Sys2Proof.Parts.GrammarCommands
  intro s t sq q h
  exact ⟨fun grammar addr len => exec_grammarLoad, fun grammar => exec_grammarRemove, fun stream grammar escape mask x g => exec_grammarBind,
    fun stream x => exec_grammarUnbind⟩

/-! ### Token events (R272, R280) -/

/-- The text unit with the first token event of stream `n` taken. -/
def State.eventTaken (s : State) (n : Nat) : State := s.modTxt fun g => { g with events := dropEvent n g.events }

/-- The token is one of the vocabulary: a text token or a special one (R263). -/
def Vocab.lists (v : Vocab) (tok : Nat) : Prop :=
  tok < vocTokens v.image ∨ (vocSpFirst v.image ≤ tok ∧ tok < vocSpFirst v.image + vocSpCount v.image)

/-- What becomes of a listed token of an open stream, by what the grammar check finds. -/
def State.applyToken (s : State) (n : Nat) (ev : TokEvent) (x : TStream) (v : Vocab) : GramRes → State
  | .free => (s.eventTaken n).emitToken n x v ev.token false ev.end_
  | .rejected =>
    let r := endStream n x ((s.eventTaken n).count 0x6006 4) 4 stTokenRejected ev.token
    r.2.setStrm n r.1
  | .escaped => (s.eventTaken n).emitToken n { x with inst := endInst x.inst } v ev.token false true
  | .moved i m _ =>
    if s.uncopied x.ctx i.maskAddr 32832 = [] then
      let r := (s.eventTaken n).settleInst n x.ctx m i
      r.2.2.emitToken n { x with inst := some r.1 } v ev.token r.2.1 ev.end_
    else s.cbwHold (s.uncopied x.ctx i.maskAddr 32832) (some (2 ^ 21 + n))

section
variable {s : State} {n : Nat} {ev : TokEvent} {x : TStream} (hup : s.textUp = true)
  (hev : s.txt.events.find? (fun e => e.stream == n) = some ev) (hready : s.eventReady ev = true) (hx : s.ownStrm ev.ctx n = some x)
include hup hev hready hx

/-- A token event of a stream that is not open is counted. -/
theorem exec_tokenEvent_notOpen (hst : x.state ≠ .open) : exec (.tokenEvent n) s = .next ((s.eventTaken n).count 0x6006 5) := by
  show execTokenEvent n s = _
  simp only [execTokenEvent, hev, hup, hready, hx, Bool.not_true, Bool.or_self, Bool.false_eq_true, if_false]
  exact if_pos hst

theorem exec_tokenEvent_listed {v : Vocab} (hst : x.state = .open) (hv : s.voc x.ctx x.vocab = some v) (hwhole : v.damaged = false)
    (htok : v.lists ev.token) :
    exec (.tokenEvent n) s = .next (s.applyToken n ev x v (s.gramStep x.ctx x.inst ev.token)) := by
  have hlisted : (!decide (ev.token < vocTokens v.image)
      && !decide (vocSpFirst v.image ≤ ev.token ∧ ev.token < vocSpFirst v.image + vocSpCount v.image)) = false := by
    rcases htok with htext | hspecial
    · rw [decide_eq_true htext, Bool.not_true, Bool.false_and]
    · rw [decide_eq_true hspecial, Bool.not_true, Bool.and_false]
  show execTokenEvent n s = _
  simp only [execTokenEvent, hev, hup, hready, hx, not_not.2 hst, hv, hwhole, hlisted, Bool.not_true, Bool.or_self, Bool.false_eq_true, if_false]
  cases s.gramStep x.ctx x.inst ev.token with
  | free | rejected | escaped => rfl
  | moved i m acts =>
    cases hfs : s.uncopied x.ctx i.maskAddr 32832 with
    | nil | cons f fs =>
      simp only [State.applyToken, hfs]
      rfl

end

/-- A stream whose token its grammar rejects ends, and keeps nothing back. -/
theorem State.strm_applyToken_rejected (s : State) (n : Nat) (ev : TokEvent) (x : TStream) (v : Vocab) :
    ((s.applyToken n ev x v .rejected).strm n).map (fun y => (y.state, y.held, y.tail)) = some (.ended, [], []) := by
  obtain ⟨e, he⟩ := endStream_fst n x ((s.eventTaken n).count 0x6006 4) 4 stTokenRejected ev.token
  simp only [State.applyToken, State.strm_setStrm_self, he, Option.map_some]

theorem tokenEvents : Sys2Proof.Parts.TokenEvents := by
  unfold Sys2Proof.Parts.TokenEvents
  intro s n ev x hup hev hready hx
  refine ⟨exec_tokenEvent_notOpen hup hev hready hx, fun v hst hv hwhole htok => ?_⟩
  have hrule := exec_tokenEvent_listed hup hev hready hx hst hv hwhole htok
  refine ⟨fun hstep => ?_, fun hstep => ?_, fun i m acts hstep hcut => ?_, fun hstep => ?_⟩ <;> rw [hstep] at hrule
  · exact hrule
  · exact hrule
  · rw [State.applyToken, if_pos hcut] at hrule
    exact hrule
  · exact ⟨_, hrule, s.strm_applyToken_rejected n ev x v⟩

/-- Settles O48: each command, accepted under its conditions, has its rule; a token event has one rule for the stream that is not open, and one
for a listed token, by what the grammar check finds. -/
theorem grammarsAndTokenEvents : Obligations.GrammarsAndTokenEvents := ⟨grammarCommands, tokenEvents⟩

end Sys2Proof.Machine

/-! PROOFS. Rules that dispatch, restores and refills share: a table after a run of updates, each under a key of its own, quads in
ascending order, and the core of a step that fails. -/

namespace Sys2Proof.Machine

/-! ### A table after updates under different keys -/

section
variable {α β γ : Type} {get : Table α → Nat → γ} {step : Table α → β → Table α} {key : β → Nat} {l : List β}

/-- A key that no update names is looked up as before. -/
theorem get_foldl_of_notMem (hne : ∀ m y k, k ≠ key y → get (step m y) k = get m k) {k : Nat} (hk : k ∉ l.map key) (t : Table α) :
    get (l.foldl step t) k = get t k := by
  induction l generalizing t with
  | nil => rfl
  | cons y l ih =>
    obtain ⟨hy, hl⟩ := not_or.1 (mt List.mem_cons.2 hk)
    exact (ih hl _).trans (hne t y k hy)

/-- Where each update has its own key, a key is changed once, by its own update. `ok` is what the updates keep of the table. -/
theorem get_foldl_of_mem (ok : Table α → Prop) (f : β → γ → γ) (hne : ∀ m y k, k ≠ key y → get (step m y) k = get m k)
    (hself : ∀ m y, ok m → get (step m y) (key y) = f y (get m (key y))) (hok : ∀ m y, ok m → ok (step m y))
    (hn : (l.map key).Nodup) {x : β} (hx : x ∈ l) {t : Table α} (ht : ok t) : get (l.foldl step t) (key x) = f x (get t (key x)) := by
  induction l generalizing t with
  | nil => cases hx
  | cons y l ih =>
    obtain ⟨hy, hl⟩ := List.nodup_cons.1 hn
    rcases List.mem_cons.1 hx with rfl | hx
    · exact (get_foldl_of_notMem hne hy _).trans (hself t x ht)
    · have hxy : key x ≠ key y := fun e => hy (e ▸ List.mem_map_of_mem hx)
      rw [List.foldl_cons, ih hl hx (hok t y ht), hne t y _ hxy]

end

theorem tblFind_foldl_tblIns {α β : Type} {key : β → Nat} (val : β → α) {l : List β} (hn : (l.map key).Nodup) {x : β} (hx : x ∈ l)
    (t : Table α) : tblFind (l.foldl (fun m y => tblIns m (key y) (val y)) t) (key x) = some (val x) :=
  get_foldl_of_mem (fun _ => True) (fun y _ => some (val y)) (fun m _ _ h => tblFind_tblIns_of_ne m _ h)
    (fun m _ _ => tblFind_tblIns_self m _ _) (fun _ _ _ => trivial) hn hx trivial

theorem tblGet_foldl_tblPut {α β : Type} [DecidableEq α] (d : α) {key : β → Nat} (f : β → α → α) {l : List β} (hn : (l.map key).Nodup)
    {x : β} (hx : x ∈ l) {t : Table α} (ht : tblWf t = true) :
    tblGet d (l.foldl (fun m y => tblPut d m (key y) (f y (tblGet d m (key y)))) t) (key x) = f x (tblGet d t (key x)) :=
  get_foldl_of_mem (fun m => tblWf m = true) f (fun m _ _ h => tblGet_tblPut_of_ne d m _ h)
    (fun _ _ hm => tblGet_tblPut_self d hm _ _) (fun _ _ hm => tblWf_tblPut d hm _ _) hn hx ht

/-- The left parts of a list of pairs are among those that were paired. -/
theorem nodup_map_fst_zip {α β : Type} {l : List α} (h : l.Nodup) (l' : List β) : ((l.zip l').map Prod.fst).Nodup := by
  rw [List.zip_eq_zip_take_min, List.map_fst_zip (by simp)]
  exact h.sublist (List.take_sublist _ _)

/-! ### Quads in ascending order -/

theorem sorted_insAsc (a : Nat) {l : List Nat} (h : l.Pairwise (· < ·)) : (insAsc a l).Pairwise (· < ·) := by
  induction l with
  | nil => exact List.pairwise_singleton _ _
  | cons b l ih =>
    obtain ⟨hb, hl⟩ := List.pairwise_cons.1 h
    unfold insAsc
    split
    next hab => exact List.pairwise_cons.2 ⟨List.forall_mem_cons.2 ⟨hab, fun c hc => hab.trans (hb c hc)⟩, h⟩
    next hab =>
      split
      · exact h
      next hne =>
        refine List.pairwise_cons.2 ⟨fun c hc => ?_, ih hl⟩
        rcases (mem_insAsc a c l).1 hc with rfl | hc
        · omega
        · exact hb c hc

theorem sorted_sortNat (l : List Nat) : (sortNat l).Pairwise (· < ·) :=
  List.foldlRecOn l _ (motive := List.Pairwise (· < ·)) .nil fun _ h x _ => sorted_insAsc x h

theorem nodup_span (a n : Nat) : (span a n).Nodup := List.nodup_range.map (add_right_injective a)

/-- The four cores of each quad, and no core twice (R66). -/
theorem nodup_coresOfQuads (qs : List Nat) : ((sortNat qs).flatMap fun q => span (4 * q) 4).Nodup := by
  refine List.nodup_flatMap.2 ⟨fun q _ => nodup_span _ _, (sorted_sortNat qs).imp fun {a b} hab k ha hb => ?_⟩
  rw [mem_span] at ha hb
  omega

/-! ### A step that fails (R98; 16 R444) -/

@[simp] theorem State.markSlab_run (s : State) (k : Nat) : (s.markSlab k).run = s.run :=
  State.ite_run rfl (State.retireIdle_step _ _).run_eq

@[simp] theorem State.ueRead_run (s : State) (l ctx : Nat) (h : Option Nat) : (s.ueRead l ctx h).run = s.run := by
  rw [State.ueRead, State.count_run]
  exact State.ite_run (State.fatal_run _ _ _ _ _) (by simp)

/-- A failure of its step changes at most the phase of a core. -/
theorem State.core_stepFail_phase {s : State} {k : Nat} {c : Core} (hc : s.core k = some c) (n pos ip st : Nat) :
    ∃ ph, (s.stepFail n pos ip st).core k = some { c with ph := ph } := by
  have same : ∀ t : State, t.run.cores = s.run.cores → ∃ ph, t.core k = some { c with ph := ph } := fun t ht =>
    ⟨c.ph, (congrArg (tblFind · k) ht).trans hc⟩
  unfold State.stepFail
  split
  · exact same _ rfl
  next p _ =>
    dsimp only
    split
    next j _ =>
      by_cases hj : k = j
      · subst hj
        refine ⟨if c.step = n then .failed else c.ph, (tblFind_tblMod_self _ _ _).trans ?_⟩
        rw [show tblFind (s.setStp n _).run.cores k = some c from hc, Option.map_some]
        split <;> rfl
      · exact ⟨c.ph, (tblFind_tblMod_of_ne _ _ hj).trans hc⟩
    · exact same _ rfl

end Sys2Proof.Machine

/-! PROOFS. Dispatch of a step, the cores of a course at its start, and the return of a pre-empted course (10 R290-R294, R299, R302,
R303, R307; 03 R66, R71-R73). -/

namespace Sys2Proof.Machine

/-! ### STEP_DISPATCH (R290, R292-R294, R299, R307) -/

section
variable {s : State} {n : Nat} {p : Step} (hp : s.stp n = some p) (hm : s.mayDispatch p = true) (hs : s.slotOk p.ctx = true)
include hp hm hs

theorem exec_stepDispatch_keystone (hk : p.ks = true) : exec (.stepDispatch n) s = .next (s.dispatchKs n p) := by
  show execStepDispatch n s = _
  simp [execStepDispatch, hp, hm, hs, hk]

/-- A step of a periodic job whose quads are reserved. -/
theorem exec_stepDispatch_reserved {own : List Nat} (hk : p.ks = false) (hper : p.d.periodic = true)
    (hown : ((tblFind s.run.jobs p.jobId).map (·.resQuads)).getD [] = own) (hne : own ≠ []) (hmore : s.shareMore p own = true) :
    exec (.stepDispatch n) s = .next ((s.charge p.ctx 0 p.cost).launch n p own false) := by
  show execStepDispatch n s = _
  simp [execStepDispatch, hp, hm, hs, hk, hper, hown, hne, hmore]

/-- The step of a periodic job that makes its reservation. -/
theorem exec_stepDispatch_reserves {qs : List Nat} (hk : p.ks = false) (hper : p.d.periodic = true)
    (hown : ((tblFind s.run.jobs p.jobId).map (·.resQuads)).getD [] = []) (hplace : s.place1 p (s.blocked n) = some (qs, false)) :
    exec (.stepDispatch n) s = .next ((s.charge p.ctx 0 p.cost).launch n p qs false) := by
  show execStepDispatch n s = _
  simp [execStepDispatch, hp, hm, hs, hk, hper, hown, hplace]

/-- The step that fair queueing has chosen. -/
theorem exec_stepDispatch_chosen {b : Step} {qs : List Nat} {lent : Bool} (hk : p.ks = false) (hper : p.d.periodic = false)
    (hch : s.chosenStep = some (n, b)) (hplace : s.place1 p [] = some (qs, lent)) :
    exec (.stepDispatch n) s = .next (s.dispatchFq n p qs lent) := by
  show execStepDispatch n s = _
  simp [execStepDispatch, hp, hm, hs, hk, hper, hch, hplace]

end

theorem dispatchStartsAStep : Sys2Proof.Parts.DispatchStartsAStep := by
  unfold Sys2Proof.Parts.DispatchStartsAStep
  intro s n p hp hm hs
  exact ⟨exec_stepDispatch_keystone hp hm hs, fun own => exec_stepDispatch_reserved hp hm hs, fun qs => exec_stepDispatch_reserves hp hm hs,
    fun b qs lent => exec_stepDispatch_chosen hp hm hs⟩

/-! ### The cores of a course at its start (03 R66, R71-R73) -/

/-- A store at its start: the bytes given, and zero beyond them (R73). -/
theorem get_storeInit (bs : List Byte) (a : Nat) : (storeInit bs).get a = bs.getD a 0 := by
  have hbyte : memGet (memWrite [] 0 bs) a = bs.getD a 0 := by
    by_cases ha : a < bs.length
    · simpa using memGet_memWrite_inside (m := []) rfl 0 a bs ha
    · rw [memGet_memWrite_outside _ _ _ _ (.inr (by omega)), List.getD_eq_default _ _ (Nat.not_lt.1 ha)]
      rfl
  by_cases hw : (tblFind (storeInit bs).wr (a / 256)).isSome = true
  · exact (Store.get_of_written hw).trans hbyte
  · rw [Option.not_isSome_iff_eq_none] at hw
    rw [Store.get_of_not_written hw, List.getD_eq_default]
    by_contra ha
    have hline : a / 256 < ceilDiv bs.length 256 := by unfold ceilDiv; omega
    exact (tblFind_eq_none_iff _ _).1 hw _ (List.mem_map_of_mem (List.mem_range.2 hline)) rfl

/-- The core at position `i` of step `n` as it starts, its program copy beginning at cycle `t0` (R71-R73). -/
def State.startCore (s : State) (n i : Nat) (p : Step) (t0 : Nat) : Core :=
  coreInit n i p.d (s.program p.d) (s.cread p.ctx p.d.argAddr.toNat p.d.argLen.toNat) (t0 + copyCycles p.d)

/-- The core at position `i` of a dispatched course: a new one, at most failed already by a bad line of its program or arguments. -/
theorem State.core_launchAt {s : State} {qs : List Nat} {i k : Nat} (hk : ((sortNat qs).flatMap fun q => span (4 * q) 4)[i]? = some k)
    (n : Nat) (p : Step) (lent : Bool) (t0 : Nat) :
    ∃ ph, (s.launchAt n p qs lent t0).core k = some { s.startCore n i p t0 with ph := ph } := by
  have hpos : (k, i) ∈ ((sortNat qs).flatMap fun q => span (4 * q) 4).zipIdx := List.mem_zipIdx_iff_getElem?.2 hk
  have hnodup : (((sortNat qs).flatMap fun q => span (4 * q) 4).zipIdx.map Prod.fst).Nodup := by
    rw [List.zipIdx_map_fst]
    exact nodup_coresOfQuads qs
  have hcore := tblFind_foldl_tblIns (fun e => s.startCore n e.2 p t0) hnodup hpos s.run.cores
  unfold State.launchAt
  dsimp only
  split
  next l _ =>
    refine State.core_stepFail_phase (c := s.startCore n i p t0) ?_ _ _ _ _
    rw [State.core, State.ueRead_run]
    exact hcore
  next => exact ⟨_, hcore⟩

theorem launchedCoresStartClean : Sys2Proof.Parts.LaunchedCoresStartClean := by
  unfold Sys2Proof.Parts.LaunchedCoresStartClean
  intro s n i k p qs lent hk
  obtain ⟨ph, hcore⟩ := State.core_launchAt hk n p lent s.aclk
  exact ⟨_, hcore, rfl, rfl, rfl, rfl, rfl, rfl, rfl, rfl, rfl, rfl, fun a => Store.get_of_not_written rfl, fun a => get_storeInit _ a⟩

/-! ### The return of a pre-empted course (R302, R303) -/

/-- The machine with the course of step `n` back in its cores, responses held meanwhile not yet applied. -/
def State.restored (s : State) (n : Nat) (p : Step) : State :=
  s.modRun fun g => { g with
    cores := (p.cores.zip p.saved).foldl (fun m e => tblIns m e.1 (e.2.restore (s.program p.d) (s.aclk + copyCycles p.d))) g.cores
    steps := tblIns g.steps n { p with ph := .running, saved := [], started := s.aclk + copyCycles p.d } }

@[simp] theorem State.stp_restored (s : State) (n : Nat) (p : Step) :
    (s.restored n p).stp n = some { p with ph := .running, saved := [], started := s.aclk + copyCycles p.d } := tblFind_tblIns_self _ _ _

theorem State.core_restored (s : State) (n : Nat) {p : Step} {i k : Nat} {v : SavedCore} (hn : p.cores.Nodup) (hk : p.cores[i]? = some k)
    (hv : p.saved[i]? = some v) : (s.restored n p).core k = some (v.restore (s.program p.d) (s.aclk + copyCycles p.d)) :=
  tblFind_foldl_tblIns (fun e : Nat × SavedCore => e.2.restore (s.program p.d) (s.aclk + copyCycles p.d)) (nodup_map_fst_zip hn p.saved)
    (List.mem_of_getElem? (List.getElem?_zip_eq_some (z := (k, v)) |>.2 ⟨hk, hv⟩)) s.run.cores

section
variable {s : State} {n till start : Nat} {p : Step} (hl : s.live = true) (hp : s.stp n = some p) (hph : p.ph = .restoring till start)
  (htill : till ≤ s.aclk)
include hl hp hph htill

theorem exec_courseRestoreDone_good (hgood : p.restoreBad = none) (hheld : ∀ v ∈ p.saved, v.held = []) :
    exec (.courseRestoreDone n) s = .next (s.restored n p) := by
  have hnone : ((p.cores.zip p.saved).flatMap fun e => e.2.held.map fun h => (e.1, h)) = [] :=
    List.flatMap_eq_nil_iff.2 fun e he => by rw [hheld _ (List.of_mem_zip he).2, List.map_nil]
  show execCourseRestoreDone n s = _
  simp only [execCourseRestoreDone, hp, hph, hl, hgood, hnone, Nat.not_lt.2 htill, Bool.not_true, decide_false, Bool.or_self]
  rfl

theorem exec_courseRestoreDone_bad {at_ pos ip st : Nat} (hbad : p.restoreBad = some (at_, pos, ip, st)) :
    exec (.courseRestoreDone n) s = .next (s.endStep n st (some (pos, ip))) := by
  show execCourseRestoreDone n s = _
  simp [execCourseRestoreDone, hp, hph, hl, hbad, Nat.not_lt.2 htill]

end

theorem preemptedCoursesResume : Sys2Proof.Parts.PreemptedCoursesResume := by
  unfold Sys2Proof.Parts.PreemptedCoursesResume
  intro s n till start p hl hp hph htill
  refine ⟨fun hgood hheld => ⟨s.restored n p, exec_courseRestoreDone_good hl hp hph htill hgood hheld, ?_, rfl, rfl,
    fun i k v hn hk hv => s.core_restored n hn hk hv⟩, fun at_ pos ip st => exec_courseRestoreDone_bad hl hp hph htill⟩
  rw [State.stp_restored, Option.map_some]

/-- Settles O24: each path of a dispatch has its rule; the cores of a dispatch are inserted under different device numbers, and so are those
of a restore. -/
theorem stepsAreDispatched : Obligations.StepsAreDispatched := ⟨dispatchStartsAStep, launchedCoresStartClean, preemptedCoursesResume⟩

end Sys2Proof.Machine

/-! PROOFS. Releases of periodic jobs and refills of tokens (10 R294, R307). -/

namespace Sys2Proof.Machine

/-! ### PERIODIC_RELEASE (R294) -/

/-- Job `j` with its next release fallen, the `m`-th in a row with no step waiting. -/
def State.released (s : State) (j : Nat) (b : Job) (m : Nat) : State :=
  s.modRun fun g => { g with jobs := tblIns g.jobs j { b with rel := b.rel + 1, missed := m } }

theorem exec_periodicRelease_due {s : State} {ctx job j : Nat} {b : Job} (hl : s.live = true) (hj : s.jobOf ctx job = some (j, b))
    (hper : b.periodic = true) (hdue : b.t0 + b.rel * b.period ≤ s.tick) : exec (.periodicRelease ctx job) s =
    let m := if s.jobWaiting j = [] then b.missed + 1 else 0
    if m < 2 then .next (s.released j b m)
    else .next (((s.released j b m).endJob j).otherEvent b.cq ctx 0x0012 stPeriodLapse b.num 0) := by
  show execPeriodicRelease ctx job s = _
  rw [execPeriodicRelease, hj]
  dsimp only
  rw [if_neg (by simp [hl, hper, hdue])]
  simp only [List.isEmpty_iff]
  rfl

theorem periodicReleases : Sys2Proof.Parts.PeriodicReleases := by
  unfold Sys2Proof.Parts.PeriodicReleases
  intro s ctx job j b hl hj hper hdue
  have hrule := exec_periodicRelease_due hl hj hper hdue
  refine ⟨fun hw => ?_, fun hw hmiss => ?_, fun hw hmiss => ?_⟩
  · rw [hrule, if_neg hw]
    rfl
  · rw [hrule, if_pos hw, hmiss]
    rfl
  · have hlapse : ¬ b.missed + 1 < 2 := by omega
    rw [hrule, if_pos hw]
    exact if_neg hlapse

/-! ### TOKEN_REFILL (R307) -/

/-- The key of a context and a resource in the tables of fair queueing. -/
def fqKey (x : Nat × Nat) : Nat := x.1 * 8 + x.2

/-- No two pairs of a context and a resource have one key. -/
theorem nodup_map_fqKey {cs : List Nat} (h : cs.Nodup) : ((cs ×ˢ List.range 5).map fqKey).Nodup := by
  refine List.Nodup.map_on (fun x hx y hy hxy => ?_) (h.product List.nodup_range)
  have hx5 := List.mem_range.1 (List.mem_product.1 hx).2
  have hy5 := List.mem_range.1 (List.mem_product.1 hy).2
  unfold fqKey at hxy
  exact Prod.ext (by omega) (by omega)

/-- Sub-object `sub` of the tokens' object, as a table. -/
def State.fqTable (s : State) (sub : Nat) : Table Nat :=
  (List.range 256 ×ˢ List.range 5).foldl (fun m x => tblPut 0 m (fqKey x) (s.obj 0x5004 sub x.1 x.2)) []

theorem State.tblGet_fqTable (s : State) (sub : Nat) {c r : Nat} (hc : c < 256) (hr : r < 5) :
    tblGet 0 (s.fqTable sub) (fqKey (c, r)) = s.obj 0x5004 sub c r := by
  have hmem : (c, r) ∈ List.range 256 ×ˢ List.range 5 := List.mem_product.2 ⟨List.mem_range.2 hc, List.mem_range.2 hr⟩
  have hempty : tblWf ([] : Table Nat) = true := rfl
  have hput := tblGet_foldl_tblPut 0 (fun x _ => s.obj 0x5004 sub x.1 x.2) (nodup_map_fqKey List.nodup_range) hmem hempty
  exact hput

/-- Tokens `n` after a refill: RATE more, up to BURST. -/
def State.refill1 (s : State) (x : Nat × Nat) (n : Int) : Int :=
  min ((tblGet 0 (s.fqTable 2) (fqKey x) : Nat) : Int) (n + ((tblGet 0 (s.fqTable 1) (fqKey x) : Nat) : Int))

/-- The tokens of every enabled context after a refill. -/
def State.refilledTokens (s : State) : Table Int :=
  (s.ctxs ×ˢ List.range 5).foldl (fun m x => tblPut 0 m (fqKey x) (s.refill1 x (tblGet 0 m (fqKey x)))) s.run.tokens

theorem State.tblGet_refilledTokens {s : State} (hw : tblWf s.run.tokens = true) {c r : Nat} (hc : c < 256) (hr : r < 5)
    (hon : s.ctxOn c = true) : tblGet 0 s.refilledTokens (c * 8 + r)
      = min ((s.obj 0x5004 2 c r : Nat) : Int) (tblGet 0 s.run.tokens (c * 8 + r) + ((s.obj 0x5004 1 c r : Nat) : Int)) := by
  have hmem : (c, r) ∈ s.ctxs ×ˢ List.range 5 :=
    List.mem_product.2 ⟨List.mem_filter.2 ⟨List.mem_range.2 hc, hon⟩, List.mem_range.2 hr⟩
  have hput := tblGet_foldl_tblPut 0 s.refill1 (nodup_map_fqKey (List.nodup_range.filter _)) hmem hw
  rwa [State.refill1, s.tblGet_fqTable 2 hc hr, s.tblGet_fqTable 1 hc hr] at hput

/-- Refill `k` changes the tables of fair queueing and the count of KEYSTONE steps alone (R307, R308). -/
def State.refilled (s : State) (weight : Table Nat) : State :=
  s.modRun fun g => { g with
    rate := s.fqTable 1, burst := s.fqTable 2, tokens := s.refilledTokens, refill := s.tick / 62500, ksUsed := [], weight := weight }

theorem exec_tokenRefill {s : State} (hl : s.live = true) (hdue : s.run.refill < s.tick / 62500) :
    ∃ w, exec .tokenRefill s = .next (s.refilled w) := by
  refine ⟨(List.range 256).foldl (fun m c => tblPut 1 m c (s.obj 0x5003 1 c)) [], ?_⟩
  have htok : s.refilledTokens = s.ctxs.foldl (fun m c => (List.range 5).foldl (fun m r =>
      tblPut 0 m (fqKey (c, r)) (s.refill1 (c, r) (tblGet 0 m (fqKey (c, r))))) m) s.run.tokens := by
    simp only [State.refilledTokens, SProd.sprod, List.product, List.foldl_flatMap, List.foldl_map]
  show execTokenRefill s = _
  rw [State.refilled, htok, execTokenRefill, if_neg (by simp [hl, hdue])]
  rfl

theorem tokensRefill : Sys2Proof.Parts.TokensRefill := by
  unfold Sys2Proof.Parts.TokensRefill
  intro s hl hdue hw
  obtain ⟨w, hrule⟩ := exec_tokenRefill hl hdue
  exact ⟨s.refilled w, hrule, rfl, rfl, fun c r hc hr hon => State.tblGet_refilledTokens hw hc hr hon, rfl, rfl, rfl, rfl⟩

/-- Settles O25: a release that is due has one rule; a refill writes each context and resource under a key of its own. -/
theorem periodsAndRefills : Obligations.PeriodsAndRefills := ⟨periodicReleases, tokensRefill⟩

end Sys2Proof.Machine

/-! PROOFS. KEYSTONE arms (10 R298): the commands, the expiry, and that no arm is left where one ends. -/

namespace Sys2Proof.Machine

/-! ### The end of an arm -/

@[simp] theorem State.arms_preempt (s : State) (n : Nat) : (s.preempt n).run.arms = s.run.arms := by
  unfold State.preempt
  split <;> rfl

/-- Held courses continue or are pre-empted, and no arm changes. -/
@[simp] theorem State.arms_resume (s : State) (c : Nat) (ends : Bool) : (s.resume c ends).run.arms = s.run.arms := by
  have hpre : ∀ l : List Nat, (s.each l State.preempt).run.arms = s.run.arms := fun l =>
    List.foldlRecOn l State.preempt (motive := fun t => t.run.arms = s.run.arms) rfl fun t ht m _ => (t.arms_preempt m).trans ht
  unfold State.resume
  dsimp only
  rw [State.modRun_run]
  split
  · rfl
  · exact hpre _

theorem State.arms_armEnd {s : State} {c : Nat} {a : Arm} (ha : tblFind s.run.arms c = some a) :
    (s.armEnd c).run.arms = tblDel s.run.arms c := by
  simp only [State.armEnd, ha, State.arms_resume]
  split <;> rfl

theorem State.armed_armEnd {s : State} {c : Nat} {a : Arm} (hw : tblWf s.run.arms = true) (ha : tblFind s.run.arms c = some a) :
    (s.armEnd c).armed c = false := by
  rw [State.armed, State.arms_armEnd ha, tblFind_tblDel_self hw]
  rfl

/-! ### The commands and the expiry -/

section
variable {s t : State} {sq q : Nat} {h : CmdHdr} {hold : BitVec 20}

theorem exec_keystoneArm (ha : Accepted s t sq q h (.keystoneArm hold) []) (hlo : 1 ≤ hold.toNat) (hhi : hold.toNat ≤ 1000000) :
    exec (.keystoneArm sq h hold) s = .next (completed s (t.modRun fun g => { g with
      arms := tblIns g.arms h.ctx.toNat ⟨t.tick + hold.toNat * 625, false⟩ }) sq q h (.keystoneArm hold) 0) := by
  have hok : ¬ (decide (hold.toNat = 0) || decide (1000000 < hold.toNat)) = true := by simp; omega
  exact State.ringCmd_accepted ha (if_neg hok)

theorem exec_keystoneArm_badHold (ha : Accepted s t sq q h (.keystoneArm hold) []) (hbad : hold.toNat = 0 ∨ 1000000 < hold.toNat) :
    exec (.keystoneArm sq h hold) s = .next (rejected s t sq q h (.keystoneArm hold) stTiming) := by
  have hst : (decide (hold.toNat = 0) || decide (1000000 < hold.toNat)) = true := by simpa using hbad
  exact State.ringCmd_rejected ha (if_pos hst)

theorem exec_keystoneDisarm (ha : Accepted s t sq q h .keystoneDisarm []) :
    exec (.keystoneDisarm sq h) s = .next (completed s (t.armEnd h.ctx.toNat) sq q h .keystoneDisarm 0) :=
  State.ringCmd_accepted ha rfl

theorem exec_keystoneArmExpiry {c : Nat} {a : Arm} (hl : s.live = true) (ha : tblFind s.run.arms c = some a) (hpast : s.past a.till = true) :
    exec (.keystoneArmExpiry c) s = .next (s.armEnd c) := by
  show execKeystoneArmExpiry c s = _
  simp only [execKeystoneArmExpiry, ha, hl, hpast, Bool.and_self, if_true]

end

/-- Settles O26: each command, accepted, has its rule; the expiry ends the arm as a disarm does, and leaves none. -/
theorem keystoneArms : Obligations.KeystoneArms := by
  unfold Obligations.KeystoneArms
  intro s t sq q h hold
  exact ⟨exec_keystoneArm, exec_keystoneArm_badHold, exec_keystoneDisarm, fun c a => exec_keystoneArmExpiry,
    fun u c a => State.armed_armEnd⟩

end Sys2Proof.Machine

/-! PROOFS. Host transactions in SEQ order (11 R316): one that comes in its turn, with none held, is applied and nothing else. -/

namespace Sys2Proof.Machine

/-! ### A transaction in its turn -/

/-- The next transaction in SEQ order, with none held, is applied and nothing else (R316). -/
theorem State.hostTake_inTurn {s t : State} {h : SiteHdr} (ht : InTurn s t h) (o : HostOp) : s.hostTake h o = t.hostOp o := by
  obtain ⟨hcar, hseq, hheld, rfl⟩ := ht
  have hd : (s.site.hostSeq + 4096 - s.site.hostSeq) % 4096 = 0 := by omega
  have hnone : (s.flitOk h.module_).site.hostHeld = [] := hheld
  simp only [State.hostTake, hcar, hseq, hd, hnone, List.length_nil, State.hostRun, State.hostNext, Bool.not_true, Bool.false_eq_true,
    if_false, if_true, State.modSite]
  rfl

/-- The machine that applies a transaction is live where the one it came to is. -/
theorem InTurn.live_eq {s t : State} {h : SiteHdr} (ht : InTurn s t h) : t.live = s.live := by
  obtain ⟨-, -, -, rfl⟩ := ht
  rfl

/-! ### The rows of host transactions, with the numbers of their units in range (R316, R319, R320) -/

section
variable {s : State} {h : SiteHdr} {q : Nat}

theorem exec_doorbellSqTail {ring : Nat} (hr : ring ≤ 64) (tail : BitVec 9) :
    exec (.doorbellSqTail ⟨h, ring⟩ tail) s = .next (s.hostTake h (.sqTail ring tail)) := if_neg (Nat.not_lt.2 hr)

theorem exec_doorbellCqHead (hq : q < 64) (head : BitVec 16) :
    exec (.doorbellCqHead ⟨h, q⟩ head) s = .next (s.hostTake h (.cqHead q head)) := if_neg (Nat.not_le.2 hq)

theorem exec_qpEnable (hq : q < 64) : exec (.qpEnable ⟨h, q⟩) s = .next (s.hostTake h (.enable q)) := if_neg (Nat.not_le.2 hq)

theorem exec_qpDisable (hq : q < 64) : exec (.qpDisable ⟨h, q⟩) s = .next (s.hostTake h (.disable q)) := if_neg (Nat.not_le.2 hq)

end

end Sys2Proof.Machine

/-! PROOFS. A device that is not live (11 R331; 15 R420; 16 R453): what the operations shared by many rows do on it, the rows whose
guard stands deeper, and then every row that does not act, grouped by where its guard stands. -/

namespace Sys2Proof.Machine

/-! ### What the shared operations do on a device that is not live -/

section
variable {s : State} (hl : s.live = false)
include hl

theorem State.coreIsn_dead (k : Nat) (i : Isn) (f : Core → Step → Did) : s.coreIsn k i f = .next s :=
  State.coreIsn_away f (State.atIsn_dead k i hl)

theorem State.coreIsn'_dead (k : Nat) (i : Isn) (f : Core → Step → State) : s.coreIsn' k i f = .next s :=
  State.coreIsn'_away f (State.atIsn_dead k i hl)

theorem State.engRow_dead (n op : Nat) (sig : EngSig) (flt : Option EngFault)
    (run : Step → Core → FmtE → Option EngFault → Except Nat EngRes) : s.engRow n op sig flt run = .next s := by
  simp only [State.engRow, State.running_dead n hl]

theorem State.deliver_dead (n src dst : Nat) (sig : Bool) : s.deliver n src dst sig = s := by
  simp only [State.deliver, State.running_dead n hl]

theorem State.waitingCore_dead (k : Nat) : s.waitingCore k = none := by
  unfold State.waitingCore
  split
  · rfl
  · rw [State.running_dead _ hl]; rfl

theorem State.lateExpiry_dead (n kind : Nat) : s.lateExpiry n kind = s := by
  unfold State.lateExpiry
  split
  · exact if_neg (by simp [hl])
  · rfl

theorem State.streamCmd_dead (sq : Nat) (h : CmdHdr) (n : Nat) (c : HostCmd) (hosts : List (Nat × Nat)) (f : State → CmdOut) :
    s.streamCmd sq h n c hosts f = .next s :=
  ite_eq_left_iff.2 fun _ => State.ringCmd_dead h c hosts f hl

theorem State.migEvent_dead (handle : Nat) (m : MigMsg) (ph : MigPh → Bool) (f : State → Session → State) :
    s.migEvent handle m ph f = .next s := by
  unfold State.migEvent
  split
  · exact if_neg (by simp [hl])
  · rfl

theorem State.replayDue_dead (txn : Nat) (due : LineWait → Bool) (counts : Bool) : s.replayDue txn due counts = s := by
  unfold State.replayDue
  split
  · rfl
  · split
    · rfl
    · exact if_pos (by simp [hl])

theorem State.warn_dead (trig : Nat) : s.warn trig = s := if_neg (by simp [hl])
theorem State.mayDispatch_dead (p : Step) : s.mayDispatch p = false := by simp [State.mayDispatch, State.oper, hl]
theorem State.answering_dead : s.answering = false := by simp [State.answering, hl]
theorem State.textUp_dead : s.textUp = false := by simp [State.textUp, hl]

end

theorem State.unseat_live (s : State) (mover : Nat) : (s.unseat mover).live = s.live := by
  unfold State.unseat
  split
  · split <;> rfl
  · rfl

/-! ### Rows whose guard stands behind other questions -/

section
variable {s : State} (hl : s.live = false)
include hl

/-- A stream request completes for a running step alone (03 R83). -/
theorem exec_streamRequestComplete_dead (core : Nat) (ue : Option Nat) : exec (.streamRequestComplete core ue) s = .next s := by
  show execStreamRequestComplete core ue s = _
  simp only [execStreamRequestComplete, State.running_dead _ hl]
  split <;> rfl

theorem exec_streamStall_dead (n : Nat) : exec (.streamStall n) s = .next s := by
  show execStreamStall n s = _
  simp only [execStreamStall, State.running_dead _ hl, State.lateExpiry_dead hl]
  split <;> rfl

theorem exec_waitBoundExpiry_dead (core : Nat) : exec (.waitBoundExpiry core) s = .next s := by
  show execWaitBoundExpiry core s = _
  simp only [execWaitBoundExpiry, State.waitingCore_dead hl, State.lateExpiry_dead hl]
  cases s.lateWait core <;> rfl

theorem exec_courseRestoreDone_dead (n : Nat) : exec (.courseRestoreDone n) s = .next s := by
  show execCourseRestoreDone n s = _
  unfold execCourseRestoreDone
  split
  · rfl
  · split
    · exact if_pos (by simp [hl])
    · rfl

theorem exec_pageMoverStart_dead (mover : Nat) (ue : Option Nat) : exec (.pageMoverStart mover ue) s = .next s :=
  ite_eq_left_iff.2 fun _ => if_pos (by simp [s.unseat_live mover, hl])

theorem exec_offer_dead (o : Offer) : exec (.offer o) s = .next s := by
  show execOffer o s = _
  unfold execOffer
  split
  · rfl
  · exact if_pos (by simp [hl])

/-- A GRAMMAR_BIND that may not be taken holds nothing back, and waits for no lane (09 R278). -/
theorem exec_grammarBind_dead (sq : Nat) (h : CmdHdr) (stream : BitVec 14) (grammar : BitVec 6) (escape : BitVec 18) (mask : BitVec 48) :
    exec (.grammarBind sq h stream grammar escape mask) s = .next s := by
  have hm := State.mayTake_dead sq (.cmd h (.grammarBind stream grammar escape mask)) hl
  refine (if_neg (by simp [hm])).trans ((if_neg (by simp [hm])).trans (State.streamCmd_dead hl _ _ _ _ _ _))

theorem exec_bulkPacketSend_dead (node : Nat) : exec (.bulkPacketSend node) s = .next s := by
  show execBulkPacketSend node s = _
  unfold execBulkPacketSend
  dsimp only
  split
  · rfl
  · exact if_pos (by simp [hl])

theorem exec_placedSend_dead (node : Nat) : exec (.placedSend node) s = .next s := by
  show execPlacedSend node s = _
  unfold execPlacedSend
  split
  · rfl
  · split
    · rfl
    · dsimp only
      split
      · rfl
      · exact if_pos (by simp [hl])

theorem exec_ringBufferRelease_dead (n : Nat) : exec (.ringBufferRelease n) s = .next s := by
  show execRingBufferRelease n s = _
  unfold execRingBufferRelease
  split
  · rfl
  · split
    · exact if_pos (by simp [hl])
    · rfl

theorem exec_activationDrainExpiry_dead : exec .activationDrainExpiry s = .next s := by
  show execActivationDrainExpiry s = _
  unfold execActivationDrainExpiry
  split
  · split
    · exact if_neg (by simp [hl])
    · rfl
  · rfl

theorem exec_dieResetTimeout_dead (die : Nat) : exec (.dieResetTimeout die) s = .next s := by
  refine ite_eq_left_iff.2 fun _ => ?_
  split
  · exact if_neg (by simp [hl])
  · rfl

theorem exec_unknownCommandEntry_dead (sq : Nat) (typ : BitVec 8) : exec (.unknownCommandEntry sq typ) s = .next s := by
  refine ite_eq_left_iff.2 fun _ => ?_
  split
  · exact if_pos (by simp [State.mayTake_dead _ _ hl])
  · rfl

end

/-! ### Every row that does not act -/

/-- On a device that is not live a row that is not one of those that act changes nothing (16 R453): it needs a running step, an entry
that may be taken, or `live` itself. -/
theorem exec_dead {s : State} (hl : s.live = false) {c : Instr} (hc : actsWhenStopped c = false) : exec c s = .next s := by
  cases c with
  -- no core stands at an instruction, and no course runs
  | nop | setp | addp | setc | ldc | setk | loop | brc | jmp | vec | cvt | dmaLs | dmaCs | apndArm | unlistedOpcode =>
    exact State.coreIsn_dead hl _ _ _
  | endProg | strRd | strWr | strSpread | strPage | put | addput | signal | wait | get | atom | barrier | ppoint | apndWrite | post =>
    exact State.coreIsn'_dead hl _ _ _
  | engMm | engAts | engAtv => exact State.engRow_dead hl _ _ _ _ _
  | messageDeliver | signalApply => exact congrArg _ (State.deliver_dead hl _ _ _ _)
  | barrierRelease | ppointRelease | courseRealign =>
    simp only [exec, execBarrierRelease, execPpointRelease, execCourseRealign, State.running_dead _ hl]
  | waitMet => simp only [exec, execWaitMet, State.waitingCore_dead hl]
  | waitBoundExpiry => exact exec_waitBoundExpiry_dead hl _
  | streamRequestComplete => exact exec_streamRequestComplete_dead hl _ _
  | streamStall => exact exec_streamStall_dead hl _
  | courseRestoreDone => exact exec_courseRestoreDone_dead hl _
  -- no entry of a ring is taken
  | keystoneArm | keystoneDisarm | sessionCreate | sessionDrop | sessionTruncate | sessionRelease | sessionPin | sessionQuery | bindInstall
  | bindRemove | adapterInstall | adapterRemove | park | revive | reviveHint | ttlSet | migrate | migrateIn | migrateInCancel | leaseSet
  | leaseClear | leaseLost | vocabLoad | vocabRemove | stopsetSet | grammarLoad | grammarRemove | regionSet | regionClear =>
    exact State.ringCmd_dead _ _ _ _ hl
  | streamOpen | streamClose | tokenize | grammarUnbind => exact State.streamCmd_dead hl _ _ _ _ _ _
  | grammarBind => exact exec_grammarBind_dead hl _ _ _ _ _ _
  | stepDescriptor => exact if_pos (by simp [State.mayTake_dead _ _ hl])
  | unknownCommandEntry => exact exec_unknownCommandEntry_dead hl _ _
  -- `live` is the first question
  | tokenRefill | lossSweep | cutComplete | lineRequestReceive | lineResponseReceive | portBringup | mapBegin | mapData | bulkPacketReceive
  | bulkAckReceive | bulkPlacedReceive | gatewayRelay | gatewayRelayDrop | gwBatchClose | keyxReceive =>
    exact if_pos (by simp [hl, State.answering_dead hl])
  | frameScrub | ckptHoldExpiry | cbwRelease => exact if_neg (by simp [hl])
  | ckptNotice => exact congrArg _ (ite_eq_right_iff.2 fun _ => State.warn_dead hl _)
  | epochWaitReplay | gatewayBusyReplay => exact congrArg _ (State.replayDue_dead hl _ _ _)
  | accept | refuse | ready | release | abort =>
    simp only [exec, execAccept, execRefuse, execReady, execRelease, execAbort, State.migEvent_dead hl]
  -- it comes behind the number of a unit
  | patrolRead | linkFrameReceive | dieResetRelease | portLaneLoss | portTrainingDone | memoryIslandFailure | dieSequencerOrRailFault =>
    exact ite_eq_left_iff.2 fun _ => if_pos (by simp [hl])
  | dieResetTimeout => exact exec_dieResetTimeout_dead hl _
  | pageMoverStart => exact exec_pageMoverStart_dead hl _ _
  -- it comes behind the record the row is about
  | stepDispatch | periodicRelease | keystoneArmExpiry | parkPendStart | ttlExpiry | hintLapse | migrateReadyTimeout | migratePeerTimeout
  | lineRequestSend | lineTimeout | bulkRetxTimeout | bulkMessageHorizon | getTimeout | lwRecordDiscard | quarantineEnd | activationDone
  | cutInstant | serviceDegradedClear | tokenEvent =>
    simp only [exec, execStepDispatch, execPeriodicRelease, execKeystoneArmExpiry, execParkPendStart, execTtlExpiry, execHintLapse,
      execMigrateReadyTimeout, execMigratePeerTimeout, execLineRequestSend, execLineTimeout, execBulkRetxTimeout, execBulkMessageHorizon,
      execGetTimeout, execLwRecordDiscard, execQuarantineEnd, execActivationDone, execCutInstant, execServiceDegradedClear, execTokenEvent]
    split <;> simp [hl, State.mayDispatch_dead hl, State.textUp_dead hl]
  | wcetOverrun | stepDeadline | ppGapExpiry =>
    simp only [exec, execWcetOverrun, execStepDeadline, execPpGapExpiry, State.lateExpiry_dead hl]
    split <;> simp [hl]
  | plinthResetEnding | plinthResetPhase3 =>
    simp only [exec, execPlinthResetEnding, execPlinthResetPhase3]
    split
    · exact if_neg (by simp [hl])
    · rfl
  | regionClearDone | getDataSend | plinthResetRelease =>
    simp only [exec, execRegionClearDone, execGetDataSend, execPlinthResetRelease]
    split
    · exact if_pos (by simp [hl])
    · rfl
  | flushSend | tokenizeDone | completionSpillWrite | pageLand =>
    simp only [exec, execFlushSend, execTokenizeDone, execCompletionSpillWrite, execPageLand]
    split
    · rfl
    · split
      · rfl
      · exact if_pos (by simp [hl, State.textUp_dead hl])
  | offer => exact exec_offer_dead hl _
  | bulkPacketSend => exact exec_bulkPacketSend_dead hl _
  | placedSend => exact exec_placedSend_dead hl _
  | ringBufferRelease => exact exec_ringBufferRelease_dead hl _
  | activationDrainExpiry => exact exec_activationDrainExpiry_dead hl
  -- the rows that act
  | _ => cases hc

/-! ### A cycle, and host writes in their turn -/

/-- A device that is not live counts its cycle, or not even that (15 R420; 16 R453). -/
theorem State.cycle_dead {s : State} (hl : s.live = false) : s.cycle = s ∨ s.cycle = s.modDev fun d => { d with nclk := d.nclk + 1 } := by
  have hcount : (s.modDev fun d => { d with nclk := d.nclk + 1 }).live = false := hl
  unfold State.cycle
  split
  · exact .inl rfl
  · simp [hl, hcount]

/-- A write on a device that is not live is discarded in its turn (R331). -/
theorem State.hostTake_dead {s t : State} {h : SiteHdr} (ht : InTurn s t h) (hl : s.live = false) {o : HostOp}
    (ho : ∀ off tag n, o ≠ .read off tag n) : s.hostTake h o = t := by
  have hdead : (!t.live) = true := by rw [ht.live_eq, hl]; rfl
  rw [State.hostTake_inTurn ht]
  cases o with
  | read off tag n => exact absurd rfl (ho off tag n)
  | write | sqTail | cqHead | enable | disable => exact if_pos hdead

/-- Settles O58: the rows by `exec_dead`, the cycle by `State.cycle_dead`, and a write in its turn leaves only its number behind. -/
theorem aStoppedDeviceStaysAsItIs : Obligations.AStoppedDeviceStaysAsItIs := by
  unfold Obligations.AStoppedDeviceStaysAsItIs
  intro s t c l hl
  refine ⟨fun hc => exec_dead (s := s.withPending l) hl hc, fun hp hs => ?_, fun h off bs ring tail q head ht hring hq => ?_⟩
  · have hcycle : s.cycle = t := by simpa [step, hp] using hs
    exact hcycle ▸ State.cycle_dead hl
  · have hdrop : ∀ o : HostOp, (∀ off tag n, o ≠ .read off tag n) → (.next (s.hostTake h o) : Res) = .next t :=
      fun o ho => congrArg _ (State.hostTake_dead ht hl ho)
    rw [exec_doorbellSqTail hring, exec_doorbellCqHead hq, exec_qpEnable hq, exec_qpDisable hq]
    exact ⟨hdrop _ nofun, hdrop _ nofun, hdrop _ nofun, hdrop _ nofun, hdrop _ nofun⟩

end Sys2Proof.Machine

/-! PROOFS. The checks that every command of a ring passes (11 R325; 10 R286): one rule for each check that can be the first to fail. -/

namespace Sys2Proof.Machine

/-! ### The first check that fails -/

section
variable {s : State} {sq : Nat} {h : CmdHdr} {c : HostCmd} {hosts : List (Nat × Nat)} (f : State → CmdOut)
  (hm : s.mayTake sq (.cmd h c) = true)
include hm

theorem State.command_badRing (hq : s.cqOk sq (.cmd h c) = false ∨ s.evOk sq h.ctx.toNat c = false) :
    s.command sq h c hosts f = rejected s (s.takeEntry sq (s.target sq (.cmd h c))) sq (s.target sq (.cmd h c)) h c stQueue := by
  have hbad : (!s.cqOk sq (.cmd h c) || !s.evOk sq h.ctx.toNat c) = true := by simpa using hq
  simp only [State.command, hm, hbad, Bool.not_true, Bool.false_eq_true, if_false, if_true]
  rfl

variable (hq : s.cqOk sq (.cmd h c) = true) (he : s.evOk sq h.ctx.toNat c = true)
include hq he

theorem State.command_badHost (hw : ∃ w ∈ hosts, s.hostOk (s.target sq (.cmd h c)) w.1 w.2 = false) :
    s.command sq h c hosts f = rejected s (s.takeEntry sq (s.target sq (.cmd h c))) sq (s.target sq (.cmd h c)) h c stHostWindow := by
  have hbad : (hosts.any fun w => !s.hostOk (s.target sq (.cmd h c)) w.1 w.2) = true := by simpa using hw
  simp only [State.command, hm, hq, he, hbad, Bool.not_true, Bool.or_self, Bool.false_eq_true, if_false, if_true]
  rfl

variable (hw : ∀ w ∈ hosts, s.hostOk (s.target sq (.cmd h c)) w.1 w.2 = true)
include hw

theorem State.command_badCtx (hc : s.ctxOk sq h.ctx.toNat = false) :
    s.command sq h c hosts f = rejected s (s.takeEntry sq (s.target sq (.cmd h c))) sq (s.target sq (.cmd h c)) h c stDescField := by
  have hany : (hosts.any fun w => !s.hostOk (s.target sq (.cmd h c)) w.1 w.2) = false := by simpa using hw
  simp only [State.command, hm, hq, he, hany, hc, Bool.not_true, Bool.not_false, Bool.or_self, Bool.false_eq_true, if_false, if_true]
  rfl

/-- The KEYSTONE ring takes KEYSTONE commands alone (10 R286). -/
theorem State.command_badClass (hc : s.ctxOk sq h.ctx.toNat = true) (hs : sq = 64) (hk : ksCmd c = false) :
    s.command sq h c hosts f = rejected s (s.takeEntry sq (s.target sq (.cmd h c))) sq (s.target sq (.cmd h c)) h c stJobClass := by
  have hany : (hosts.any fun w => !s.hostOk (s.target sq (.cmd h c)) w.1 w.2) = false := by simpa using hw
  have hclass : (decide (sq = 64) && !ksCmd c) = true := by simp [hs, hk]
  simp only [State.command, hm, hq, he, hany, hc, hclass, Bool.not_true, Bool.or_self, Bool.false_eq_true, if_false, if_true]
  rfl

end

/-- Every command but TOKENIZE completes with a COMMAND entry (R323, R328). -/
theorem State.entryDone_command {c : HostCmd}
    (hc : ∀ stream last inAddr len outAddr outCap, c ≠ .tokenize stream last inAddr len outAddr outCap) (s : State)
    (sq cq ctx head : Nat) (tag : W64) (st r : Nat) :
    s.entryDone sq cq ctx head tag c st r = s.cmdDone sq cq ctx head tag (cmdCode c) st r := by
  unfold State.entryDone
  split
  · exact absurd rfl (hc _ _ _ _ _ _)
  · rfl

/-- Settles O27: a rule for each check in its turn, and the entry that a rejection writes. -/
theorem commandsAreCheckedInOrder : Obligations.CommandsAreCheckedInOrder := by
  unfold Obligations.CommandsAreCheckedInOrder
  rintro s _ sq _ h c hosts f hm rfl rfl
  exact ⟨State.command_badRing f hm, State.command_badHost f hm, State.command_badCtx f hm, State.command_badClass f hm,
    fun hn _ => State.entryDone_command hn _ _ _ _ _ _ _ _⟩

end Sys2Proof.Machine

/-! PROOFS. Completions and events (11 R324, R327, R330; 00 R5): queue pairs of the state, where an entry goes, and its bytes. -/

namespace Sys2Proof.Machine

/-! ### Queue pairs of the state (11 R319) -/

theorem State.qp_setQp_self {s : State} {q : Nat} (hq : q < s.site.qps.length) (p : Qp) : (s.setQp q p).qp q = p := by
  simp [State.qp, State.setQp, State.modSite, hq]

theorem State.qp_setQp_of_ne (s : State) {j q : Nat} (h : j ≠ q) (p : Qp) : (s.setQp q p).qp j = s.qp j := by
  simp [State.qp, State.setQp, State.modSite, List.getD_eq_getElem?_getD, List.getElem?_set_ne (Ne.symm h)]

@[simp] theorem State.length_qps_setQp (s : State) (q : Nat) (p : Qp) : (s.setQp q p).site.qps.length = s.site.qps.length :=
  List.length_set

theorem State.setQp_cqMem (s : State) (q : Nat) (p : Qp) : (s.setQp q p).site.cqMem = s.site.cqMem := rfl

/-! ### Windows (R318) -/

theorem within_mono {a n b m x k : Nat} (h : within a n b m = true) (hx : a ≤ x) (hk : x + k ≤ a + n) : within x k b m = true := by
  simp only [within, Bool.and_eq_true, decide_eq_true_eq] at h ⊢
  omega

/-- A window that holds a range holds every part of it. -/
theorem State.hostOk_mono {s : State} {q a n x k : Nat} (h : s.hostOk q a n = true) (hx : a ≤ x) (hk : x + k ≤ a + n) :
    s.hostOk q x k = true := by
  simp only [State.hostOk, tblAny, List.any_eq_true, Bool.and_eq_true] at h ⊢
  obtain ⟨w, hw, hv, hin⟩ := h
  exact ⟨w, hw, hv, within_mono hin hx hk⟩

/-! ### A read that two writes fill (R327) -/

theorem memRead_add (m : Mem) (a n k : Nat) : memRead m a (n + k) = memRead m a n ++ memRead m (a + n) k := by
  induction n generalizing a with
  | zero => simp [memRead]
  | succ n ih =>
    rw [Nat.succ_add, memRead, memRead, ih]
    simp [Nat.add_assoc, Nat.add_comm 1]

theorem memRead_memWrite_outside (m : Mem) (a x n : Nat) (bs : List Byte) (h : x + n ≤ a ∨ a + bs.length ≤ x) :
    memRead (memWrite m a bs) x n = memRead m x n := by
  induction n generalizing x with
  | zero => rfl
  | succ n ih => rw [memRead, memRead, memGet_memWrite_outside _ _ _ _ (by omega), ih _ (by omega)]

/-- Bytes written behind others read back with them as one string. -/
theorem memRead_memWrite_append {m : Mem} (hw : memWf m = true) (a : Nat) (front back : List Byte) :
    memRead (memWrite (memWrite m (a + front.length) back) a front) a (front.length + back.length) = front ++ back := by
  rw [memRead_add, memRead_memWrite (memWf_memWrite hw _ _), memRead_memWrite_outside _ _ _ _ _ (.inr le_rfl), memRead_memWrite hw]

/-! ### Where a formed entry goes (R324) -/

section
variable {s : State} {q : Nat} (e : CqEntry)

theorem State.unspill_full (hc : (s.qp q).cap ≤ (s.qp q).cqCount) (n : Nat) : s.unspill q n = s := by
  cases n with
  | zero => rfl
  | succ n =>
    unfold State.unspill
    dsimp only
    split
    · rfl
    · exact if_neg (Nat.not_lt.2 hc)

/-- Behind an empty spill an entry takes the free slot of its ring. -/
theorem State.place_free (hs : (s.qp q).spill = []) (hc : (s.qp q).cqCount < (s.qp q).cap) : s.place q e = s.writeEntry q e := by
  simp [State.place, hs, State.unspill, hc]

/-- With no slot free it waits at the end of the spill. -/
theorem State.place_full (hc : (s.qp q).cap ≤ (s.qp q).cqCount) :
    s.place q e = s.setQp q { s.qp q with spill := (s.qp q).spill ++ [e] } := by
  simp [State.place, State.unspill_full hc, Nat.not_lt.2 hc]

end

/-! ### The completion of an entry whose slot was reserved -/

/-- The machine that places the completion of an entry of ring `sq`: its slot in ring `q` is no longer reserved, and its work is done. -/
def State.settling (s : State) (sq q : Nat) : State :=
  let s1 := s.setQp q (if sq = 64 then { s.qp q with resvKs := (s.qp q).resvKs - 1 } else { s.qp q with resv := (s.qp q).resv - 1 })
  if sq < 64 then s1.setQp sq { s1.qp sq with work := (s1.qp sq).work - 1 } else s1

section
variable {s : State} {sq q : Nat}

theorem State.settle_eq (e : CqEntry) (hf : s.dev.siteFatal = false) (hen : (s.qp q).enabled = true) :
    s.settle sq q e = (s.settling sq q).place q e := by
  simp only [State.settle, State.settling, hf, hen, Bool.not_true, Bool.false_eq_true, if_false]

@[simp] theorem State.settling_out (s : State) (sq q : Nat) : (s.settling sq q).out = s.out := by
  unfold State.settling
  dsimp only
  split <;> rfl

theorem State.length_qps_settling (s : State) (sq q : Nat) : (s.settling sq q).site.qps.length = s.site.qps.length := by
  unfold State.settling
  dsimp only
  split <;> simp

/-- For an entry of another pair's ring: the slot is that ring's, the work the pair's own. -/
theorem State.qp_settling_of_ne (hsq : sq < 64) (hne : sq ≠ q) (hq : q < s.site.qps.length) (hlen : sq < s.site.qps.length) :
    (s.settling sq q).qp q = { s.qp q with resv := (s.qp q).resv - 1 }
    ∧ (s.settling sq q).qp sq = { s.qp sq with work := (s.qp sq).work - 1 } := by
  simp only [State.settling, if_pos hsq, if_neg (Nat.ne_of_lt hsq)]
  rw [State.qp_setQp_of_ne _ hne.symm, State.qp_setQp_self hq, State.qp_setQp_self (by simpa using hlen), State.qp_setQp_of_ne _ hne]
  exact ⟨rfl, rfl⟩

theorem State.qp_settling_self (hsq : q < 64) (hq : q < s.site.qps.length) :
    (s.settling q q).qp q = { s.qp q with resv := (s.qp q).resv - 1, work := (s.qp q).work - 1 } := by
  simp only [State.settling, if_pos hsq, if_neg (Nat.ne_of_lt hsq)]
  rw [State.qp_setQp_self (by simpa using hq), State.qp_setQp_self hq]

/-- What `place` looks at is as it was. -/
theorem State.qp_settling_ring (hsq : sq < 64) (hlen : s.site.qps.length = 64) (hq : q < 64) :
    ((s.settling sq q).qp q).spill = (s.qp q).spill ∧ ((s.settling sq q).qp q).cqCount = (s.qp q).cqCount
    ∧ ((s.settling sq q).qp q).cap = (s.qp q).cap := by
  by_cases hne : sq = q
  · subst hne
    rw [State.qp_settling_self hsq (hlen ▸ hq)]
    exact ⟨rfl, rfl, rfl⟩
  · rw [(State.qp_settling_of_ne hsq hne (hlen ▸ hq) (hlen ▸ hsq)).1]
    exact ⟨rfl, rfl, rfl⟩

variable (e : CqEntry) (hsq : sq < 64) (hlen : s.site.qps.length = 64) (hq : q < 64) (hf : s.dev.siteFatal = false)
  (hen : (s.qp q).enabled = true)
include hsq hlen hq hf hen

theorem State.settle_free (hs : (s.qp q).spill = []) (hc : (s.qp q).cqCount < (s.qp q).cap) :
    s.settle sq q e = (s.settling sq q).writeEntry q e := by
  obtain ⟨hspill, hcount, hcap⟩ := State.qp_settling_ring hsq hlen hq
  rw [State.settle_eq e hf hen, State.place_free e (hspill.trans hs) (hcount ▸ hcap ▸ hc)]

theorem State.settle_full (hc : (s.qp q).cap ≤ (s.qp q).cqCount) :
    ((s.settle sq q e).qp q).spill = (s.qp q).spill ++ [e] ∧ (s.settle sq q e).out = s.out := by
  obtain ⟨hspill, hcount, hcap⟩ := State.qp_settling_ring hsq hlen hq
  have hplen : q < (s.settling sq q).site.qps.length := by rw [State.length_qps_settling, hlen]; exact hq
  rw [State.settle_eq e hf hen, State.place_full e (hcount ▸ hcap ▸ hc), State.qp_setQp_self hplen, State.setQp_out, s.settling_out, hspill]
  exact ⟨rfl, rfl⟩

end

/-! ### The bytes of an entry (R5, R327, R330) -/

/-- Pair `p` once an entry is written to its ring in cycle `c` of NCLK. -/
def Qp.filled (p : Qp) (c : Nat) : Qp :=
  { p with cqTail := (p.cqTail + 1) % p.cap, phase := if (p.cqTail + 1) % p.cap = 0 then !p.phase else p.phase, cqCount := p.cqCount + 1,
           latch := some c }

/-- Where the next entry of pair `q` goes, when its ring lies in plinth SRAM (R317). -/
def siteSlot (q : Nat) (p : Qp) : Nat := 0x600000 + 0x10000 * q + 128 * p.cqTail

/-- The completion rings in plinth SRAM become `m`. -/
def State.withCqMem (s : State) (m : Mem) : State := s.modSite fun g => { g with cqMem := m }

@[simp] theorem State.withCqMem_out (s : State) (m : Mem) : (s.withCqMem m).out = s.out := rfl
@[simp] theorem State.withCqMem_qps (s : State) (m : Mem) : (s.withCqMem m).site.qps = s.site.qps := rfl
@[simp] theorem State.withCqMem_cqMem (s : State) (m : Mem) : (s.withCqMem m).site.cqMem = m := rfl

section
variable {s : State} {q : Nat} (e : CqEntry)

theorem State.writeEntry_inSite (hin : (s.qp q).cqInSite = true) :
    s.writeEntry q e = (s.withCqMem (memWrite (memWrite s.site.cqMem (siteSlot q (s.qp q) + 32) (leBytes 96 e.body)) (siteSlot q (s.qp q))
        (leBytes 32 (entryHeader e (s.qp q).phase)))).setQp q ((s.qp q).filled s.dev.nclk) := by
  simp only [State.writeEntry, State.withCqMem, State.modSite, Qp.filled, siteSlot, hin, if_true]

variable (hin : (s.qp q).cqInSite = false)
include hin

theorem State.writeEntry_inHost (hw : s.hostOk q (s.qp q).cqBase.toNat (128 * (s.qp q).cap) = true) :
    s.writeEntry q e = ((s.dwr ((s.qp q).cqBase.toNat + 128 * (s.qp q).cqTail + 32) (leBytes 96 e.body)).dwr
      ((s.qp q).cqBase.toNat + 128 * (s.qp q).cqTail) (leBytes 32 (entryHeader e (s.qp q).phase))).setQp q ((s.qp q).filled s.dev.nclk) := by
  simp only [State.writeEntry, Qp.filled, hin, hw, Bool.false_eq_true, if_false, if_true]

/-- A ring that lies in no window of its pair gets no bytes. -/
theorem State.writeEntry_nowhere (hw : s.hostOk q (s.qp q).cqBase.toNat (128 * (s.qp q).cap) = false) :
    s.writeEntry q e = s.setQp q ((s.qp q).filled s.dev.nclk) := by
  simp only [State.writeEntry, Qp.filled, hin, hw, Bool.false_eq_true, if_false]

end

theorem State.qp_writeEntry_self {s : State} {q : Nat} (hq : q < s.site.qps.length) (e : CqEntry) :
    (s.writeEntry q e).qp q = (s.qp q).filled s.dev.nclk := by
  cases hin : (s.qp q).cqInSite with
  | true => rw [State.writeEntry_inSite e hin, State.qp_setQp_self (by rw [State.withCqMem_qps]; exact hq)]
  | false =>
    cases hw : s.hostOk q (s.qp q).cqBase.toNat (128 * (s.qp q).cap) with
    | true => rw [State.writeEntry_inHost e hin hw, State.qp_setQp_self (by simpa [State.dwr] using hq)]
    | false => rw [State.writeEntry_nowhere e hin hw, State.qp_setQp_self hq]

/-- Settles O50: where an entry goes by `settle_free` and `settle_full`, its bytes by the place its ring lies in. -/
theorem completionsAndEvents : Obligations.CompletionsAndEvents := by
  unfold Obligations.CompletionsAndEvents
  intro s q e hq hlen
  have hqlen : q < s.site.qps.length := hlen ▸ hq
  refine ⟨fun sq hf => ⟨State.settle_fatal sq q e hf, State.event_fatal q e hf⟩, fun sq hsq hne hf hen hs hc => ?_, fun hf hen hs hc => ?_,
    fun sq hsq hf hen hc => State.settle_full e hsq hlen hq hf hen hc, fun hf => State.event_lost e hf, fun hin htail => ?_, fun hin => ?_,
    ?_, ?_⟩
  · obtain ⟨hpair, hring⟩ := State.qp_settling_of_ne hsq hne hqlen (hlen ▸ hsq)
    exact ⟨_, State.settle_free e hsq hlen hq hf hen hs hc, by rw [hpair], by rw [hring]⟩
  · have hpair := State.qp_settling_self (s := s) hq hqlen
    exact ⟨_, State.settle_free e hq hlen hq hf hen hs hc, by rw [hpair], by rw [hpair], by rw [hpair], s.settling_out q q⟩
  · cases hw : s.hostOk q (s.qp q).cqBase.toNat (128 * (s.qp q).cap) with
    | false => exact .inl ⟨by rw [State.writeEntry_nowhere e hin hw, State.setQp_out], rfl⟩
    | true =>
      refine .inr ⟨_, _, by rw [State.writeEntry_inHost e hin hw]; rfl, leBytes_length _ _, leBytes_length _ _, rfl, rfl, ?_⟩
      exact State.hostOk_mono hw (by omega) (by omega)
  · rw [State.writeEntry_inSite e hin]
    refine ⟨by rw [State.setQp_out, State.withCqMem_out], fun hmem => ?_⟩
    have hread := memRead_memWrite_append hmem (siteSlot q (s.qp q)) (leBytes 32 (entryHeader e (s.qp q).phase)) (leBytes 96 e.body)
    rw [leBytes_length, leBytes_length] at hread
    rw [State.setQp_cqMem, State.withCqMem_cqMem]
    exact hread
  · rw [State.qp_writeEntry_self hqlen]; rfl
  · rw [State.qp_writeEntry_self hqlen]; rfl

end Sys2Proof.Machine

/-! PROOFS. The host link (11 R313, R314): error records and their events leave it alone, it comes up, and its modules retrain. -/

namespace Sys2Proof.Machine

/-! ### Completions, events and error records leave the link alone -/

/-- `t` has the modules of `s`, and its link is up where that of `s` is. -/
def SameLink (s t : State) : Prop := t.site.modules = s.site.modules ∧ t.site.linkUp = s.site.linkUp

theorem SameLink.refl (s : State) : SameLink s s := ⟨rfl, rfl⟩
theorem SameLink.trans {s t u : State} (h : SameLink s t) (h2 : SameLink t u) : SameLink s u := ⟨h2.1.trans h.1, h2.2.trans h.2⟩
theorem SameLink.ite {s a b : State} {c : Prop} [Decidable c] (ha : SameLink s a) (hb : SameLink s b) : SameLink s (if c then a else b) := by
  split <;> assumption
theorem SameLink.setQp (s : State) (q : Nat) (p : Qp) : SameLink s (s.setQp q p) := ⟨rfl, rfl⟩
theorem SameLink.withCqMem (s : State) (m : Mem) : SameLink s (s.withCqMem m) := ⟨rfl, rfl⟩
theorem SameLink.dwr (s : State) (a : Nat) (d : List Byte) : SameLink s (s.dwr a d) := ⟨rfl, rfl⟩
theorem SameLink.count (s : State) (ix sub row n : Nat) : SameLink s (s.count ix sub row n) := ⟨rfl, rfl⟩
theorem SameLink.modErr (s : State) (f : Errs → Errs) : SameLink s (s.modErr f) := ⟨rfl, rfl⟩

theorem State.writeEntry_link (s : State) (q : Nat) (e : CqEntry) : SameLink s (s.writeEntry q e) := by
  cases hin : (s.qp q).cqInSite with
  | true => rw [State.writeEntry_inSite e hin]; exact (SameLink.withCqMem _ _).trans (.setQp _ _ _)
  | false =>
    cases hw : s.hostOk q (s.qp q).cqBase.toNat (128 * (s.qp q).cap) with
    | true => rw [State.writeEntry_inHost e hin hw]; exact ((SameLink.dwr _ _ _).trans (.dwr _ _ _)).trans (.setQp _ _ _)
    | false => rw [State.writeEntry_nowhere e hin hw]; exact .setQp _ _ _

theorem State.unspill_link (q n : Nat) (s : State) : SameLink s (s.unspill q n) := by
  induction n generalizing s with
  | zero => exact .refl s
  | succ n ih =>
    unfold State.unspill
    dsimp only
    split
    · exact .refl s
    · exact .ite (((SameLink.setQp _ _ _).trans (State.writeEntry_link _ _ _)).trans (ih _)) (.refl s)

theorem State.place_link (s : State) (q : Nat) (e : CqEntry) : SameLink s (s.place q e) :=
  (State.unspill_link q _ s).trans (.ite (State.writeEntry_link _ _ _) (.setQp _ _ _))

theorem State.event_link (s : State) (q : Nat) (e : CqEntry) : SameLink s (s.event q e) :=
  .ite (.refl s) (.ite (s.place_link q e) ((SameLink.setQp _ _ _).trans (.count _ _ _ _ _)))

theorem State.tellDegraded_link (s : State) (v : Nat) : SameLink s (s.tellDegraded v) := by
  unfold State.tellDegraded
  generalize s.ctxs = l
  induction l generalizing s with
  | nil => exact .refl s
  | cons c l ih =>
    rw [List.foldl_cons]
    split
    · exact (State.event_link _ _ _).trans (ih _)
    · exact ih s

theorem State.degrade_link (s : State) : SameLink s s.degrade :=
  (SameLink.ite (.refl s) (s.tellDegraded_link 1)).trans (.modErr _ _)

theorem State.record_link (s : State) (e : ErrIn) : SameLink s (s.record e) := by
  have hshared : ∀ t : State, SameLink s t → SameLink s (if e.shared then t.degrade else t) :=
    fun t h => .ite (h.trans t.degrade_link) h
  refine hshared _ ?_
  split
  · exact (SameLink.count _ _ _ _ _).trans (.modErr _ _)
  · exact .ite (((SameLink.count _ _ _ _ _).trans (.modErr _ _)).trans (.count _ _ _ _ _)) ((SameLink.count _ _ _ _ _).trans (.modErr _ _))

/-! ### The link comes up (R314) -/

section
variable {s : State}

theorem exec_siteLinkBringup {w : List Nat} (hlock : s.dev.locked = true) (hb : s.site.bringing = true) (hrail : s.dev.hostRail = 2)
    (hlen : w.length = 4) (hw : ∀ x ∈ w, x ≤ 3) (hup : ∃ x ∈ w, x ≠ 0) :
    exec (.siteLinkBringup w) s = .next (s.pairsOff.modSite fun g => { g with
      bringing := false, linkUp := true, retryAt := none, modules := w.map fun x => ⟨x, 0, false⟩, resetting := s.plinthDown }) := by
  have hany : (w.any fun x => decide (3 < x)) = false := by simpa using hw
  have hall : (w.all fun x => x == 0) = false := by simpa using hup
  show execSiteLinkBringup w s = _
  simp only [execSiteLinkBringup, hlock, hb, hrail, hlen, hany, hall, bne_self_eq_false, Bool.not_true, Bool.or_self, Bool.false_eq_true,
    if_false]

theorem exec_siteBringupRetry {x : Nat} (hlock : s.dev.locked = true) (hx : s.site.retryAt = some x) (hrail : s.dev.hostRail = 2)
    (hdown : s.site.linkUp = false) (hdue : x ≤ s.tick) :
    exec .siteBringupRetry s = .next (s.modSite fun g => { g with bringing := true, retryAt := none }) := by
  show execSiteBringupRetry s = _
  simp only [execSiteBringupRetry, hx, hlock, hrail, hdown, hdue, beq_self_eq_true, Bool.not_false, decide_true, Bool.and_self, if_true]

/-! ### Modules that replay and retrain (R313) -/

theorem getD_of_getElem? {α : Type} {l : List α} {i : Nat} {x : α} (h : l[i]? = some x) (d : α) : l.getD i d = x := by
  rw [List.getD_eq_getElem?_getD, h, Option.getD_some]

/-- Module `m` becomes `x`. -/
def State.setModule (s : State) (m : Nat) (x : Module) : State := s.modSite fun g => { g with modules := g.modules.set m x }

theorem State.module_setModule {s : State} {m : Nat} (hm : m < s.site.modules.length) (x : Module) :
    (s.setModule m x).site.modules[m]? = some x := List.getElem?_set_self hm

/-- Module `m` has come back at width code `w`, which is recorded where it is not the full one. -/
def State.retrained (s : State) (m w : Nat) : State :=
  if w < 3 then (s.setModule m ⟨w, 0, false⟩).record { sev := 0, code := 0x000F, source := 0x0A, unit := m, shared := true }
  else s.setModule m ⟨w, 0, false⟩

variable {m : Nat} {x : Module} (hm : m < 4) (hlock : s.dev.locked = true) (hx : s.site.modules[m]? = some x)
include hm hlock hx

/-- The eighth replay of a flit makes its module retrain. -/
theorem exec_ucieFlitReplay (hcar : s.carries m = true) :
    exec (.ucieFlitReplay m) s = .next
      ((s.record { sev := 0, code := 0x000F, source := 0x0A, unit := m, shared := decide (7 ≤ x.replays) }).setModule m
        (if 7 ≤ x.replays then ⟨x.width, 0, true⟩ else ⟨x.width, x.replays + 1, false⟩)) := by
  have hre : (8 ≤ x.replays + 1) = (7 ≤ x.replays) := by simp
  show execUcieFlitReplay m s = _
  simp only [execUcieFlitReplay, State.setModule, if_neg (Nat.not_le.2 hm), hlock, hcar, getD_of_getElem? hx, hre, Bool.not_true,
    Bool.or_self, Bool.false_eq_true, if_false, decide_eq_true_eq]

/-- A module that comes back at a width is up at that width, and the link stays as it was. -/
theorem exec_ucieRetrainDone {w : Nat} (hre : x.retraining = true) (hw : w ≤ 3) (hw0 : w ≠ 0) :
    ∃ t, exec (.ucieRetrainDone m w) s = .next t ∧ SameLink (s.setModule m ⟨w, 0, false⟩) t := by
  obtain ⟨hlt, -⟩ := List.getElem?_eq_some_iff.1 hx
  have hu : SameLink (s.setModule m ⟨w, 0, false⟩) (s.retrained m w) := .ite (State.record_link _ _) (.refl _)
  have hup : ((s.retrained m w).site.modules.all fun y => y.width == 0) = false := by
    have hmem := List.mem_of_getElem? (State.module_setModule hlt ⟨w, 0, false⟩)
    rw [hu.1, List.all_eq_false]
    exact ⟨_, hmem, by simpa using hw0⟩
  refine ⟨_, ?_, hu⟩
  show execUcieRetrainDone m w s = _
  simp only [execUcieRetrainDone, if_neg (Nat.not_le.2 hm), hlock, getD_of_getElem? hx, hre, Nat.not_lt.2 hw, hw0, decide_false, Bool.not_true,
    Bool.or_self, Bool.false_eq_true, if_false]
  exact if_neg (by rw [Bool.not_eq_true]; exact hup)

end

theorem hostLink : Sys2Proof.Parts.HostLink := by
  unfold Sys2Proof.Parts.HostLink
  intro s
  refine ⟨fun w hlock hb hrail hlen hw hup => ⟨_, exec_siteLinkBringup hlock hb hrail hlen hw hup, rfl, rfl, ?_, ?_, rfl, rfl, rfl⟩,
    fun x => exec_siteBringupRetry, fun m x hm hl hcar hx => ?_, fun m w x hm hl hx hre hw hw0 => ?_⟩
  · exact List.map_map.trans (List.map_id w)
  · intro p hp
    obtain ⟨_, -, rfl⟩ := List.mem_map.1 hp
    rfl
  · obtain ⟨hlt, -⟩ := List.getElem?_eq_some_iff.1 hx
    refine ⟨_, exec_ucieFlitReplay hm (State.locked_of_live hl) hx hcar, State.module_setModule ?_ _⟩
    rw [(State.record_link _ _).1]
    exact hlt
  · obtain ⟨hlt, -⟩ := List.getElem?_eq_some_iff.1 hx
    obtain ⟨t, ht, hmods, hlink⟩ := exec_ucieRetrainDone hm (State.locked_of_live hl) hx hre hw hw0
    exact ⟨t, ht, by rw [hmods, State.module_setModule hlt], hlink⟩

end Sys2Proof.Machine

/-! PROOFS. Register writes, doorbells, ENABLE and the reads of the latches (11 R316-R321, R330), spills and entries of unknown type
(11 R322, R324). -/

namespace Sys2Proof.Machine

/-! ### The machine that applies a transaction -/

section
variable {s t : State} {h : SiteHdr} (ht : InTurn s t h)
include ht

/-- Up to the numbers of the link it is the machine the transaction came to. -/
theorem InTurn.site_eq : t.site.qps = s.site.qps ∧ t.site.ks = s.site.ks ∧ t.site.wins = s.site.wins ∧ t.site.devSeq = s.site.devSeq := by
  obtain ⟨-, -, -, rfl⟩ := ht
  exact ⟨rfl, rfl, rfl, rfl⟩

theorem InTurn.dev_eq : t.dev = s.dev := by
  obtain ⟨-, -, -, rfl⟩ := ht
  rfl

theorem InTurn.out_eq : t.out = s.out := by
  obtain ⟨-, -, -, rfl⟩ := ht
  rfl

theorem InTurn.qp_eq (q : Nat) : t.qp q = s.qp q := by rw [State.qp, State.qp, ht.site_eq.1]

theorem InTurn.hostOk_eq (q a n : Nat) : t.hostOk q a n = s.hostOk q a n := by
  obtain ⟨-, -, hwins, -⟩ := ht.site_eq
  rw [State.hostOk, State.hostOk, hwins]

theorem InTurn.pairBusy_eq (q : Nat) : t.pairBusy q = s.pairBusy q := by
  rw [State.pairBusy, State.pairBusy, ht.qp_eq, ht.site_eq.1]

variable (hl : s.live = true)
include hl

theorem InTurn.not_dead : ¬ (!t.live) = true := by simp [ht.live_eq, hl]

theorem State.hostTake_write (off : Nat) (bs : List Byte) : s.hostTake h (.write off bs) = t.hostWrite off bs :=
  (State.hostTake_inTurn ht _).trans (if_neg (ht.not_dead hl))

theorem State.hostTake_sqTail (ring : Nat) (tail : BitVec 9) : s.hostTake h (.sqTail ring tail) = t.setTail ring tail.toNat :=
  (State.hostTake_inTurn ht _).trans (if_neg (ht.not_dead hl))

theorem State.hostTake_cqHead (q : Nat) (head : BitVec 16) : s.hostTake h (.cqHead q head) = t.freeSlots q head.toNat :=
  (State.hostTake_inTurn ht _).trans (if_neg (ht.not_dead hl))

theorem State.hostTake_enable (q : Nat) : s.hostTake h (.enable q) = t.enablePair q :=
  (State.hostTake_inTurn ht _).trans (if_neg (ht.not_dead hl))

theorem State.hostTake_disable (q : Nat) : s.hostTake h (.disable q) = t.disablePair q :=
  (State.hostTake_inTurn ht _).trans (if_neg (ht.not_dead hl))

end

/-! ### Writes (R316) -/

section
variable {s : State} {off : Nat} {bs : List Byte}

/-- Submission rings take any HWR that lies in them. -/
theorem State.hostWrite_rings (hal : off % 16 = 0) (hn0 : bs.length ≠ 0) (hn : bs.length % 16 = 0) (hmax : bs.length ≤ 4096)
    (hlo : 0x100000 ≤ off) (hhi : off + bs.length ≤ 0x510000) :
    s.hostWrite off bs = s.modSite fun g => { g with
      rings := memWrite g.rings off bs, badEntries := tblKeep g.badEntries fun k _ => !within (0x100000 + 128 * k) 128 off bs.length } := by
  have hmap : (siteMap.any fun r => within off bs.length r.1 r.2) = true :=
    List.any_eq_true.2 ⟨(0x100000, 0x410000), by decide, by simp only [within, Bool.and_eq_true, decide_eq_true_eq]; omega⟩
  have hbelow : ¬ 0x600000 ≤ off := by omega
  simp only [State.hostWrite, hal, hn, hmap, Nat.not_lt.2 hmax, hbelow, hlo, bne_self_eq_false, beq_eq_false_iff_ne.2 hn0, decide_false,
    Bool.not_true, Bool.or_self, Bool.false_eq_true, if_false, if_true]

/-- A write that no HWR can be is discarded and counted. -/
theorem State.hostWrite_malformed (hbad : off % 16 ≠ 0 ∨ bs.length % 16 ≠ 0 ∨ 4096 < bs.length) :
    s.hostWrite off bs = s.modSite fun g => { g with discards := (g.discards + 1) % 2 ^ 16 } := by
  refine if_pos ?_
  simp only [Bool.or_eq_true, bne_iff_ne, decide_eq_true_eq]
  tauto

end

/-! ### Doorbells (R320) -/

section
variable {s : State}

theorem State.setTail_pair {ring : Nat} (hr : ring < 64) (hen : (s.qp ring).enabled = true) (tail : Nat) :
    s.setTail ring tail = s.setQp ring { s.qp ring with sqTail := tail % 512 } :=
  (if_neg (Nat.ne_of_lt hr)).trans (if_pos hen)

/-- The tail of the KEYSTONE ring: its doorbell concerns no pair, and nothing leaves. -/
theorem State.setTail_keystone (hen : s.site.ks.enable = true) (tail : Nat) :
    (s.setTail 64 tail).site.ks.sqTail = tail % 512 ∧ (s.setTail 64 tail).site.qps = s.site.qps ∧ (s.setTail 64 tail).out = s.out := by
  rw [State.setTail, if_pos rfl, if_pos hen]
  exact ⟨rfl, rfl, rfl⟩

variable {q head : Nat} (hen : (s.qp q).enabled = true)
include hen

/-- Where CQ_HEAD does not come back to CQ_TAIL on a full ring, the slots between the two heads are freed, if they hold entries. -/
theorem State.freeSlots_within (hcap : head < (s.qp q).cap) (hne : head ≠ (s.qp q).cqTail ∨ (s.qp q).cqCount ≠ (s.qp q).cap) :
    s.freeSlots q head = if (s.qp q).cqCount < (head + (s.qp q).cap - (s.qp q).cqHead) % (s.qp q).cap then
        s.setQp q { s.qp q with dbErr := true }
      else s.setQp q { s.qp q with
        cqHead := head, cqCount := (s.qp q).cqCount - (head + (s.qp q).cap - (s.qp q).cqHead) % (s.qp q).cap } := by
  have hpart : ¬ (head = (s.qp q).cqTail ∧ (s.qp q).cqCount = (s.qp q).cap) := by tauto
  simp only [State.freeSlots, hen, Nat.not_le.2 hcap, hpart, Bool.not_true, Bool.false_eq_true, if_false, false_or]

theorem State.freeSlots_outside (hcap : (s.qp q).cap ≤ head) : s.freeSlots q head = s.setQp q { s.qp q with dbErr := true } := by
  simp only [State.freeSlots, hen, hcap, Bool.not_true, Bool.false_eq_true, if_false, true_or, if_true]

end

/-! ### ENABLE (R319) -/

section
variable {s : State} {q : Nat}

/-- A pair that is enabled with its ring in host memory: its rings are empty, and it keeps what host software has not read. -/
theorem State.enablePair_inHost (hoff : (s.qp q).enabled = false) (hin : (s.qp q).cqInSite = false) (hlo : 4 ≤ (s.qp q).cqLog2)
    (hhi : (s.qp q).cqLog2 ≤ 16) (hw : s.hostOk q (s.qp q).cqBase.toNat (128 * (s.qp q).cap) = true) :
    s.enablePair q = s.setQp q { qpReset with
      want := true, enabled := true, cqInSite := false, cqLog2 := (s.qp q).cqLog2, cqBase := (s.qp q).cqBase, dbErr := (s.qp q).dbErr,
      overflow := (s.qp q).overflow, latch := (s.qp q).latch } := by
  have hring : s.hostOk q (s.qp q).cqBase.toNat (128 * 2 ^ (s.qp q).cqLog2) = true := hw
  simp only [State.enablePair, Qp.cap, hoff, hin, hlo, hhi, hring, Bool.false_eq_true, if_false, decide_true, Bool.false_or, Bool.and_self, if_true]

theorem State.disablePair_idle (hb : s.pairBusy q = false) : s.disablePair q = s.setQp q { s.qp q with want := false, enabled := false } := by
  simp only [State.disablePair, hb, Bool.and_false]

theorem State.disablePair_busy (hb : s.pairBusy q = true) (hen : (s.qp q).enabled = true) :
    s.disablePair q = s.setQp q { s.qp q with want := true, enabled := true } := by
  simp only [State.disablePair, hb, hen, Bool.and_self]

end

/-! ### The ready latches (R330) -/

/-- RDY_PEND: bit `i` says whether the latch of pair `i` is set. -/
def latchMask (l : List Qp) : Nat := (l.mapIdx fun i p => if p.latch.isSome then 2 ^ i else 0).foldl (· + ·) 0

theorem latchMask_snoc (l : List Qp) (p : Qp) : latchMask (l ++ [p]) = latchMask l + if p.latch.isSome then 2 ^ l.length else 0 := by
  simp [latchMask, List.mapIdx_append]

theorem latchMask_lt (l : List Qp) : latchMask l < 2 ^ l.length := by
  induction l using List.reverseRecOn with
  | nil => decide
  | append_singleton l p ih =>
    rw [latchMask_snoc, List.length_append, List.length_singleton, Nat.pow_succ]
    split <;> omega

theorem bit_latchMask (l : List Qp) {i : Nat} (hi : i < l.length) : bit (latchMask l) i = (l.getD i qpReset).latch.isSome := by
  unfold bit
  induction l using List.reverseRecOn with
  | nil => exact absurd hi (Nat.not_lt_zero i)
  | append_singleton l p ih =>
    rw [List.length_append, List.length_singleton] at hi
    rw [latchMask_snoc]
    rcases Nat.lt_succ_iff_lt_or_eq.1 hi with hlt | rfl
    · rw [List.getD_append _ _ _ _ hlt, ← ih hlt]
      split
      · rw [Nat.add_comm, Nat.testBit_two_pow_add_gt hlt]
      · rfl
    · have htop : (latchMask l).testBit l.length = false := Nat.testBit_lt_two_pow (latchMask_lt l)
      rw [List.getD_append_right _ _ _ _ le_rfl, Nat.sub_self, List.getD_cons_zero]
      split
      next h => rw [Nat.add_comm, Nat.testBit_two_pow_add_eq, htop, h]; rfl
      next h => rw [Nat.add_zero, htop]; exact (Bool.eq_false_iff.2 h).symm

/-- The latches have been read: those not set in the cycle of the read are clear. -/
def State.latchesRead (s : State) : State := s.modSite fun g => { g with
  qps := g.qps.map fun p => { p with latch := latchRead s.dev.nclk p.latch }, ks := { g.ks with latch := latchRead s.dev.nclk g.ks.latch } }

theorem State.latch_latchesRead {s : State} {i : Nat} (hi : i < s.site.qps.length) :
    (s.latchesRead.qp i).latch = (s.qp i).latch.filter (· == s.dev.nclk) := by
  simp [State.qp, State.latchesRead, State.modSite, List.getD_eq_getElem?_getD, hi, latchRead]

/-- The 16 bytes at 0x10: the latches of the pairs, and that of the KEYSTONE queue. -/
theorem State.readRegs_latches {s : State} (hf : s.dev.siteFatal = false) :
    s.readRegs 0x10 2 = (leBytes 8 (latchMask s.site.qps) ++ leBytes 8 (b2n s.site.ks.latch.isSome), s.latchesRead) := by
  simp [State.readRegs, State.readReg, hf, latchMask, State.latchesRead, State.modSite]

theorem State.hostOp_readLatches {s : State} (hf : s.dev.siteFatal = false) (tag : BitVec 16) :
    s.hostOp (.read 0x10 tag 0) = (s.latchesRead.emit (.hrdr s.site.devSeq tag.toNat stOk
      (leBytes 8 (latchMask s.site.qps) ++ leBytes 8 (b2n s.site.ks.latch.isSome)))).modSite fun g => { g with devSeq := (g.devSeq + 1) % 4096 } := by
  have hdata : s.readData 0x10 16 = (leBytes 8 (latchMask s.site.qps) ++ leBytes 8 (b2n s.site.ks.latch.isSome), s.latchesRead) :=
    State.readRegs_latches hf
  have hok : ((0x10 : Nat) % 16 == 0 && siteMap.any fun r => within 0x10 16 r.1 r.2) = true := by decide
  show s.hostRead 0x10 tag.toNat 16 = _
  simp only [State.hostRead, hok, hdata, if_true]
  rfl

theorem exec_rdyPendRead {s : State} {h : SiteHdr} (off : Nat) (tag : BitVec 16) (n : BitVec 8) :
    exec (.rdyPendRead ⟨h, off, tag, n⟩) s = .next (s.hostTake h (.read off tag n)) := rfl

/-! ### Transactions out of their turn (R316) -/

section
variable {s : State} {h : SiteHdr} (o : HostOp)

theorem State.hostTake_lost (hcar : s.carries h.module_ = false) : s.hostTake h o = s := if_pos (by rw [hcar]; rfl)

variable (hcar : s.carries h.module_ = true)
include hcar

/-- One that comes ahead of its turn is held. -/
theorem State.hostTake_ahead (hpos : 0 < (h.seq.toNat + 4096 - s.site.hostSeq) % 4096)
    (hahead : (h.seq.toNat + 4096 - s.site.hostSeq) % 4096 < 2048) (hnew : tblFind s.site.hostHeld h.seq.toNat = none) :
    s.hostTake h o = (s.flitOk h.module_).modSite fun g => { g with hostHeld := tblIns g.hostHeld h.seq.toNat o } := by
  have hnew' : tblFind (s.flitOk h.module_).site.hostHeld h.seq.toNat = none := hnew
  simp only [State.hostTake, hcar, Nat.ne_of_gt hpos, Nat.not_le.2 hahead, hnew', Bool.not_true, Option.isSome_none, Bool.false_eq_true, or_self,
    if_false]

/-- One that was applied, or is held already, is dropped. -/
theorem State.hostTake_again (hold : 2048 ≤ (h.seq.toNat + 4096 - s.site.hostSeq) % 4096
    ∨ ((h.seq.toNat + 4096 - s.site.hostSeq) % 4096 ≠ 0 ∧ (tblFind s.site.hostHeld h.seq.toNat).isSome = true)) :
    s.hostTake h o = s.flitOk h.module_ := by
  have hne : (h.seq.toNat + 4096 - s.site.hostSeq) % 4096 ≠ 0 := by omega
  have hdrop : 2048 ≤ (h.seq.toNat + 4096 - s.site.hostSeq) % 4096 ∨ (tblFind (s.flitOk h.module_).site.hostHeld h.seq.toNat).isSome = true :=
    hold.imp_right And.right
  simp only [State.hostTake, hcar, hne, hdrop, Bool.not_true, Bool.false_eq_true, if_false, if_true]

end

/-! ### The statements -/

/-- On a live device: each write in its turn, by its row and by what its operation does. The machine that applies it is the one it came to
but for the numbers of the link, so that every condition may be read of it. -/
theorem hostTransactions : Sys2Proof.Parts.HostTransactions := by
  unfold Sys2Proof.Parts.HostTransactions
  refine ⟨fun s t h ht => ?_, fun s h o => ⟨State.hostTake_lost o, State.hostTake_ahead o, State.hostTake_again o⟩⟩
  obtain ⟨hqps, hks, -, hdev⟩ := ht.site_eq
  simp only [← ht.qp_eq, ← ht.hostOk_eq, ← ht.pairBusy_eq, ← ht.out_eq, ← ht.dev_eq, ← hqps, ← hks, ← hdev]
  refine ⟨fun hl => ⟨fun off bs hal hn0 hn hmax hlo hhi => ?_, fun off bs hbad => ?_, fun ring tail hr hen => ?_, fun tail hen => ?_,
    fun q head hq hen hcap _ hne hle => ?_, fun q head hq hen hcap _ hne hlt => ?_, fun q head hq hen hcap => ?_,
    fun q hq hoff hin hlo hhi hw hlen => ?_, fun q hq hlen => ?_⟩, fun tag hf hlen => ?_⟩
  · exact congrArg _ ((State.hostTake_write ht hl off bs).trans (State.hostWrite_rings hal hn0 hn hmax hlo hhi))
  · exact congrArg _ ((State.hostTake_write ht hl off bs).trans (State.hostWrite_malformed hbad))
  · rw [exec_doorbellSqTail (Nat.le_of_lt hr), State.hostTake_sqTail ht hl, State.setTail_pair hr hen]
  · rw [exec_doorbellSqTail le_rfl, State.hostTake_sqTail ht hl]
    exact ⟨_, rfl, State.setTail_keystone hen tail.toNat⟩
  · rw [exec_doorbellCqHead hq, State.hostTake_cqHead ht hl, State.freeSlots_within hen hcap (.inl hne), if_neg (Nat.not_lt.2 hle)]
  · rw [exec_doorbellCqHead hq, State.hostTake_cqHead ht hl, State.freeSlots_within hen hcap hne, if_pos hlt]
  · rw [exec_doorbellCqHead hq, State.hostTake_cqHead ht hl, State.freeSlots_outside hen hcap]
  · rw [exec_qpEnable hq, State.hostTake_enable ht hl, State.enablePair_inHost hoff hin hlo hhi hw]
    refine ⟨_, rfl, ?_⟩
    rw [State.qp_setQp_self (hlen ▸ hq)]
    exact ⟨rfl, rfl, rfl, rfl, rfl, rfl, rfl, rfl, rfl, rfl, fun j hj => State.qp_setQp_of_ne _ hj _⟩
  · rw [exec_qpDisable hq, State.hostTake_disable ht hl]
    refine ⟨fun hb => ⟨_, rfl, ?_⟩, fun hb hen => ⟨_, rfl, ?_⟩⟩
    · rw [State.disablePair_idle hb, State.qp_setQp_self (hlen ▸ hq)]
      exact ⟨rfl, fun j hj => State.qp_setQp_of_ne _ hj _⟩
    · rw [State.disablePair_busy hb hen, State.qp_setQp_self (hlen ▸ hq)]
      exact ⟨rfl, rfl⟩
  · rw [exec_rdyPendRead, State.hostTake_inTurn ht, State.hostOp_readLatches hf]
    exact ⟨_, latchMask t.site.qps, rfl, rfl, fun i hi => ⟨bit_latchMask _ (hlen ▸ hi), State.latch_latchesRead (hlen ▸ hi)⟩, rfl⟩

/-- The completion of an entry of unknown type (R322). -/
theorem exec_unknownCommandEntry {s : State} {sq q : Nat} {h : CmdHdr} (hsq : sq ≤ 64) (hhead : s.headEntry sq = some (.unknown q h))
    (hq : q < 256) (hm : s.mayTake sq (.unknown q h) = true) :
    exec (.unknownCommandEntry sq (BitVec.ofNat 8 q)) s = .next ((s.takeEntry sq (s.target sq (.unknown q h))).cmdDone sq
      (s.target sq (.unknown q h)) (s.qctx (s.target sq (.unknown q h))) ((s.takeEntry sq (s.target sq (.unknown q h))).sqHeadOf sq) h.tag q
      stCommand 0) := by
  have htyp : (BitVec.ofNat 8 q).toNat = q := by rw [BitVec.toNat_ofNat]; exact Nat.mod_eq_of_lt hq
  show execUnknownCommandEntry sq _ s = _
  simp only [execUnknownCommandEntry, if_neg (Nat.not_lt.2 hsq), hhead, htyp, hm, ne_eq, not_true_eq_false, decide_false, Bool.not_true,
    Bool.or_self, Bool.false_eq_true, if_false]

theorem exec_completionSpillWrite {s : State} {q : Nat} {e : CqEntry} {l : List CqEntry} (hq : q < 64) (hl : s.live = true)
    (hen : (s.qp q).enabled = true) (hs : (s.qp q).spill = e :: l) (hc : (s.qp q).cqCount < (s.qp q).cap) :
    exec (.completionSpillWrite q) s = .next ((s.setQp q { s.qp q with spill := l }).writeEntry q e) := by
  show execCompletionSpillWrite q s = _
  simp only [execCompletionSpillWrite, if_neg (Nat.not_le.2 hq), hs, hl, hen, Nat.not_le.2 hc, decide_false, Bool.not_true, Bool.or_self,
    Bool.false_eq_true, if_false]

theorem spillsAndUnknownEntries : Sys2Proof.Parts.SpillsAndUnknownEntries := by
  unfold Sys2Proof.Parts.SpillsAndUnknownEntries
  exact fun s => ⟨fun q e l => exec_completionSpillWrite, fun sq h q => exec_unknownCommandEntry⟩

/-- Settles O49: the link by its rows, transactions by the order of their SEQ and what each operation does, spills and unknown entries by theirs. -/
theorem hostSiteCommands : Obligations.HostSiteCommands := ⟨hostLink, hostTransactions, spillsAndUnknownEntries⟩

end Sys2Proof.Machine

/-! PROOFS. The key exchange (12 R349, R350): a hello that verifies, and the reply to an own hello. -/

namespace Sys2Proof.Machine

section
variable {s t : State} {p : Nat} {k : Keyx} (ha : s.answering = true) (hup : (s.port p).up = true)
  (hload : (s.takeFlits p 0 31).flowLoad k.srcNode.toNat = some t)
include ha hup hload

/-- A hello that verifies is answered and counted (R349). -/
theorem exec_keyxReceive_hello (hrole : k.role = 0) (hok : t.keyxOk k = true) :
    exec (.keyxReceive p k) s = .next ((t.helloIn k).count 0x7007 2) := by
  show execKeyxReceive p k s = _
  simp only [execKeyxReceive, ha, hup, hload, hrole, hok, Bool.not_true, Bool.or_self, Bool.false_eq_true, if_false, if_true]

/-- A reply while a hello is outstanding gives the keys if it verifies and names that hello; otherwise it ends the messages that wait (R350). -/
theorem exec_keyxReceive_reply {h : Hello} (hrole : k.role = 1) (hout : (t.fkeys k.srcNode.toNat).hello = some h) :
    exec (.keyxReceive p k) s = .next (if (t.keyxOk k && k.peerFresh == h.fresh) = true then (t.replyIn k h).count 0x7007 2
      else (t.helloEnd k.srcNode.toNat stAttest).count 0x7007 3) := by
  have hnotHello : k.role ≠ 0 := by rw [hrole]; decide
  show execKeyxReceive p k s = _
  simp only [execKeyxReceive, ha, hup, hload, if_neg hnotHello, if_pos hrole, hout, Bool.not_true, Bool.or_self, Bool.false_eq_true, if_false]

end

/-- Settles O44: a hello by its own rule, and both kinds of reply by the one test that a reply has to pass. -/
theorem keyExchange : Obligations.KeyExchange := by
  unfold Obligations.KeyExchange
  intro s t p k ha hup hload
  refine ⟨fun hrole => exec_keyxReceive_hello ha hup hload (BitVec.eq_of_toNat_eq hrole), fun h hrole hout hok hfresh => ?_,
    fun h hrole hout hbad => ?_⟩
  · have hpass : (t.keyxOk k && k.peerFresh == h.fresh) = true := by rw [hok, hfresh, beq_self_eq_true, Bool.and_self]
    rw [exec_keyxReceive_reply ha hup hload (BitVec.eq_of_toNat_eq hrole) hout, if_pos hpass]
  · have hfail : ¬(t.keyxOk k && k.peerFresh == h.fresh) = true := by rw [hbad, Bool.false_and]; exact Bool.false_ne_true
    rw [exec_keyxReceive_reply ha hup hload (BitVec.eq_of_toNat_eq hrole) hout, if_neg hfail]

end Sys2Proof.Machine

/-! PROOFS. Checkpoints and rings (13 R371, R373-R376; 04 R124): the notice, the cut and its copying, the hold that runs out, and the ring
buffer that is free. -/

namespace Sys2Proof.Machine

/-! ### The notice (R371) -/

theorem exec_ckptNotice {s : State} (hup : s.fabricUp = true) : exec .ckptNotice s = .next (s.warn 4) :=
  congrArg _ (if_pos hup)

/-! ### The cut and the hold before it (R373, R374) -/

section
variable {s : State} {ctx : Nat}

/-- A hold lasts, and its cut does not fall, while a step of the context runs. -/
theorem exec_cutInstant_runs {m : Manifest} (hman : (s.ckpt ctx).man = some m) (hrun : s.ctxRuns ctx = true) :
    exec (.cutInstant ctx) s = .next s := by
  show execCutInstant ctx s = _
  simp only [execCutInstant, hman, hrun, Bool.or_true, if_true]

variable (hl : s.live = true)
include hl

theorem exec_cutInstant {m : Manifest} (hman : (s.ckpt ctx).man = some m) (hst : (s.ckpt ctx).state = 1)
    (hrun : s.ctxRuns ctx = false) : exec (.cutInstant ctx) s = .next ((s.setCkpt ctx { s.ckpt ctx with
      state := 2, seq := ((s.ckpt ctx).seq + 1) % 2 ^ 32, step := s.cnum ctx m.mark 8, uncopied := coverOf ctx (s.ckpt ctx).shards }).ckptEvent
        ctx 0x0030 stOk (((s.ckpt ctx).seq + 1) % 2 ^ 32) 0) := by
  have hfalls : (!s.live || (s.ckpt ctx).state ≠ 1 || s.ctxRuns ctx) = false := by simp [hl, hst, hrun]
  show execCutInstant ctx s = _
  simp only [execCutInstant, hman, hfalls, Bool.false_eq_true, if_false]

theorem exec_ckptHoldExpiry (hst : (s.ckpt ctx).state = 1) (hrun : s.ctxRuns ctx = true)
    (hold : (s.ckpt ctx).since + s.obj 0x8004 2 * ticksPerUs ≤ s.tick) :
    exec (.ckptHoldExpiry ctx) s = .next ((s.ckptIdle ctx).ckptResult ctx stCkptHold) :=
  if_pos (by simp [hl, hst, hrun, hold])

/-! ### The copying (R375, R376) -/

omit hl in
/-- Nothing left to copy keeps a copy unit from nothing. -/
theorem State.cutWaits_nil (h : (s.ckpt ctx).uncopied = []) : s.cutWaits ctx = false := by
  simp [State.cutWaits, h]

/-- A cut that no other holds back copies the frames that remain, in their order; then the drain begins. -/
theorem exec_cutComplete (hst : (s.ckpt ctx).state = 2) (hw : s.cutWaits ctx = false) :
    let t := (s.ckpt ctx).uncopied.foldl (fun u f => u.copyFrame ctx f) s
    exec (.cutComplete ctx) s = .next (t.setCkpt ctx { t.ckpt ctx with state := 3, part := 0, placed := 0 }) :=
  if_neg (by simp [hl, hst, hw])

theorem exec_cutComplete_nil (hst : (s.ckpt ctx).state = 2) (hnil : (s.ckpt ctx).uncopied = []) :
    exec (.cutComplete ctx) s = .next (s.setCkpt ctx { s.ckpt ctx with state := 3, part := 0, placed := 0 }) := by
  rw [exec_cutComplete hl hst (State.cutWaits_nil hnil), hnil, List.foldl_nil]

omit hl in
theorem exec_cutComplete_waits (hw : s.cutWaits ctx = true) : exec (.cutComplete ctx) s = .next s :=
  if_pos (by rw [hw, Bool.or_true])

theorem exec_cbwRelease {f : Nat} (hst : (s.ckpt ctx).state = 2) (hf : ctx * 2 ^ 36 + f ∈ (s.ckpt ctx).uncopied)
    (hheld : (tblFind s.cks.held (ctx * 2 ^ 36 + f)).isSome = true) :
    exec (.cbwRelease ctx f) s = .next (s.copyFrame ctx (ctx * 2 ^ 36 + f)) :=
  if_pos (by simp only [hl, hst, hf, hheld, decide_true, Bool.and_self])

/-! ### The ring buffer (04 R124) -/

/-- The buffer of the next round is free once every core of the step has passed that round and its pages, all landed, have been sent on; the
pages of the last round go to no successor. -/
theorem exec_ringBufferRelease {n : Nat} {p : Step} {r : RingSt} {e : SeqEnt} (hp : s.stp n = some p) (hr : p.ring = some r)
    (he : p.seqs.head? = some e) (hw : p.waits = false) (hfail : p.fail = none) (hround : r.released + 1 < e.ringN)
    (hsent : r.released + 2 = e.ringN ∨ ((tblGet [] r.visits (r.released + 1)).length = (e.block (e.roundOf (r.released + 1))).length
      ∧ ∀ w ∈ tblGet [] r.visits (r.released + 1), w.done = true))
    (hcore : ∃ c ∈ s.run.cores, c.2.step = n)
    (hpast : ∀ c ∈ s.run.cores, c.2.step = n → c.2.ph = .ended ∨ ∃ a ∈ c.2.seg, a.1 % 64 = r.released + 2) :
    exec (.ringBufferRelease n) s
      = .next ((s.setStp n { p with ring := some { r with released := r.released + 1 } }).ringCredit n (r.released + 1)) := by
  have hsome : (s.run.cores.filter fun c => c.2.step == n).isEmpty = false := by simpa using hcore
  have hall : ((s.run.cores.filter fun c => c.2.step == n).all
      fun c => c.2.ph == .ended || c.2.seg.any fun a => a.1 % 64 == r.released + 1 + 1) = true := by
    simpa [← imp_iff_not_or] using hpast
  have hdone : (r.released + 1 + 1 == e.ringN
      || (tblGet [] r.visits (r.released + 1)).length == (e.block (e.roundOf (r.released + 1))).length
        && (tblGet [] r.visits (r.released + 1)).all (·.done)) = true := by
    simpa using hsent
  show execRingBufferRelease n s = _
  simp only [execRingBufferRelease, hp, hr, he, hl, hw, hfail, hsome, hall, hdone, decide_eq_false (Nat.not_le.2 hround),
    Option.isSome_none, Bool.not_true, Bool.or_self, Bool.false_eq_true, if_false]

end

/-- Settles O51: each row by its rule; the cut that completes here has no frame left, so no copy unit holds it back. -/
theorem checkpointEvents : Obligations.CheckpointEvents := by
  unfold Obligations.CheckpointEvents
  intro s ctx hl
  refine ⟨exec_ckptNotice, fun m => exec_cutInstant hl, fun m => exec_cutInstant_runs, exec_ckptHoldExpiry hl, exec_cutComplete_nil hl,
    fun _ => exec_cutComplete_waits, fun f => exec_cbwRelease hl, ?_⟩
  rintro n p r e _ hp hr he hw hfail rfl
  exact exec_ringBufferRelease hl hp hr he hw hfail

end Sys2Proof.Machine

/-! PROOFS. A step of the machine and the machine at reset (15; 11 R317, R319; 14 R400). -/

namespace Sys2Proof.Machine

/-- Settles O1: `step` looks at the front of the queue, and runs it. -/
theorem stepRunsFrontCommand : Obligations.StepRunsFrontCommand := by
  unfold Obligations.StepRunsFrontCommand
  exact fun _ _ _ => rfl

theorem step_of_empty {s : State} (h : s.pending = []) : step s = .next s.cycle := by simp only [step, h]

theorem State.cycle_unlocked {s : State} (h : s.dev.locked = false) : s.cycle = s := if_pos (by simp [h])

theorem State.cycle_fatal {s : State} (hk : s.dev.locked = true) (hf : s.dev.siteFatal = true) :
    s.cycle = s.modDev fun d => { d with nclk := d.nclk + 1 } := by
  have hl : s.live = false := by simp [State.live, hf]
  have hl' : (s.modDev fun d => { d with nclk := d.nclk + 1 }).live = false := hl
  simp [State.cycle, hk, hl, hl']

/-- Settles O2: the two halts of a cycle, before root lock and after a FATAL error. -/
theorem emptyQueueAdvancesTheClock : Obligations.EmptyQueueAdvancesTheClock := by
  unfold Obligations.EmptyQueueAdvancesTheClock
  intro s hp
  refine ⟨step_of_empty hp, fun hk => ?_, fun hk hf => ?_⟩
  · rw [step_of_empty hp, State.cycle_unlocked hk]
  · rw [step_of_empty hp, State.cycle_fatal hk hf]

theorem State.reset_qp (q : Nat) : State.reset.qp q = qpReset := List.getElem?_getD_replicate_default_eq qpReset 64 q
theorem State.reset_port (p : Nat) : State.reset.port p = portReset := List.getElem?_getD_replicate_default_eq portReset 18 p

/-- Settles O60: the lists of units by their lookups, all else by computation. -/
theorem theMachineAtReset : Obligations.TheMachineAtReset := by
  unfold Obligations.TheMachineAtReset
  exact ⟨State.reset_memOk, by decide, rfl, rfl, rfl, rfl, rfl, rfl, State.reset_qp, rfl, rfl, fun p _ => State.reset_port p,
    fun _ => ⟨rfl, rfl⟩, fun _ => rfl, fun _ => rfl, by decide, by decide, by decide⟩

end Sys2Proof.Machine

/-! PROOFS. Canonical memories (01; 03; 11). Every operation of the model, in the model's order, keeps the four memories canonical: the
lemma `Canonical.op` says so of `op`. Every row `execRow` goes on to a state whose memories stay canonical: `execRow_goes`. Both together
say of each step that it goes on and keeps the memories canonical. -/

namespace Sys2Proof.Machine

/-! ### Canonical memories, and their rules for the operations on the state -/

/-- The four memories of the device are in canonical form. -/
def Canonical (s : State) : Prop := s.memOk = true

/-- `r` goes on to a state whose memories are canonical if those of `s` are. -/
def Goes (s : State) (r : Res) : Prop := ∃ t, r = .next t ∧ (Canonical s → Canonical t)

/-- What `o` holds, if anything, has `P`. -/
def AllSome {α : Type} (P : α → Prop) (o : Option α) : Prop := ∀ a, o = some a → P a

/-- What `r` answers, unless an error, has `P`. -/
def AllOk {ε α : Type} (P : α → Prop) (r : Except ε α) : Prop := ∀ a, r = .ok a → P a

/-- The state that a command leaves has canonical memories. -/
def CmdOut.Canonical : CmdOut → Prop
  | .done _ _ t | .later t => Machine.Canonical t

namespace AllSome
variable {α β : Type} {P : α → Prop} {Q : β → Prop} {o o' : Option α}
theorem none : AllSome P none := nofun
theorem some {a : α} (h : P a) : AllSome P (some a) := by rintro _ ⟨⟩; exact h
theorem ite {c : Prop} [Decidable c] (h : AllSome P o) (h' : AllSome P o') : AllSome P (if c then o else o') := by split <;> assumption
theorem map {f : α → β} (h : AllSome P o) (hf : ∀ a, P a → Q (f a)) : AllSome Q (o.map f) := by
  cases o with
  | none => exact none
  | some a => exact some (hf a (h a rfl))

theorem map_any {f : α → β} (hf : ∀ a, Q (f a)) : AllSome Q (o.map f) := by
  cases o with
  | none => exact none
  | some a => exact some (hf a)

theorem bind {f : α → Option β} (h : AllSome P o) (hf : ∀ a, P a → AllSome Q (f a)) : AllSome Q (o.bind f) := by
  cases o with
  | none => exact none
  | some a => exact hf a (h a rfl)

theorem bind_any {f : α → Option β} (hf : ∀ a, AllSome Q (f a)) : AllSome Q (o.bind f) := by
  cases o with
  | none => exact none
  | some a => exact hf a

theorem foldl {f : Option α → β → Option α} (h : AllSome P o) (l : List β) (hf : ∀ o b, AllSome P o → AllSome P (f o b)) :
    AllSome P (l.foldl f o) := by
  induction l generalizing o with
  | nil => exact h
  | cons b l ih => exact ih (hf o b h)

theorem findSome? {f : β → Option α} (l : List β) (hf : ∀ b, AllSome P (f b)) : AllSome P (l.findSome? f) := by
  intro a ha
  obtain ⟨_, b, _, _, hb, _⟩ := List.findSome?_eq_some_iff.1 ha
  exact hf b a hb

end AllSome

namespace AllOk
variable {ε α β : Type} {P : α → Prop} {r r' : Except ε α}
theorem error {e : ε} : AllOk P (.error e) := nofun
theorem ok {a : α} (h : P a) : AllOk (ε := ε) P (.ok a) := by rintro _ ⟨⟩; exact h
theorem ite {c : Prop} [Decidable c] (h : AllOk P r) (h' : AllOk P r') : AllOk P (if c then r else r') := by split <;> assumption
theorem foldl {f : Except ε α → β → Except ε α} (h : AllOk P r) (l : List β) (hf : ∀ r b, AllOk P r → AllOk P (f r b)) :
    AllOk P (l.foldl f r) := by
  induction l generalizing r with
  | nil => exact h
  | cons b l ih => exact ih (hf r b h)

theorem bind {f : α → Except ε β} {Q : β → Prop} (h : AllOk P r) (hf : ∀ a, P a → AllOk Q (f a)) : AllOk Q (r.bind f) := by
  cases r with
  | error e => exact error
  | ok a => exact hf a (h a rfl)

end AllOk

namespace Canonical
variable {s : State} {α β : Type}
theorem modDev (h : Canonical s) (f : Dev → Dev) : Canonical (s.modDev f) := h
theorem modErr (h : Canonical s) (f : Errs → Errs) : Canonical (s.modErr f) := h
theorem modRun (h : Canonical s) (f : Run → Run) : Canonical (s.modRun f) := h
theorem modTxt (h : Canonical s) (f : Txt → Txt) : Canonical (s.modTxt f) := h
theorem modFab (h : Canonical s) (f : Fab → Fab) : Canonical (s.modFab f) := h
theorem modBulk (h : Canonical s) (f : Bulk → Bulk) : Canonical (s.modBulk f) := h
theorem modSec (h : Canonical s) (f : Sec → Sec) : Canonical (s.modSec f) := h
theorem modCks (h : Canonical s) (f : Cks → Cks) : Canonical (s.modCks f) := h
theorem modMg (h : Canonical s) (f : Mgs → Mgs) : Canonical (s.modMg f) := h
theorem emit (h : Canonical s) (o : Output) : Canonical (s.emit o) := h
theorem take1 (h : Canonical s) : Canonical s.take1.2 := h
theorem setObj (h : Canonical s) (ix sub row col v : Nat) : Canonical (s.setObj ix sub row col v) := h
theorem withPending (h : Canonical s) (l : List Instr) : Canonical (s.withPending l) := h

/-- An update of the sessions that leaves both of their memories as they are. -/
theorem modSes (h : Canonical s) (f : Ses → Ses) (hmem : ((f s.ses).hbm, (f s.ses).cmem) = (s.ses.hbm, s.ses.cmem)) :
    Canonical (s.modSes f) := by
  obtain ⟨hhbm, hcmem⟩ := Prod.mk.inj hmem
  exact State.memOk_modSes h f hhbm hcmem

/-- An update of the host site that leaves both kinds of rings as they are. -/
theorem modSite (h : Canonical s) (f : Site → Site)
    (hmem : ((f s.site).rings, (f s.site).cqMem) = (s.site.rings, s.site.cqMem)) : Canonical (s.modSite f) := by
  obtain ⟨hrings, hcq⟩ := Prod.mk.inj hmem
  exact State.memOk_modSite h f hrings hcq

/-- An update of the pages' memory alone. -/
theorem modSes_hbm (h : Canonical s) (f : Ses → Ses) (hhbm : memWf s.ses.hbm = true → memWf (f s.ses).hbm = true)
    (hcmem : (f s.ses).cmem = s.ses.cmem) : Canonical (s.modSes f) := by
  obtain ⟨h1, h2, h3, h4⟩ := (State.memOk_iff s).1 h
  exact (State.memOk_iff _).2 ⟨hhbm h1, hcmem ▸ h2, h3, h4⟩

/-- An update of context memory alone. -/
theorem modSes_cmem (h : Canonical s) (f : Ses → Ses) (hcmem : memWf s.ses.cmem = true → memWf (f s.ses).cmem = true)
    (hhbm : (f s.ses).hbm = s.ses.hbm) : Canonical (s.modSes f) := by
  obtain ⟨h1, h2, h3, h4⟩ := (State.memOk_iff s).1 h
  exact (State.memOk_iff _).2 ⟨hhbm ▸ h1, hcmem h2, h3, h4⟩

/-- An update of the submission rings alone. -/
theorem modSite_rings (h : Canonical s) (f : Site → Site) (hrings : memWf s.site.rings = true → memWf (f s.site).rings = true)
    (hcq : (f s.site).cqMem = s.site.cqMem) : Canonical (s.modSite f) := by
  obtain ⟨h1, h2, h3, h4⟩ := (State.memOk_iff s).1 h
  exact (State.memOk_iff _).2 ⟨h1, h2, hrings h3, hcq ▸ h4⟩

/-- An update of the completion rings alone. -/
theorem modSite_cqMem (h : Canonical s) (f : Site → Site) (hcq : memWf s.site.cqMem = true → memWf (f s.site).cqMem = true)
    (hrings : (f s.site).rings = s.site.rings) : Canonical (s.modSite f) := by
  obtain ⟨h1, h2, h3, h4⟩ := (State.memOk_iff s).1 h
  exact (State.memOk_iff _).2 ⟨h1, h2, hrings ▸ h3, hcq h4⟩

theorem cwrite (h : Canonical s) (ctx a : Nat) (bs : List Byte) : Canonical (s.cwrite ctx a bs) := State.memOk_cwrite h ctx a bs
theorem hwrite (h : Canonical s) (frame off : Nat) (bs : List Byte) : Canonical (s.hwrite frame off bs) := State.memOk_hwrite h frame off bs
theorem cleanLines (h : Canonical s) (f : Nat → Nat) (a n : Nat) : Canonical (s.cleanLines f a n) := State.memOk_cleanLines h f a n
theorem writeEntry (h : Canonical s) (q : Nat) (e : CqEntry) : Canonical (s.writeEntry q e) := State.memOk_writeEntry h q e
theorem unspill (h : Canonical s) (q n : Nat) : Canonical (s.unspill q n) := State.memOk_unspill q n h
theorem ite {c : Prop} [Decidable c] {a b : State} (ha : Canonical a) (hb : Canonical b) : Canonical (if c then a else b) :=
  State.memOk_ite ha hb
theorem foldl {f : State → α → State} (h : Canonical s) (l : List α) (hf : ∀ t a, Canonical t → Canonical (f t a)) :
    Canonical (l.foldl f s) := by
  induction l generalizing s with
  | nil => exact h
  | cons a l ih => exact ih (hf s a h)

theorem each {f : State → α → State} (h : Canonical s) (l : List α) (hf : ∀ t a, Canonical t → Canonical (f t a)) :
    Canonical (s.each l f) := h.foldl l hf

theorem foldl_fst {f : State × β → α → State × β} {b : State × β} (h : Canonical b.1) (l : List α)
    (hf : ∀ b a, Canonical b.1 → Canonical (f b a).1) : Canonical (l.foldl f b).1 := by
  induction l generalizing b with
  | nil => exact h
  | cons a l ih => exact ih (hf b a h)

theorem of_fst_eq {p : State × β} {t : State} {b : β} (h : Canonical p.1) (he : p = (t, b)) : Canonical t := by rw [he] at h; exact h
theorem getD {o : Option State} (ho : AllSome Canonical o) (h : Canonical s) : Canonical (o.getD s) := by
  cases o with
  | none => exact h
  | some t => exact ho t rfl

end Canonical

/-- What a management request sets going keeps the memories canonical. -/
def MgmtPlan.Canonical (p : MgmtPlan) : Prop := ∀ t, Machine.Canonical t → Machine.Canonical (p.effect t)

/-- The state that the sink of a packet leaves has canonical memories. -/
def Sink.Canonical : Sink → Prop
  | .no _ t | .hold _ t _ _ _ | .took t => Machine.Canonical t

namespace CmdOut.Canonical
theorem done {t : State} {st r : Nat} (h : Machine.Canonical t) : (CmdOut.done st r t).Canonical := h
theorem later {t : State} (h : Machine.Canonical t) : (CmdOut.later t).Canonical := h
theorem ite {a b : CmdOut} {c : Prop} [Decidable c] (ha : a.Canonical) (hb : b.Canonical) : (if c then a else b).Canonical := by
  split <;> assumption

end CmdOut.Canonical

namespace MgmtPlan.Canonical
theorem bad {st k : Nat} : (planBad st k).Canonical := fun _ ht => ht
theorem ok {f : State → State} (hf : ∀ t, Machine.Canonical t → Machine.Canonical (f t)) : (planOk f).Canonical := hf
theorem ite {c : Prop} [Decidable c] {p q : MgmtPlan} (hp : p.Canonical) (hq : q.Canonical) :
    (if c then p else q).Canonical := by
  split <;> assumption

end MgmtPlan.Canonical

namespace Goes
variable {s t : State} {a b : Res}
theorem next (h : Canonical s → Canonical t) : Goes s (.next t) := ⟨t, rfl, h⟩
theorem ite {c : Prop} [Decidable c] (ha : Goes s a) (hb : Goes s b) : Goes s (if c then a else b) := by split <;> assumption
end Goes

section
variable {s : State}

/-! ### Objects (14 R394) -/

theorem Canonical.count (hs : Canonical s) (ix sub row n : Nat) : Canonical (s.count ix sub row n) := hs.setObj _ _ _ _ _

/-! ### Shared operations (11 R324, R327; 12 R360; 16 R440-R443) -/

theorem Canonical.cbwHold (hs : Canonical s) (fs : List Nat) (who : Option Nat) : Canonical (s.cbwHold fs who) :=
  (hs.modCks _).count _ _ _ _

theorem Canonical.setQp (hs : Canonical s) (q : Nat) (p : Qp) : Canonical (s.setQp q p) := hs.modSite _ (by rfl)
theorem Canonical.dwr (hs : Canonical s) (addr : Nat) (data : List Byte) : Canonical (s.dwr addr data) := (hs.emit _).modSite _ (by rfl)

theorem Canonical.place (hs : Canonical s) (q : Nat) (e : CqEntry) : Canonical (s.place q e) :=
  .ite ((hs.unspill _ _).writeEntry _ _) ((hs.unspill _ _).setQp _ _)

theorem Canonical.event (hs : Canonical s) (q : Nat) (e : CqEntry) : Canonical (s.event q e) :=
  .ite hs (.ite (hs.place _ _) ((hs.setQp _ _).count _ _ _ _))

theorem Canonical.settle (hs : Canonical s) (sq q : Nat) (e : CqEntry) : Canonical (s.settle sq q e) :=
  .ite hs (.ite (hs.count _ _ _ _) ((Canonical.ite ((hs.setQp _ _).setQp _ _) (hs.setQp _ _)).place _ _))

theorem Canonical.cmdDone (hs : Canonical s) (sq cq ctx head : Nat) (tag : W64) (cmd status result : Nat) : Canonical
    (s.cmdDone sq cq ctx head tag cmd status result) :=
  hs.settle _ _ _

theorem Canonical.tokenized (hs : Canonical s) (sq cq ctx head : Nat) (tag : W64) (stream status count : Nat) (inv : Bool) : Canonical
    (s.tokenized sq cq ctx head tag stream status count inv) := by
  unfold State.tokenized
  refine Canonical.settle ?_ _ _ _
  split
  · exact hs.modTxt _
  · exact hs

theorem Canonical.otherEvent (hs : Canonical s) (q ctx code status id value : Nat) : Canonical (s.otherEvent q ctx code status id value) :=
  hs.event _ _

theorem Canonical.tellDegraded (hs : Canonical s) (value : Nat) : Canonical (s.tellDegraded value) := by
  unfold State.tellDegraded
  refine hs.foldl _ fun _ _ ht => ?_
  split
  · exact ht.otherEvent _ _ _ _ _ _
  · exact ht

theorem Canonical.degrade (hs : Canonical s) : Canonical s.degrade := (Canonical.ite hs (hs.tellDegraded _)).modErr _

theorem Canonical.record (hs : Canonical s) (e : ErrIn) : Canonical (s.record e) := by
  unfold State.record
  refine .ite ?_ ?_
  · refine Canonical.degrade ?_
    split
    · exact (hs.count _ _ _ _).modErr _
    · exact .ite (((hs.count _ _ _ _).modErr _).count _ _ _ _) ((hs.count _ _ _ _).modErr _)
  · split
    · exact (hs.count _ _ _ _).modErr _
    · exact .ite (((hs.count _ _ _ _).modErr _).count _ _ _ _) ((hs.count _ _ _ _).modErr _)

theorem Canonical.linkOff (hs : Canonical s) : Canonical s.linkOff := hs.modSite _ (by rfl)
theorem Canonical.powerDown (hs : Canonical s) : Canonical s.powerDown := (hs.modDev _).linkOff

theorem Canonical.fatal (hs : Canonical s) (code source unit addr : Nat) : Canonical (s.fatal code source unit addr) :=
  .ite (hs.record _) ((hs.record _).modDev _)

theorem Canonical.domEnd (hs : Canonical s) (c : Nat) : Canonical (s.domEnd c) := hs.modDev _

/-! ### Submission entries and commands (11 R322-R325) -/

theorem Canonical.takeEntry (hs : Canonical s) (sq q : Nat) : Canonical (s.takeEntry sq q) :=
  (Canonical.ite ((hs.modSite _ (by rfl)).modSite _ (by rfl)) ((hs.modSite _ (by rfl)).setQp _ _)).setQp _ _

theorem Canonical.entryDone (hs : Canonical s) (sq cq ctx head : Nat) (tag : W64) (c : HostCmd) (status result : Nat) : Canonical
    (s.entryDone sq cq ctx head tag c status result) := by
  unfold State.entryDone
  split
  · exact hs.tokenized _ _ _ _ _ _ _ _ _
  · exact hs.cmdDone _ _ _ _ _ _ _ _

theorem CmdOut.Canonical.finish {o : CmdOut} (ho : o.Canonical) (sq cq ctx head : Nat) (tag : W64) (c : HostCmd) :
    Machine.Canonical (o.finish sq cq ctx head tag c) := by
  cases o with
  | done st r t => exact Machine.Canonical.entryDone (s := t) ho _ _ _ _ _ _ _ _
  | later t => exact ho

theorem Canonical.command (hs : Canonical s) (sq : Nat) (h : CmdHdr) (c : HostCmd) (hosts : List (Nat × Nat)) (f : State → CmdOut)
    (hf : ∀ t, Canonical t → (f t).Canonical) : Canonical (s.command sq h c hosts f) := by
  have ht : Canonical (s.takeEntry sq (s.target sq (.cmd h c))) := hs.takeEntry _ _
  exact .ite hs (CmdOut.Canonical.finish (.ite (.done ht) (.ite (.done ht) (.ite (.done ht) (.ite (.done ht) (hf _ ht))))) _ _ _ _ _ _)

theorem ringCmd_goes (s : State) (sq : Nat) (h : CmdHdr) (c : HostCmd) (hosts : List (Nat × Nat)) (f : State → CmdOut)
    (hf : ∀ t, Canonical t → (f t).Canonical) : Goes s (s.ringCmd sq h c hosts f) :=
  .next fun hs => hs.command _ _ _ _ _ (fun _ ht => hf _ ht)

/-! ### Token budgets and fair queueing (10 R306-R308) -/

theorem Canonical.charge (hs : Canonical s) (c r : Nat) (n : ℤ) : Canonical (s.charge c r n) := hs.modRun _
theorem Canonical.fqStart (hs : Canonical s) (u c r cost : Nat) : Canonical (s.fqStart u c r cost) := (hs.modRun _).charge _ _ _

/-! ### Slabs, frames, directories and sessions (05; 06 R165-R183) -/

theorem Canonical.unitAlloc (hs : Canonical s) (ctx die : Nat) (u : SlabUse) : AllSome (Canonical ·.2) (s.unitAlloc ctx die u) := by
  unfold State.unitAlloc
  dsimp only
  split
  · exact .some (hs.modSes _ (by rfl))
  · exact .ite (.map_any fun _ => hs.modSes _ (by rfl)) .none

theorem Canonical.unitsAlloc (hs : Canonical s) (ctx die : Nat) (u : SlabUse) (n : Nat) :
    AllSome (Canonical ·.2) (s.unitsAlloc ctx die u n) := by
  induction n generalizing s with
  | zero => exact .some hs
  | succ n ih =>
    unfold State.unitsAlloc
    split
    · exact .none
    next he => exact .map (ih (hs.unitAlloc _ _ _ _ he)) fun _ ht => ht

theorem Canonical.retire (hs : Canonical s) (k : Nat) : Canonical (s.retire k) :=
  .ite ((hs.modErr _).modErr _) (((hs.modErr _).modErr _).record _)

theorem Canonical.retireIdle (hs : Canonical s) (k : Nat) : Canonical (s.retireIdle k) := .ite (hs.retire _) hs

theorem Canonical.unitFree (hs : Canonical s) (f : Nat) : Canonical (s.unitFree f) := by
  unfold State.unitFree
  dsimp only
  split
  · exact hs
  · exact hs.modSes _ (by rfl)

theorem Canonical.unitsFree (hs : Canonical s) (fs : List Nat) : Canonical (s.unitsFree fs) := hs.each _ (fun _ _ ht => ht.unitFree _)

theorem Canonical.dirGrow (hs : Canonical s) (ctx die n : Nat) (d : Dir) (k : Nat) :
    AllSome (Canonical ·.2) (s.dirGrow ctx die n d k) := by
  induction k generalizing s d with
  | zero => exact .some hs
  | succ k ih =>
    unfold State.dirGrow
    refine .ite (.some hs) ?_
    split
    · exact .none
    next he => exact ih (hs.unitAlloc _ _ _ _ he) _

theorem Canonical.dirNeed (hs : Canonical s) (ctx die n : Nat) (d : Dir) : AllSome (Canonical ·.2) (s.dirNeed ctx die n d) := by
  unfold State.dirNeed
  split
  · exact .none
  next d1 s1 he1 =>
    have h1 : Canonical s1 := hs.dirGrow _ _ _ _ _ _ he1
    dsimp only
    split
    · exact .none
    next d2 s2 he2 =>
      have h2 : Canonical s2 := AllSome.ite (P := (Canonical ·.2)) (.map (h1.unitAlloc _ _ _) fun _ ht => ht) (.some h1) _ he2
      exact .ite (.some h2) (.map (h2.unitAlloc _ _ _) fun _ ht => ht)

theorem Canonical.dirFresh (hs : Canonical s) (ctx die : Nat) : AllSome (Canonical ·.2) (s.dirFresh ctx die) :=
  .map (hs.unitAlloc _ _ _) fun _ ht => ht

theorem Canonical.dirTrim (hs : Canonical s) (d : Dir) : Canonical (s.dirTrim d).2 := hs.unitsFree _
theorem Canonical.setSess (hs : Canonical s) (h : Nat) (x : Session) : Canonical (s.setSess h x) := hs.modSes _ (by rfl)
theorem Canonical.updSess (hs : Canonical s) (h : Nat) (f : Session → Session) : Canonical (s.updSess h f) := hs.modSes _ (by rfl)
theorem Canonical.devUe (hs : Canonical s) (l : Nat) : Canonical (s.devUe l) := ((hs.count _ _ _ _).modErr _).fatal _ _ _ _

theorem Canonical.devRead (hs : Canonical s) (a n : Nat) : Canonical (s.devRead a n) := by
  unfold State.devRead
  split
  · exact hs.devUe _
  · exact hs

theorem Canonical.descTouch (hs : Canonical s) (h : Nat) : Canonical (s.descTouch h) :=
  .ite ((hs.modSes _ (by rfl)).count _ _ _ _) (((hs.devRead _ _).modSes _ (by rfl)).count _ _ _ _)

theorem Canonical.sesEvent (hs : Canonical s) (h : Nat) (x0 x : Session) (code status kind : Nat) : Canonical
    (s.sesEvent h x0 x code status kind) :=
  hs.event _ _

theorem Canonical.updLease (hs : Canonical s) (ctx l : Nat) (f : Lease → Lease) : Canonical (s.updLease ctx l f) := hs.modSes _ (by rfl)

theorem Canonical.runAlloc (hs : Canonical s) (ctx l n : Nat) : AllSome (Canonical ·.2) (s.runAlloc ctx l n) := by
  unfold State.runAlloc
  dsimp only
  split
  · exact .none
  · split
    · exact .none
    · refine .some ?_
      split
      · exact (hs.updLease _ _ _).updLease _ _ _
      · exact hs.updLease _ _ _

theorem Canonical.runFree (hs : Canonical s) (ctx l o : Nat) : Canonical (s.runFree ctx l o) := by
  unfold State.runFree
  split
  · exact (hs.updLease _ _ _).updLease _ _ _
  · exact hs.updLease _ _ _

theorem Canonical.copyFree (hs : Canonical s) (ctx : Nat) (e : Pte) : Canonical (s.copyFree ctx e) :=
  .ite (hs.unitFree _) (.ite (hs.runFree _ _ _) hs)

theorem Canonical.entFree (hs : Canonical s) (ctx : Nat) (e : Pte) : Canonical (s.entFree ctx e) :=
  .ite (hs.copyFree _ _) (.ite (hs.unitFree _) hs)

theorem Canonical.dirFree (hs : Canonical s) (ctx : Nat) (d : Dir) : Canonical (s.dirFree ctx d) :=
  .ite (hs.unitsFree _) (.ite (hs.runFree _ _ _) hs)

theorem Canonical.orphan (hs : Canonical s) (p : Purpose → Bool) : Canonical (s.orphan p) := hs.modBulk _
theorem Canonical.ringOrphan (hs : Canonical s) (n : Nat) : Canonical (s.ringOrphan n) := hs.orphan _
theorem Canonical.ringSilent (hs : Canonical s) (n : Nat) : Canonical (s.ringSilent n) := (hs.modBulk _).ringOrphan _
theorem Canonical.moveEnd (hs : Canonical s) (h : Nat) : Canonical (s.moveEnd h) := ((hs.orphan _).modSes _ (by rfl)).updSess _ _

theorem Canonical.runsFree (hs : Canonical s) (x : Session) (lease : Nat) : Canonical (s.runsFree x lease) := by
  unfold State.runsFree
  split
  · exact (hs.each _ (fun _ _ ht => ht.runFree _ _ _)).runFree _ _ _
  · exact hs.each _ (fun _ _ ht => ht.runFree _ _ _)

theorem Canonical.wipe (hs : Canonical s) (x : Session) : Canonical (s.wipe x) := by
  unfold State.wipe
  dsimp only
  split
  · exact .ite (((hs.each _ (fun _ _ ht => ht.entFree _ _)).dirFree _ _).runsFree _ _)
      ((hs.each _ (fun _ _ ht => ht.entFree _ _)).dirFree _ _)
  · exact ((Canonical.ite (((hs.each _ (fun _ _ ht => ht.entFree _ _)).dirFree _ _).runsFree _ _)
      ((hs.each _ (fun _ _ ht => ht.entFree _ _)).dirFree _ _)).each _ (fun _ _ ht => .ite (ht.copyFree _ _) ht)).dirFree _ _

theorem Canonical.freeParked (hs : Canonical s) (h : Nat) : Canonical (s.freeParked h) := by
  unfold State.freeParked
  split
  · exact hs
  · split
    · exact hs
    · exact ((hs.each _ (fun _ _ ht => .ite (ht.copyFree _ _) ht)).dirFree _ _).updSess _ _

theorem Canonical.dropParked (hs : Canonical s) (h : Nat) : Canonical (s.dropParked h) := by
  unfold State.dropParked
  split
  · exact hs
  · exact .ite hs ((hs.freeParked _).moveEnd _)

theorem Canonical.unhold (hs : Canonical s) (h : Nat) : Canonical (s.unhold h) := by
  unfold State.unhold
  split
  · exact hs
  · exact .ite ((hs.setSess _ _).dropParked _) (hs.setSess _ _)

/-! ### Composition maps, ports, flows (07 R200-R224; 08 R233-R248; 12 R349-R353) -/

theorem Canonical.setPort (hs : Canonical s) (p : Nat) (x : Port) : Canonical (s.setPort p x) := hs.modFab _

theorem Canonical.emitFrames (hs : Canonical s) (p : Nat) (l : List LinkFrame) : Canonical (s.emitFrames p l) :=
  hs.foldl _ (fun _ _ ht => ht.emit _)

theorem Canonical.sendPkt (hs : Canonical s) (p vc n : Nat) (k : Packet) : Canonical (s.sendPkt p vc n k) :=
  ((hs.setPort _ _).emitFrames _ _).emit _

theorem Canonical.idleFrames (hs : Canonical s) : Canonical s.idleFrames := hs.each _ (fun _ _ ht => .ite ((ht.setPort _ _).emit _) ht)
theorem Canonical.takeFlits (hs : Canonical s) (p vc n : Nat) : Canonical (s.takeFlits p vc n) := hs.setPort _ _
theorem Canonical.takeMgt (hs : Canonical s) : Canonical s.takeMgt := hs.each _ (fun _ _ ht => .ite ht (ht.takeFlits _ _ _))

theorem Canonical.trySend (hs : Canonical s) (w : WaitPkt) : AllSome Canonical (s.trySend w) :=
  .map_any fun _ => (hs.sendPkt _ _ _ _).modFab _

theorem Canonical.drainQ (hs : Canonical s) : Canonical s.drainQ := by
  unfold State.drainQ
  refine Canonical.modFab ?_ _
  refine hs.foldl_fst _ fun _ _ ht => ?_
  split
  next he1 => exact (ht.trySend _ _ he1)
  · exact ht

theorem Canonical.send (hs : Canonical s) (vc flits : Nat) (trunk : Bool) (k : Packet) : Canonical (s.send vc flits trunk k) := by
  unfold State.send
  dsimp only
  split
  next he => exact ((show AllSome Canonical _ from .ite .none (hs.trySend _)) _ he)
  · exact hs.modFab _

theorem Canonical.setKeys (hs : Canonical s) (node : Nat) (k : FlowKeys) : Canonical (s.setKeys node k) := hs.modBulk _
theorem Canonical.setFlow (hs : Canonical s) (node : Nat) (f : Flow) : Canonical (s.setFlow node f) := hs.modBulk _
theorem Canonical.updFlow (hs : Canonical s) (node : Nat) (f : Flow → Flow) : Canonical (s.updFlow node f) := hs.modBulk _
theorem Canonical.useFlow (hs : Canonical s) (node : Nat) : Canonical (s.useFlow node) := (hs.modBulk _).updFlow _ _

theorem Canonical.lwPut (hs : Canonical s) (node r : Nat) (w : Option LwRec) : Canonical (s.lwPut node r w) :=
  hs.modSes_hbm _ (fun hm => memWf_memWrite hm _ _) (by rfl)

theorem Canonical.evict (hs : Canonical s) (node : Nat) : Canonical (s.evict node) := by
  unfold State.evict
  split
  · exact hs
  · exact (Canonical.ite (((hs.modBulk _).lwPut _ _ _).lwPut _ _ _) ((hs.modBulk _).lwPut _ _ _)).count _ _ _ _

theorem Canonical.flowLoad (hs : Canonical s) (node : Nat) : AllSome Canonical (s.flowLoad node) := by
  unfold State.flowLoad
  dsimp only
  split
  · exact .some ((hs.modBulk _).setFlow _ _)
  · exact .ite (.some (((hs.modBulk _).devRead _ _).setFlow _ _)) (.map_any fun _ => (((hs.modBulk _).evict _).devRead _ _).setFlow _ _)

theorem Canonical.bulkIssue {s0 : State} (hs : Canonical s0) (node : Nat) (m0 : BulkMsg) : Canonical (s0.bulkIssue node m0) := by
  unfold State.bulkIssue
  dsimp only
  split
  next he => exact ((hs.modFab _).flowLoad _ _ he).updFlow _ _
  · exact (hs.modFab _).modBulk _

theorem Canonical.txPkt (hs : Canonical s) (node seq off port hop key : Nat) (f : Flow) (m : BulkMsg) : Canonical
    (s.txPkt node seq off port hop key f m) :=
  (Canonical.ite (((hs.sendPkt _ _ _ _).setFlow _ _).count _ _ _ _) ((hs.sendPkt _ _ _ _).setFlow _ _)).useFlow _

/-! ### Lost pages and the loss sweep (06 R190-R192; 16 R443-R447) -/

theorem Canonical.goLost (hs : Canonical s) (h : Nat) (x0 x : Session) : Canonical (s.goLost h x0 x) :=
  (hs.setSess _ _).sesEvent _ _ _ _ _ _

theorem Canonical.loseAll (hs : Canonical s) (h : Nat) (x : Session) : Canonical (s.loseAll h x) :=
  (((hs.wipe _).moveEnd _).setSess _ _).sesEvent _ _ _ _ _ _

theorem Canonical.reviveCheck (hs : Canonical s) (h : Nat) : Canonical (s.reviveCheck h) := by
  unfold State.reviveCheck
  split
  · exact hs
  · exact .ite hs (.ite (.ite ((hs.setSess _ _).sesEvent _ _ _ _ _ _) (((hs.setSess _ _).sesEvent _ _ _ _ _ _).dropParked _))
      (.ite ((hs.setSess _ _).dropParked _) (.ite hs (.ite (hs.dropParked _) (hs.freeParked _)))))

theorem Canonical.dualRecord (hs : Canonical s) (h : Nat) (x : Session) (n l : Nat) : Canonical (s.dualRecord h x n l) := hs.record _

theorem Canonical.dualLost (hs : Canonical s) (h : Nat) (x : Session) (n : Nat) (e : Pte) : Canonical (s.dualLost h x n e) :=
  hs.dualRecord _ _ _ _

theorem Canonical.dueRecords (hs : Canonical s) (h : Nat) (x : Session) (d : Dir) : Canonical (s.dueRecords h x d) :=
  hs.each _ (fun _ _ ht => .ite (ht.dualRecord _ _ _ _) ht)

theorem Canonical.sweepEnt (h : Nat) {a : State × Session} (hs : Canonical a.1) (n : Nat) (e : Pte) : Canonical
    (State.sweepEnt h a n e).1 := by
  unfold State.sweepEnt
  dsimp only
  split
  · exact hs
  · split
    · exact hs.copyFree _ _
    · exact hs.dualLost _ _ _ _

theorem Canonical.parkedLost {a : State × Session} (hs : Canonical a.1) (n : Nat) (e : Pte) : Canonical (State.parkedLost a n e).1 :=
  hs.copyFree _ _

theorem Canonical.sweepParked (h : Nat) {a : State × Session} (hs : Canonical a.1) (n : Nat) (e : Pte) : Canonical
    (State.sweepParked h a n e).1 := by
  unfold State.sweepParked
  dsimp only
  split
  · exact hs
  · split
    · exact hs.parkedLost _ _
    · exact hs.dualLost _ _ _ _

theorem Canonical.sweepOut {a : State × Session × Dir} (hs : Canonical a.1) (n : Nat) (e : Pte) : Canonical (State.sweepOut a n e).1 := by
  unfold State.sweepOut
  dsimp only
  split
  · exact hs
  · split
    · exact hs.copyFree _ _
    · exact hs

theorem Canonical.sweepDemote {a : State × Session} (hs : Canonical a.1) (n : Nat) (e : Pte) : Canonical (State.sweepDemote a n e).1 := by
  unfold State.sweepDemote
  dsimp only
  split
  · split
    · exact hs.copyFree _ _
    · exact hs.runFree _ _ _
  · exact hs

theorem Canonical.demoteEnd (hs : Canonical s) (h : Nat) (x : Session) : Canonical (s.demoteEnd h x).1 :=
  ((hs.runsFree _ _).setSess _ _).moveEnd _

theorem Canonical.sweepSess (hs : Canonical s) (h : Nat) : Canonical (s.sweepSess h) := by
  unfold State.sweepSess
  split
  · exact hs
  next x0 _ =>
    refine .ite hs ?_
    extract_lets x s0 r out _ _ y gone hit a0 a b
    have h0 : Canonical s0 := hs.setSess _ _
    have hout : Canonical out.1 := Canonical.foldl_fst (b := (s0, x, x.dir)) h0 _ fun _ _ ht => ht.sweepOut _ _
    have ha0 : Canonical a0.1 := by
      unfold a0
      split
      · exact Canonical.foldl_fst (b := (s0, x)) h0 _ fun _ _ ht => ht.sweepDemote _ _
      · exact h0
    have ha : Canonical a.1 := ha0.foldl_fst _ fun _ _ ht => ht.sweepEnt _ _ _
    have hb : Canonical b.1 := by
      unfold b
      split
      · exact ha.demoteEnd _ _
      · exact ha
    refine .ite h0 (.ite ?_ ?_)
    · exact .ite (h0.loseAll _ _) (.ite h0 (.ite ((hout.demoteEnd _ _).setSess _ _) (hout.setSess _ _)))
    · split
      · refine .ite (.ite (h0.unhold _) h0) (.ite (h0.loseAll _ _) (.ite ?_ ?_))
        · exact (Canonical.foldl_fst (b := (s0, x, _)) h0 _ fun _ _ ht => ht.sweepOut _ _).setSess _ _
        · extract_lets swept t
          have ht : Canonical t := (Canonical.foldl_fst (b := (s0, x)) h0 _ fun _ _ ht => ht.sweepParked _ _ _).dueRecords _ _ _
          exact .ite (ht.goLost _ _ _) (ht.setSess _ _)
      · exact .ite (hb.goLost _ _ _) (hb.setSess _ _)

theorem Canonical.sweepExtent (hs : Canonical s) (h : Nat) (x : Session) : Canonical (s.sweepExtent h x) :=
  .ite (((hs.dueRecords _ _ _).foldl_fst _ (fun _ _ ht => ht.sweepEnt _ _ _)).goLost _ _ _)
    (((hs.dueRecords _ _ _).foldl_fst _ (fun _ _ ht => ht.sweepEnt _ _ _)).setSess _ _)

theorem Canonical.markSlab (hs : Canonical s) (k : Nat) : Canonical (s.markSlab k) := .ite hs ((hs.modErr _).retireIdle _)

theorem Canonical.hbmCe (hs : Canonical s) (l : Nat) : Canonical (s.hbmCe l) :=
  .ite (((hs.count _ _ _ _).record _).modErr _) (.ite ((((hs.count _ _ _ _).record _).modErr _).markSlab _)
    (((hs.count _ _ _ _).record _).modErr _))

theorem Canonical.hbmUe (hs : Canonical s) (l sev status ctx : Nat) (handle : Option Nat) : Canonical (s.hbmUe l sev status ctx handle) :=
  .ite (hs.devUe _) ((((hs.count _ _ _ _).record _).modErr _).markSlab _)

theorem Canonical.ueRead (hs : Canonical s) (l ctx : Nat) (handle : Option Nat) : Canonical (s.ueRead l ctx handle) :=
  (hs.hbmUe _ _ _ _ _).count _ _ _ _

theorem Canonical.noteLost (hs : Canonical s) (h n : Nat) : Canonical (s.noteLost h n) := hs.modErr _

theorem Canonical.pageLost (hs : Canonical s) (h n : Nat) (ue : Bool) : Canonical (s.pageLost h n ue) := by
  unfold State.pageLost
  dsimp only
  split
  · exact hs
  · refine .ite ?_ (((hs.count _ _ _ _).noteLost _ _).goLost _ _ _)
    split
    · exact ((((hs.count _ _ _ _).noteLost _ _).runsFree _ _).moveEnd _).goLost _ _ _
    · exact (((hs.count _ _ _ _).noteLost _ _).runsFree _ _).moveEnd _

theorem Canonical.pageBad (hs : Canonical s) (h n : Nat) : Canonical (s.pageBad h n) := by
  unfold State.pageBad
  split
  · exact hs
  · refine .ite hs ?_
    refine .ite ?_ (hs.pageLost _ _ _)
    refine Canonical.modRun ?_ _
    refine Canonical.setSess ?_ _ _
    split
    next he => exact (hs.unitAlloc _ _ _ _ he).unitFree _
    · exact hs

theorem Canonical.leafLost (hs : Canonical s) (h : Nat) (x : Session) (f : Nat) : Canonical (s.leafLost h x f) :=
  .ite hs (((hs.each _ (fun _ _ ht => (Canonical.ite (ht.copyFree _ _) ht).noteLost _ _)).count _ _ _ _).goLost _ _ _)

theorem Canonical.parkedBad (hs : Canonical s) (h : Nat) (x : Session) (d : Dir) (f : Nat) : Canonical (s.parkedBad h x d f) :=
  .ite ((((hs.foldl_fst _ (fun _ _ ht => ht.parkedLost _ _)).count _ _ _ _).goLost _ _ _).reviveCheck _)
    (.ite ((((hs.foldl_fst _ (fun _ _ ht => ht.parkedLost _ _)).count _ _ _ _).setSess _ _).unhold _)
    (((hs.foldl_fst _ (fun _ _ ht => ht.parkedLost _ _)).count _ _ _ _).setSess _ _))

theorem Canonical.dirBad (hs : Canonical s) (f : Nat) : Canonical (s.dirBad f) := by
  unfold State.dirBad
  refine .ite ?_ ?_
  · refine Canonical.cleanLines ?_ _ _ _
    split
    · exact .ite ((hs.count _ _ _ _).loseAll _ _) (hs.leafLost _ _ _)
    · split
      · split
        · exact hs.parkedBad _ _ _ _
        · exact hs
      · exact hs
  · split
    · exact .ite ((hs.count _ _ _ _).loseAll _ _) (hs.leafLost _ _ _)
    · split
      · split
        · exact hs.parkedBad _ _ _ _
        · exact hs
      · exact hs

theorem Canonical.lineBad (hs : Canonical s) (l : Nat) : Canonical (s.lineBad l) := by
  unfold State.lineBad
  split
  · exact hs.pageBad _ _
  · exact hs.dirBad _

theorem Canonical.dirRead (hs : Canonical s) (ctx h : Nat) : Canonical (s.dirRead ctx h) := by
  unfold State.dirRead
  split
  · exact hs
  · refine hs.each _ fun _ _ ht => ?_
    split
    · exact (ht.hbmUe _ _ _ _ _).lineBad _
    · exact ht

theorem Canonical.owned (hs : Canonical s) (ctx h : Nat) : Canonical (s.owned ctx h).1 := ((hs.descTouch _).dirRead _ _).sweepSess _
theorem Canonical.named (hs : Canonical s) (ctx h : Nat) : Canonical (s.named ctx h).1 := hs.owned _ _

/-! ### Session, binding and adapter commands (05) -/

theorem execSessionCreate_goes (sq : Nat) (h : CmdHdr) (handle : BitVec 24) (binding : BitVec 8) (homeDie : BitVec 2) (eventCq : BitVec 6)
    (s : State) : Goes s (execSessionCreate sq h handle binding homeDie eventCq s) := by
  unfold execSessionCreate
  refine ringCmd_goes _ _ _ _ _ _ fun _ ht => ?_
  refine .ite (.done ht) ?_
  refine .ite (.done ht) ?_
  refine .ite (.done ht) ?_
  refine .ite (.done ht) ?_
  refine .ite (.done ht) ?_
  refine .ite (.done ht) ?_
  split
  · exact .done ht
  next he1 => exact .done (((ht.dirFresh _ _ _ he1).descTouch _).setSess _ _)

theorem Canonical.dropSess (hs : Canonical s) (h : Nat) (x : Session) (tomb : Bool) : Canonical (s.dropSess h x tomb) :=
  ((hs.wipe _).moveEnd _).setSess _ _

theorem execSessionDrop_goes (sq : Nat) (h : CmdHdr) (handle : BitVec 24) (s : State) : Goes s (execSessionDrop sq h handle s) := by
  unfold execSessionDrop
  dsimp only
  refine ringCmd_goes _ _ _ _ _ _ fun _ ht => ?_
  split
  · exact .done (ht.named _ _)
  · exact .ite (.done ((ht.named _ _).dropSess _ _ _)) (.done (ht.named _ _))

theorem execSessionRelease_goes (sq : Nat) (h : CmdHdr) (handle : BitVec 24) (s : State) : Goes s (execSessionRelease sq h handle s) := by
  unfold execSessionRelease
  dsimp only
  refine ringCmd_goes _ _ _ _ _ _ fun _ ht => ?_
  split
  · exact .done ht
  · exact .ite (.done ht) (.ite (.done ht) (.ite (.done (ht.setSess _ _)) (.done ht)))

theorem execSessionPin_goes (sq : Nat) (h : CmdHdr) (handle : BitVec 24) (set : Bool) (first count : W32) (s : State) : Goes s
    (execSessionPin sq h handle set first count s) := by
  unfold execSessionPin
  dsimp only
  refine ringCmd_goes _ _ _ _ _ _ fun _ ht => ?_
  split
  · exact .done (ht.named _ _)
  · exact .ite (.done (ht.named _ _)) (.ite (.done (ht.named _ _)) (.done ((ht.named _ _).setSess _ _)))

theorem execSessionQuery_goes (sq : Nat) (h : CmdHdr) (handle : BitVec 24) (dest : W64) (s : State) : Goes s
    (execSessionQuery sq h handle dest s) := by
  unfold execSessionQuery
  dsimp only
  refine ringCmd_goes _ _ _ _ _ _ fun _ ht => ?_
  refine .ite (.done ht) ?_
  split
  · exact .done (ht.owned _ _)
  · exact .ite (.done (ht.owned _ _)) (.done ((ht.owned _ _).dwr _ _))

theorem execBindInstall_goes (sq : Nat) (h : CmdHdr) (binding : BitVec 8) (rcd : BindRec) (s : State) : Goes s
    (execBindInstall sq h binding rcd s) :=
  ringCmd_goes _ _ _ _ _ _ (fun _ ht => .ite (.done ht) (.done (ht.modSes _ (by rfl))))

theorem execBindRemove_goes (sq : Nat) (h : CmdHdr) (binding : BitVec 8) (s : State) : Goes s (execBindRemove sq h binding s) :=
  ringCmd_goes _ _ _ _ _ _ (fun _ ht => .ite (.done ht) (.done (ht.modSes _ (by rfl))))

theorem Canonical.adRetire (hs : Canonical s) (ctx a : Nat) : Canonical (s.adRetire ctx a) := by
  unfold State.adRetire
  split
  · exact hs
  · exact (hs.modSes _ (by rfl)).each _ (fun _ _ ht => ht.otherEvent _ _ _ _ _ _)

theorem Canonical.adPin (hs : Canonical s) (ctx a : Nat) (d : ℤ) (version : Nat) : Canonical (s.adPin ctx a d version) :=
  hs.modSes _ (by rfl)

theorem Canonical.adRepin (hs : Canonical s) (ctx a v : Nat) : Canonical (s.adRepin ctx a v) :=
  (hs.each _ (fun _ _ ht => .ite (ht.each _ (fun _ _ hu => (hu.adPin _ _ _ _).adPin _ _ _ _)) ht)).modRun _

theorem execAdapterInstall_goes (sq : Nat) (h : CmdHdr) (eventCq : BitVec 6) (rcd : AdapterRec) (s : State) : Goes s
    (execAdapterInstall sq h eventCq rcd s) :=
  ringCmd_goes _ _ _ _ _ _ (fun _ ht => .ite (.done ht) (.ite (.done ht)
    (.ite (.done ht) (.done (((ht.modSes _ (by rfl)).adRepin _ _ _).adRetire _ _)))))

theorem execAdapterRemove_goes (sq : Nat) (h : CmdHdr) (adapter : BitVec 12) (s : State) : Goes s (execAdapterRemove sq h adapter s) := by
  unfold execAdapterRemove
  dsimp only
  refine ringCmd_goes _ _ _ _ _ _ fun _ ht => ?_
  split
  · exact .done ht
  · exact .ite (.done ht) (.done ((ht.modSes _ (by rfl)).adRetire _ _))

/-! ### Steps and jobs (03 R98, R99; 10 R288-R303) -/

theorem Canonical.setStp (hs : Canonical s) (n : Nat) (p : Step) : Canonical (s.setStp n p) := hs.modRun _
theorem Canonical.updStp (hs : Canonical s) (n : Nat) (f : Step → Step) : Canonical (s.updStp n f) := hs.modRun _

theorem Canonical.commitPage (p : Step) (i : Nat) (e : SeqEnt) (g j : Nat) (hs : Canonical s) : Canonical
    (State.commitPage p i e g j s) := by
  unfold State.commitPage
  split
  · exact hs
  · exact .ite hs (.ite (hs.setSess _ _) (.ite ((hs.copyFree _ _).updSess _ _) hs))

theorem Canonical.zeroSlots (hs : Canonical s) (b : BindRec) (c : Pte) (k m : Nat) : Canonical (s.zeroSlots b c k m) :=
  hs.modSes_hbm _ (fun hm => memWf_memZero (memWf_memZero hm _ _) _ _) (by rfl)

theorem Canonical.unappend (p : Step) (hs : Canonical s) (a : AppendLog) : Canonical (State.unappend p s a) := by
  unfold State.unappend
  dsimp only
  split
  · exact hs
  · exact .ite (hs.zeroSlots _ _ _ _) hs

theorem Canonical.undoPage (hs : Canonical s) (u : UndoPage) : Canonical (s.undoPage u) := by
  unfold State.undoPage
  split
  · exact hs
  · exact .ite ((hs.entFree _ _).updSess _ _) (.ite hs (hs.setSess _ _))

theorem Canonical.endRes (hs : Canonical s) (n : Nat) (p : Step) (bad : Bool) : Canonical (s.endRes n p bad) := by
  unfold State.endRes
  refine Canonical.foldl ?_ _ (fun _ _ ht => ht.updSess _ _)
  refine .ite ((hs.each _ (fun _ _ ht => ht.unappend _ _)).each _ (fun _ _ ht => ht.undoPage _)) ?_
  refine hs.foldl _ fun _ _ ht => ?_
  split
  · exact ht.foldl _ (fun _ _ hu => hu.foldl _ (fun _ _ hv => hv.commitPage _ _ _ _ _))

theorem Canonical.unpin (hs : Canonical s) (h : Nat) : Canonical (s.unpin h) := by
  unfold State.unpin
  split
  · exact hs
  · exact .ite (hs.setSess _ _) (hs.setSess _ _)

theorem Canonical.sendPost (hs : Canonical s) (p : Step) (q : Post) : Canonical (s.sendPost p q) :=
  .ite (hs.modTxt _) (.ite (hs.count _ _ _ _) (hs.event _ _))

theorem Canonical.stepEntry (hs : Canonical s) (sq cq ctx : Nat) (d : StepDesc) (status cycles discarded : Nat) (at_ : Option (Nat × Nat))
    (head : Nat) : Canonical (s.stepEntry sq cq ctx d status cycles discarded at_ head) :=
  hs.settle _ _ _

theorem Canonical.lateExpiry (hs : Canonical s) (n kind : Nat) : Canonical (s.lateExpiry n kind) := by
  unfold State.lateExpiry
  split
  · exact .ite ((hs.modRun _).modSite _ (by rfl)) hs
  · exact hs

theorem Canonical.lastCredits (hs : Canonical s) (p : Step) : Canonical (s.lastCredits p) := by
  unfold State.lastCredits
  split
  · exact .ite hs (hs.foldl _ (fun _ _ ht => ht.bulkIssue _ _))
  · exact hs

theorem Canonical.endOne (hs : Canonical s) (n : Nat) (p : Step) (status : Nat) (at_ : Option (Nat × Nat)) :
    Canonical (s.endOne n p status at_) := by
  unfold State.endOne
  extract_lets q s1 s2 s3 s4 s5 s6
  have h4 : Canonical s4 := (((hs.modRun _).each _ fun _ _ ht => ht.sendPost _ _).endRes _ _ _).each _ fun _ _ ht => ht.unpin _
  have h5 : Canonical s5 := by
    unfold s5
    split
    · exact h4.unitsFree _
    · exact h4
  have h6 : Canonical s6 := .ite h5 (h5.charge _ _ _)
  exact (Canonical.ite (h6.ringSilent _) ((h6.lastCredits _).ringOrphan _)).stepEntry _ _ _ _ _ _ _ _ _

theorem Canonical.endJob (hs : Canonical s) (j : Nat) : Canonical (s.endJob j) := by
  unfold State.endJob
  split
  · exact hs
  · exact (hs.foldl _ (fun _ _ ht => (ht.adPin _ _ _ _).adRetire _ _)).modRun _

theorem Canonical.preempt (hs : Canonical s) (n : Nat) : Canonical (s.preempt n) := by
  unfold State.preempt
  split
  · exact hs
  · exact (hs.modRun _).count _ _ _ _

theorem Canonical.resume (hs : Canonical s) (c : Nat) (ends : Bool) : Canonical (s.resume c ends) :=
  (Canonical.ite hs (hs.each _ (fun _ _ ht => ht.preempt _))).modRun _

theorem Canonical.endStep (hs : Canonical s) (n status : Nat) (at_ : Option (Nat × Nat)) : Canonical (s.endStep n status at_) := by
  unfold State.endStep
  split
  · exact hs
  · exact (Canonical.ite (((hs.endOne _ _ _ _).foldl _ (fun _ _ ht => ht.endOne _ _ _ _)).endJob _)
      (.ite ((hs.endOne _ _ _ _).endJob _) (hs.endOne _ _ _ _))).resume _ _

theorem Canonical.stepFail (hs : Canonical s) (n pos ip status : Nat) : Canonical (s.stepFail n pos ip status) := by
  unfold State.stepFail
  dsimp only
  split
  · exact hs
  · split
    · exact (hs.setStp _ _).modRun _
    · exact hs.setStp _ _

theorem Canonical.coreFault (hs : Canonical s) (c : Core) (status : Nat) : Canonical (s.coreFault c status) := hs.stepFail _ _ _ _

theorem Canonical.endFailed (hs : Canonical s) : Canonical s.endFailed := by
  unfold State.endFailed
  refine hs.each _ fun _ _ ht => ?_
  split
  · exact .ite (ht.endStep _ _ _) ht
  · exact ht

/-! ### Fencing (16) -/

theorem Canonical.abortJob (hs : Canonical s) (j : Nat) : Canonical (s.abortJob j) :=
  (hs.foldl _ (fun _ _ ht => ht.endOne _ _ _ _)).endJob _

theorem Canonical.endDie (hs : Canonical s) (d st : Nat) : Canonical (s.endDie d st) :=
  (hs.foldl _ (fun _ _ ht => ht.endStep _ _ _)).foldl _ (fun _ _ ht => ht.abortJob _)

theorem Canonical.fenceDie (hs : Canonical s) (d : Nat) : Canonical (s.fenceDie d) := (((hs.record _).modDev _).count _ _ _ _).endDie _ _
theorem Canonical.fenceAuto (hs : Canonical s) (d : Nat) : Canonical (s.fenceAuto d) := .ite hs (.ite (hs.fatal _ _ _ _) (hs.fenceDie _))

theorem Canonical.dieFault (hs : Canonical s) (d : Nat) : Canonical (s.dieFault d) :=
  .ite (((hs.modErr _).count _ _ _ _).fenceAuto _) ((hs.modErr _).count _ _ _ _)

/-! ### Ring steps (04 R122-R125) -/

theorem Canonical.ringSend (hs : Canonical s) (n : Nat) (p : Step) (e : SeqEnt) (dev : Nat) (data : List Byte) (u : Purpose) : Canonical
    (s.ringSend n p e dev data u) :=
  .ite (hs.endStep _ _ _) (hs.bulkIssue _ _)

theorem Canonical.ringCredit (hs : Canonical s) (n r : Nat) : Canonical (s.ringCredit n r) := by
  unfold State.ringCredit
  split
  · exact hs
  · split
    · exact hs
    · exact hs.ringSend _ _ _ _ _ _

theorem Canonical.ringStart (hs : Canonical s) (n : Nat) : Canonical (s.ringStart n) := by
  unfold State.ringStart
  split
  · exact .ite ((hs.ringCredit _ _).ringCredit _ _) hs
  · exact hs

theorem Canonical.ringPump1 (hs : Canonical s) (n : Nat) : Canonical (s.ringPump1 n) := by
  unfold State.ringPump1
  split
  · exact hs
  · split
    · refine .ite hs ?_
      split
      · split
        · exact hs
        · exact ((hs.ueRead _ _ _).lineBad _).endStep _ _ _
        · exact (hs.setStp _ _).ringSend _ _ _ _ _ _
      · exact .ite (hs.setStp _ _) hs
    · exact hs

theorem Canonical.ringPump (hs : Canonical s) (n k : Nat) : Canonical (s.ringPump n k) := by
  induction k generalizing s with
  | zero => exact hs
  | succ k ih => exact .ite hs (ih (hs.ringPump1 _))

theorem Canonical.ringPageDone (hs : Canonical s) (n k g : Nat) : Canonical (s.ringPageDone n k g) := hs.updStp _ _

theorem Canonical.ringIn (hs : Canonical s) (ctx : Nat) (bs : List Byte) : Canonical (s.ringIn ctx bs) := by
  unfold State.ringIn
  dsimp only
  split
  · exact hs
  · split
    · exact .ite (hs.endStep _ _ _) (.ite ((hs.setStp _ _).ringPump _ _)
        (.ite (hs.endStep _ _ _) (.ite hs (((hs.hwrite _ _ _).setStp _ _).ringPump _ _))))
    · exact hs

theorem execRingBufferRelease_goes (step : Nat) (s : State) : Goes s (execRingBufferRelease step s) := by
  unfold execRingBufferRelease
  split
  · exact .next id
  · split
    · exact .ite (.next id) (.next fun hs => (hs.setStp _ _).ringCredit _ _)
    · exact .next id

/-! ### Parked copies and moves (06 R168-R186) -/

theorem Canonical.sealNonce (hs : Canonical s) : Canonical s.sealNonce.2 := hs.modSec _

theorem Canonical.bulkLease (hs : Canonical s) (ctx lease off : Nat) (mk : Nat → W32 → BulkMsg) : AllOk Canonical
    (s.bulkLease ctx lease off mk) := by
  unfold State.bulkLease
  split
  · exact .error
  · refine .ite .error ?_
    refine .ite .error ?_
    split
    · exact .error
    · exact .ok (hs.bulkIssue _ _)

theorem Canonical.putCopy (hs : Canonical s) (ctx lease off : Nat) (img : List Byte) (u : Purpose) : AllOk Canonical
    (s.putCopy ctx lease off img u) :=
  hs.bulkLease _ _ _ _

theorem Canonical.getCopy (hs : Canonical s) (ctx lease off n : Nat) (u : Purpose) : AllOk Canonical (s.getCopy ctx lease off n u) :=
  hs.bulkLease _ _ _ _

theorem Canonical.takeRuns (hs : Canonical s) (ctx lease : Nat) (l : List (Nat × Nat)) :
    AllSome (Canonical ·.2) (s.takeRuns ctx lease l) := by
  induction l generalizing s with
  | nil => exact .some hs
  | cons x l ih =>
    unfold State.takeRuns
    split
    · exact .none
    next he => exact .map (ih (hs.runAlloc _ _ _ _ he)) fun _ ht => ht

theorem Canonical.takeMove (hs : Canonical s) (ctx lease : Nat) (pages : List (Nat × Nat)) (ext : Option Nat) : AllSome (Canonical ·.2.2)
    (s.takeMove ctx lease pages ext) := by
  unfold State.takeMove
  split
  · exact .none
  next he =>
    split
    · exact .some (hs.takeRuns _ _ _ _ he)
    · exact .map ((hs.takeRuns _ _ _ _ he).runAlloc _ _ _) fun _ hu => hu

theorem Canonical.parkDone (hs : Canonical s) (h : Nat) (x : Session) : Canonical (s.parkDone h x) :=
  ((((Canonical.ite (((hs.each _ (fun _ _ ht => ht.runFree _ _ _)).unitsFree _).unitsFree _)
    ((hs.each _ (fun _ _ ht => ht.runFree _ _ _)).unitsFree _)).setSess _ _).moveEnd _).setSess _ _).sesEvent _ _ _ _ _ _

theorem Canonical.parkCheck (hs : Canonical s) (h : Nat) : Canonical (s.parkCheck h) := by
  unfold State.parkCheck
  split
  · exact .ite (hs.parkDone _ _) hs
  · exact hs

theorem Canonical.parkFail (hs : Canonical s) (h status : Nat) : Canonical (s.parkFail h status) := by
  unfold State.parkFail
  split
  · exact hs
  · exact (((hs.runsFree _ _).moveEnd _).setSess _ _).sesEvent _ _ _ _ _ _

theorem Canonical.parkAccept (hs : Canonical s) (h : Nat) (x : Session) (pf lease exp : Nat) (dual dirOut : Bool) (ttl : W32)
    (runs : Table Nat) (dirRun : Option Nat) : Canonical (s.parkAccept h x pf lease exp dual dirOut ttl runs dirRun) :=
  .ite (hs.setSess _ _) ((hs.setSess _ _).parkCheck _)

theorem Canonical.parkStart (hs : Canonical s) (h : Nat) (x : Session) : Canonical (s.parkStart h x) :=
  .ite (((hs.each _ (fun _ _ ht => ht.runFree _ _ _)).setSess _ _).parkCheck _)
    (((hs.each _ (fun _ _ ht => ht.runFree _ _ _)).setSess _ _).parkFail _ _)

theorem Canonical.abandonRevival (hs : Canonical s) (h : Nat) : Canonical (s.abandonRevival h) := by
  unfold State.abandonRevival
  split
  · exact hs
  · split
    · exact hs
    · exact (((hs.each _ (fun _ _ ht => .ite (ht.unitFree _) ht)).unitsFree _).moveEnd _).updSess _ _

theorem Canonical.demoteFail (hs : Canonical s) (h status : Nat) : Canonical (s.demoteFail h status) := by
  unfold State.demoteFail
  split
  · exact hs
  · exact (((hs.runsFree _ _).moveEnd _).setSess _ _).sesEvent _ _ _ _ _ _

theorem Canonical.demoteDone (hs : Canonical s) (h : Nat) (x : Session) : Canonical (s.demoteDone h x) :=
  (((((Canonical.ite ((hs.each _ (fun _ _ ht => ht.copyFree _ _)).dirFree _ _) (hs.each _ (fun _ _ ht => ht.copyFree _ _))).setSess _
    _).moveEnd _).count _ _ _ _).setSess _ _).sesEvent _ _ _ _ _ _

theorem Canonical.demoteCheck (hs : Canonical s) (h : Nat) : Canonical (s.demoteCheck h) := by
  unfold State.demoteCheck
  split
  · exact .ite (hs.demoteDone _ _) hs
  · exact hs

theorem Canonical.demotePages (hs : Canonical s) (h : Nat) (x : Session) : AllOk Canonical (s.demotePages h x) := by
  unfold State.demotePages
  refine .foldl (.ok hs) _ fun _ _ ht => ?_
  split
  · exact .error
  · exact .ite (.ok (ht _ rfl)) ((ht _ rfl).getCopy _ _ _ _ _)

theorem Canonical.demoteReads (hs : Canonical s) (h : Nat) (x : Session) : AllOk Canonical (s.demoteReads h x) :=
  .ite (hs.getCopy _ _ _ _ _) (hs.demotePages _ _)

theorem Canonical.demoteStart (hs : Canonical s) (h : Nat) : Canonical (s.demoteStart h) := by
  unfold State.demoteStart
  dsimp only
  split
  · exact hs
  · refine .ite (((Canonical.ite (hs.abandonRevival _) hs).setSess _ _).demoteCheck _) ?_
    refine .ite (((Canonical.ite (hs.abandonRevival _) hs).setSess _ _).demoteFail _ _) ?_
    split
    · exact ((Canonical.ite (hs.abandonRevival _) hs).setSess _ _).demoteFail _ _
    next he =>
      split
      · exact ((((Canonical.ite (hs.abandonRevival _) hs).setSess _ _).takeMove _ _ _ _ _ he).setSess _ _).demoteFail _ _
      next he1 => exact (((((Canonical.ite (hs.abandonRevival _) hs).setSess _ _).takeMove _ _ _ _ _ he).setSess _ _).demoteReads _ _ _ he1)

theorem Canonical.copyPlaced (hs : Canonical s) (h n : Nat) (second : Bool) : Canonical (s.copyPlaced h n second) := by
  unfold State.copyPlaced
  split
  · exact hs
  · exact .ite ((hs.setSess _ _).demoteCheck _) ((hs.setSess _ _).parkCheck _)

theorem Canonical.writeFail (hs : Canonical s) (h status : Nat) : Canonical (s.writeFail h status) := by
  unfold State.writeFail
  split
  · exact hs
  · exact .ite (hs.demoteFail _ _) (.ite (hs.parkFail _ _) hs)

theorem Canonical.sendCopy (hs : Canonical s) (h : Nat) (x : Session) (n off : Nat) (aad pay : List Byte) (u : Bool → Purpose) :
    Canonical (s.sendCopy h x n off aad pay u) := by
  have hr : ∀ y, Canonical (s.sealNonce.2.setSess h y) := fun y => hs.sealNonce.setSess _ _
  unfold State.sendCopy
  dsimp only
  split
  next he =>
    refine AllOk.foldl (P := Canonical) (.ok (hr _)) _ (fun r e hr => ?_) _ he
    split
    · exact .error
    · exact (hr _ rfl).putCopy _ _ _ _ _
  · exact (hr _).writeFail _ _

theorem Canonical.sendExtent (hs : Canonical s) (h : Nat) (x : Session) (o : Nat) : Canonical (s.sendExtent h x o) :=
  hs.sendCopy _ _ _ _ _ _ _

theorem Canonical.newDir (hs : Canonical s) (x : Session) (narrow : Bool) : AllSome (Canonical ·.2) (s.newDir x narrow) := by
  unfold State.newDir
  refine .foldl (hs.dirFresh _ _) _ fun _ _ ho => ?_
  dsimp only
  split
  · exact .none
  next d t =>
    have ht : Canonical t := ho _ rfl
    split
    · exact .none
    next d1 t1 he =>
      have h1 : Canonical t1 := ht.dirNeed _ _ _ _ _ he
      exact .ite (.map (h1.unitAlloc _ _ _) fun _ hu => hu) (.some h1)

theorem Canonical.reviveFail (hs : Canonical s) (h status : Nat) : Canonical (s.reviveFail h status) := by
  unfold State.reviveFail
  split
  · exact hs
  · exact .ite hs (.ite ((((hs.orphan _).modSes _ (by rfl)).setSess _ _).sesEvent _ _ _ _ _ _)
      (.ite ((((hs.orphan _).modSes _ (by rfl)).setSess _ _).sesEvent _ _ _ _ _ _) ((hs.orphan _).modSes _ (by rfl))))

theorem Canonical.requestPages (hs : Canonical s) (h : Nat) : Canonical (s.requestPages h) := by
  unfold State.requestPages
  split
  · exact hs
  · split
    · exact hs
    · refine .ite hs ?_
      dsimp only
      split
      next he =>
        refine AllOk.foldl (P := Canonical) (.ok hs) _ (fun r e hr => ?_) _ he
        split
        · exact .error
        · refine .ite (.ok (hr _ rfl)) ?_
          split
          next hg => exact .ok ((hr _ rfl).getCopy _ _ _ _ _ _ hg)
          · exact .ite (.ok (hr _ rfl)) .error
      · exact hs.reviveFail _ _

theorem Canonical.requestExtent (hs : Canonical s) (h : Nat) (second : Bool) (u : Purpose) : Canonical (s.requestExtent h second u).1 := by
  unfold State.requestExtent
  dsimp only
  split
  · exact hs
  · split
    next he => exact (hs.getCopy _ _ _ _ _ _ he)
    · exact hs

theorem Canonical.reviveGo (hs : Canonical s) (h : Nat) : Canonical (s.reviveGo h) := by
  unfold State.reviveGo
  split
  · exact hs
  · refine .ite ?_ ((hs.requestPages _).reviveCheck _)
    split
    next he => exact ((hs.requestExtent _ _ _).of_fst_eq he)
    next he => exact .ite ((hs.requestExtent _ _ _).of_fst_eq he) (((hs.requestExtent _ _ _).of_fst_eq he).reviveFail _ _)

theorem Canonical.reviveAccept (hs : Canonical s) (h : Nat) (narrow hint : Bool) : AllOk Canonical (s.reviveAccept h narrow hint) := by
  unfold State.reviveAccept
  dsimp only
  split
  · exact .error
  · refine .ite .error ?_
    refine .ite (.ok ((hs.setSess _ _).reviveGo _)) ?_
    split
    · exact .error
    next he => exact .ok ((((Canonical.ite ((hs.runsFree _ _).moveEnd _) hs).newDir _ _ _ he).setSess _ _).reviveGo _)

theorem Canonical.extentRead (hs : Canonical s) (h : Nat) (second : Bool) (img : List Byte) : Canonical (s.extentRead h second img) := by
  unfold State.extentRead
  split
  · exact hs
  · split
    · exact hs
    · refine .ite hs ?_
      refine .ite ((((hs.setSess _ _).sweepSess _).requestPages _).reviveCheck _) ?_
      refine .ite ?_ (((hs.count _ _ _ _).record _).loseAll _ _)
      split
      next he => exact (((hs.count _ _ _ _).requestExtent _ _ _).of_fst_eq he)
      next he =>
        exact .ite (((((hs.count _ _ _ _).requestExtent _ _ _).of_fst_eq he).record _).loseAll _ _)
          ((((hs.count _ _ _ _).requestExtent _ _ _).of_fst_eq he).reviveFail _ _)

theorem Canonical.readFail (hs : Canonical s) (h status : Nat) : Canonical (s.readFail h status) := by
  unfold State.readFail
  split
  · exact hs
  · exact .ite (hs.demoteFail _ _) (.ite hs (hs.reviveFail _ _))

theorem Canonical.noteEntry (hs : Canonical s) (h n : Nat) (e : Pte) : Canonical (s.noteEntry h n e) := hs.modRun _
theorem Canonical.noteLanding (hs : Canonical s) (h g : Nat) : Canonical (s.noteLanding h g) := hs.modRun _

theorem Canonical.landPage (hs : Canonical s) (mv h n : Nat) (second : Bool) (img : List Byte) : Canonical
    (s.landPage mv h n second img) := by
  unfold State.landPage
  dsimp only
  split
  · exact hs
  · split
    · exact hs
    · refine .ite hs ?_
      split
      · exact ((Canonical.ite ((((hs.hwrite _ _ _).setSess _ _).noteEntry _ _ _).count _ _ _ _)
          (((hs.hwrite _ _ _).setSess _ _).noteEntry _ _ _)).noteLanding _ _).reviveCheck _
      · refine .ite ?_ ((((((hs.count _ _ _ _).record _).copyFree _ _).updSess _ _).pageLost _ _ _).reviveCheck _)
        split
        · exact (((((hs.count _ _ _ _).record _).copyFree _ _).updSess _ _).pageLost _ _ _).reviveCheck _
        · split
          next he => exact ((hs.count _ _ _ _).getCopy _ _ _ _ _ _ he)
          · exact .ite ((((((hs.count _ _ _ _).record _).copyFree _ _).updSess _ _).pageLost _ _ _).reviveCheck _)
              ((hs.count _ _ _ _).reviveFail _ _)

theorem Canonical.reseal (hs : Canonical s) (h n : Nat) (second : Bool) (img : List Byte) : Canonical (s.reseal h n second img) := by
  unfold State.reseal
  dsimp only
  split
  · exact hs
  · split
    · exact hs
    · split
      · exact hs.sendCopy _ _ _ _ _ _ _
      · split
        · exact (hs.count _ _ _ _).demoteFail _ _
        · split
          next he => exact ((hs.count _ _ _ _).getCopy _ _ _ _ _ _ he)
          · exact (hs.count _ _ _ _).demoteFail _ _

theorem Canonical.demoteExtent (hs : Canonical s) (h : Nat) (second : Bool) (img : List Byte) : Canonical
    (s.demoteExtent h second img) := by
  unfold State.demoteExtent
  dsimp only
  split
  · exact hs
  · refine .ite hs ?_
    refine .ite ?_ ?_
    · split
      · exact hs.sweepExtent _ _
      · refine .ite ((((hs.sweepExtent _ _).runsFree _ _).moveEnd _).updSess _ _) ?_
        split
        next he => exact ((hs.sweepExtent _ _).demotePages _ _ _ he).demoteCheck _
        · exact (hs.sweepExtent _ _).demoteFail _ _
    · split
      · exact (hs.count _ _ _ _).demoteFail _ _
      · split
        next he => exact ((hs.count _ _ _ _).getCopy _ _ _ _ _ _ he)
        · exact (hs.count _ _ _ _).demoteFail _ _

theorem Canonical.moverRead (hs : Canonical s) (mv h n : Nat) (ue : Option Nat) (x : Session) {t : State}
    (he : s.moverRead mv h n ue x = .error t) : Canonical t := by
  unfold State.moverRead at he
  dsimp only at he
  split at he
  · cases he
    exact (hs.ueRead _ _ _).lineBad _
  · split at he
    · cases he
    · cases he
      exact (hs.record _).pageBad _ _

theorem Canonical.parkPage (hs : Canonical s) (mv h n : Nat) (ue : Option Nat) : Canonical (s.parkPage mv h n ue) := by
  unfold State.parkPage
  dsimp only
  split
  · exact hs
  · split
    · exact hs
    · split
      next he =>
        have ht := hs.moverRead _ _ _ _ _ he
        split
        · exact .ite (ht.parkFail _ _) ht
        · exact ht
      · exact hs.sendCopy _ _ _ _ _ _ _

/-! ### Checkpoint and restore (13) -/

theorem Canonical.setCkpt (hs : Canonical s) (ctx : Nat) (k : Ckpt) : Canonical (s.setCkpt ctx k) := hs.modCks _

theorem Canonical.ckptEvent (hs : Canonical s) (ctx code status seq value : Nat) : Canonical (s.ckptEvent ctx code status seq value) := by
  unfold State.ckptEvent
  split
  · exact hs.otherEvent _ _ _ _ _ _
  · exact hs

theorem Canonical.shardRuns (hs : Canonical s) (ctx lease : Nat) (l : List Shard) :
    AllSome (Canonical ·.2) (s.shardRuns ctx lease l) := by
  induction l generalizing s with
  | nil => exact .some hs
  | cons x l ih =>
    unfold State.shardRuns
    split
    · exact .none
    next he => exact .map (ih (hs.runAlloc _ _ _ _ he)) fun _ ht => ht

theorem Canonical.takeSlots (hs : Canonical s) (ctx lease : Nat) (k : Ckpt) : AllSome Canonical (s.takeSlots ctx lease k) := by
  unfold State.takeSlots
  refine .ite (.some hs) ?_
  split
  · exact .none
  · refine .ite .none ?_
    refine .some ?_
    split
    · exact (hs.updLease _ _ _).updLease _ _ _
    · exact hs.updLease _ _ _

theorem Canonical.ckptStart (hs : Canonical s) (ctx trig : Nat) : AllOk Canonical (s.ckptStart ctx trig) := by
  unfold State.ckptStart
  refine .ite .error ?_
  split
  · exact .error
  · split
    · exact .error
    next he => exact .ite .error (.ok ((hs.takeSlots _ _ _ _ he).setCkpt _ _))

theorem Canonical.ckptResult (hs : Canonical s) (ctx st : Nat) : Canonical (s.ckptResult ctx st) := hs.setObj _ _ _ _ _

theorem Canonical.ckptWarn (hs : Canonical s) (trig : Nat) : Canonical (s.ckptWarn trig) := by
  unfold State.ckptWarn
  refine hs.each _ fun _ _ ht => ?_
  refine .ite (ht.count _ _ _ _) ?_
  split
  next he1 => exact (ht.ckptStart _ _ _ he1).count _ _ _ _
  · exact ht.ckptResult _ _

theorem Canonical.copyFrame (hs : Canonical s) (ctx f : Nat) : Canonical (s.copyFrame ctx f) := by
  unfold State.copyFrame
  refine Canonical.modCks ?_ _
  refine Canonical.setCkpt ?_ _ _
  refine Canonical.cleanLines ?_ _ _ _
  split
  · exact (hs.hbmUe _ _ _ _ _).count _ _ _ _
  · exact hs

theorem Canonical.ckptIdle (hs : Canonical s) (ctx : Nat) : Canonical (s.ckptIdle ctx) := ((hs.orphan _).modSes _ (by rfl)).modCks _

theorem Canonical.ckptFail (hs : Canonical s) (ctx st : Nat) (tell : Bool) : Canonical (s.ckptFail ctx st tell) := by
  unfold State.ckptFail
  extract_lets k lease t0 r t1 t
  have h0 : Canonical t0 := .ite hs (hs.each _ fun _ _ ht => ht.runFree _ _ _)
  have h1 : Canonical t1 := by
    refine .ite ?_ h0
    split
    next he => exact h0.sealNonce.putCopy _ _ _ _ _ _ he
    · exact h0
  have ht : Canonical t := (h1.ckptIdle _).ckptResult _ _
  exact .ite (ht.ckptEvent _ _ _ _ _) ht

theorem Canonical.partUe (hs : Canonical s) (ctx p : Nat) : AllSome Canonical (s.partUe ctx p) := by
  unfold State.partUe
  dsimp only
  split
  · exact .none
  · split
    · exact .some (hs.ueRead _ _ _)
    · exact .ite (.some (hs.count _ _ _ _)) .none

theorem Canonical.sendPart (hs : Canonical s) (ctx p : Nat) : Canonical (s.sendPart ctx p) := by
  unfold State.sendPart
  dsimp only
  split
  next he => exact (hs.partUe _ _ _ he).ckptFail _ _ _
  · split
    next he => exact ((hs.sealNonce.setCkpt _ _).putCopy _ _ _ _ _ _ he)
    · exact hs.ckptFail _ _ _

theorem Canonical.drainVoid (hs : Canonical s) (ctx : Nat) (k : Ckpt) : Canonical (s.drainVoid ctx k) := by
  unfold State.drainVoid
  dsimp only
  split
  · exact ((hs.each _ (fun _ _ ht => ht.each _ (fun _ _ hu => hu.runFree _ _ _))).setCkpt _ _).ckptFail _ _ _
  next he => exact ((hs.each _ (fun _ _ ht => ht.each _ (fun _ _ hu => hu.runFree _ _ _))).shardRuns _ _ _ _ he).setCkpt _ _

theorem Canonical.drainPlaced (hs : Canonical s) (ctx : Nat) : Canonical (s.drainPlaced ctx) :=
  .ite hs (.ite ((hs.setCkpt _ _).drainVoid _ _)
    (.ite (((((((hs.setCkpt _ _).setCkpt _ _).ckptIdle _).ckptResult _ _).setObj _ _ _ _ _).count _ _ _ _).ckptEvent _ _ _ _ _)
    (hs.setCkpt _ _)))

theorem Canonical.copyBox (hs : Canonical s) (ctx : Nat) (e : Tensor) (x : ShardHdr) (old : List Cand) (pay : List Byte) : Canonical
    (s.copyBox ctx e x old pay) :=
  hs.foldl _ (fun _ _ ht => ht.cwrite _ _ _)

theorem Canonical.report (hs : Canonical s) (ctx : Nat) (r : Restore) (st : Option Nat) (status : Nat) : Canonical
    (s.report ctx r st status) :=
  hs.cwrite _ _ _

theorem Canonical.freeBoxes (hs : Canonical s) (ctx : Nat) (m : Manifest) : Canonical (s.freeBoxes ctx m) :=
  hs.each _ (fun _ _ ht => ht.take1.cwrite _ _ _)

theorem Canonical.restoreEnd (hs : Canonical s) (ctx status : Nat) (st : Option Nat) (lines : Bool) : Canonical
    (s.restoreEnd ctx status st lines) := by
  unfold State.restoreEnd
  refine Canonical.ckptEvent ?_ _ _ _ _ _
  refine .ite ?_ ?_
  · refine Canonical.count ?_ _ _ _ _
    refine Canonical.ckptResult ?_ _ _
    refine Canonical.ckptIdle ?_ _
    split
    · exact .ite (hs.report _ _ _ _) (.ite (hs.freeBoxes _ _) hs)
    · exact hs
  · refine Canonical.ckptResult ?_ _ _
    refine Canonical.ckptIdle ?_ _
    split
    · exact .ite (hs.report _ _ _ _) (.ite (hs.freeBoxes _ _) hs)
    · exact hs

theorem Canonical.restoreGet (hs : Canonical s) (ctx lease off n part : Nat) : Canonical (s.restoreGet ctx lease off n part) := by
  unfold State.restoreGet
  split
  next he => exact (hs.getCopy _ _ _ _ _ _ he)
  · exact hs.restoreEnd _ _ _ _

theorem Canonical.restoreNext (hs : Canonical s) (ctx : Nat) : Canonical (s.restoreNext ctx) := by
  unfold State.restoreNext
  split
  · exact hs
  · split
    · exact hs.restoreEnd _ _ _ _
    · exact hs.restoreGet _ _ _ _ _

theorem Canonical.restoreChoose (hs : Canonical s) (ctx : Nat) : Canonical (s.restoreChoose ctx) := by
  unfold State.restoreChoose
  dsimp only
  split
  · exact hs
  · split
    · exact hs.restoreEnd _ _ _ _
    · exact (hs.setCkpt _ _).restoreNext _

theorem Canonical.restoreCats (hs : Canonical s) (ctx : Nat) : Canonical (s.restoreCats ctx) := by
  unfold State.restoreCats
  dsimp only
  split
  · exact hs
  · exact (hs.setCkpt _ _).restoreChoose _

theorem Canonical.restoreData (hs : Canonical s) (ctx part : Nat) (bs : List Byte) : Canonical (s.restoreData ctx part bs) := by
  unfold State.restoreData
  dsimp only
  split
  · exact hs
  · refine .ite (.ite ((hs.setCkpt _ _).restoreGet _ _ _ _ _) (.ite ((hs.setCkpt _ _).restoreCats _) (hs.setCkpt _ _))) ?_
    split
    · exact hs
    · split
      · exact (hs.setCkpt _ _).restoreChoose _
      · exact ((hs.copyBox _ _ _ _ _).setCkpt _ _).restoreNext _

theorem Canonical.restoreStart (hs : Canonical s) (ctx : Nat) : AllOk Canonical (s.restoreStart ctx) := by
  unfold State.restoreStart
  refine .ite .error ?_
  split
  · exact .error
  · split
    · exact .error
    · exact .ok ((hs.setCkpt _ _).foldl _ (fun _ _ ht => .ite (ht.restoreGet _ _ _ _ _) ht))

/-! ### Cores (03 R65-R76) -/

theorem Canonical.setCore (hs : Canonical s) (k : Nat) (c : Core) : Canonical (s.setCore k c) := hs.modRun _

theorem Canonical.goTo (hs : Canonical s) (k : Nat) (c : Core) (cost target : Nat) : Canonical (s.goTo k c cost target) :=
  .ite (hs.setCore _ _) (hs.coreFault _ _)

theorem Canonical.retireIsn (hs : Canonical s) (k : Nat) (c : Core) (cost : Nat) : Canonical (s.retireIsn k c cost) := hs.goTo _ _ _ _

theorem Canonical.did (hs : Canonical s) (k : Nat) (c : Core) (a3 : Did) : Canonical (s.did k c a3) := by
  unfold State.did
  split
  · exact hs.retireIsn _ _ _
  · exact hs.goTo _ _ _ _
  · exact hs.coreFault _ _

theorem coreIsn_goes (s : State) (k : Nat) (i : Isn) (f : Core → Step → Did) : Goes s (s.coreIsn k i f) := by
  unfold State.coreIsn
  split
  · exact .next id
  · exact .next fun hs => hs.did _ _ _

theorem coreIsn'_goes (s : State) (k : Nat) (i : Isn) (f : Core → Step → State) (hf : Canonical s → ∀ c p, Canonical (f c p)) :
    Goes s (s.coreIsn' k i f) := by
  unfold State.coreIsn'
  split
  · exact .next id
  · exact .next fun hs => hf hs _ _

theorem Canonical.syncClear (hs : Canonical s) (n : Nat) : Canonical (s.syncClear n) := (hs.updStp _ _).modRun _

theorem Canonical.performWrites (hs : Canonical s) (ctx : Nat) (c : Core) : Canonical (s.performWrites ctx c) :=
  hs.each _ (fun _ _ ht => ht.cwrite _ _ _)

theorem Canonical.finish (hs : Canonical s) (n : Nat) : Canonical (s.finish n) := by
  unfold State.finish
  split
  · exact hs
  · exact .ite (((hs.each _ (fun _ _ ht => ht.performWrites _ _)).setStp _ _).endStep _ _ _) hs

theorem execEndProg_goes (core : Nat) (s : State) : Goes s (execEndProg core s) := by
  unfold execEndProg
  refine coreIsn'_goes _ _ _ _ fun hs _ _ => ?_
  split
  · exact hs.coreFault _ _
  · exact ((hs.setCore _ _).updStp _ _).finish _

/-! ### Key agreement and joins (12 R349-R356) -/

theorem Canonical.sendKeyx (hs : Canonical s) (node role start : Nat) (fresh peer : BitVec 256) (eph : Nat) : Canonical
    (s.sendKeyx node role start fresh peer eph) := by
  unfold State.sendKeyx
  split
  · exact (hs.updFlow _ _).send _ _ _ _
  · exact hs

theorem Canonical.hello (hs : Canonical s) (node : Nat) : Canonical (s.hello node) := by
  unfold State.hello
  split
  · exact hs
  · exact .ite hs ((hs.take1.take1.setKeys _ _).sendKeyx _ _ _ _ _ _)

theorem Canonical.helloIn (hs : Canonical s) (k : Keyx) : Canonical (s.helloIn k) := by
  unfold State.helloIn
  dsimp only
  split
  · exact hs
  · exact (Canonical.ite (hs.take1.take1.setKeys _ _) ((hs.take1.take1.setKeys _ _).updFlow _ _)).sendKeyx _ _ _ _ _ _

theorem Canonical.replyIn (hs : Canonical s) (k : Keyx) (h : Hello) : Canonical (s.replyIn k h) := hs.setKeys _ _
theorem Canonical.joinRecord (hs : Canonical s) (node ctx peer pc : Nat) : Canonical (s.joinRecord node ctx peer pc).2 := hs.modSec _

theorem Canonical.joinIn (hs : Canonical s) (node b : Nat) (bs : List Byte) : AllSome Canonical (s.joinIn node b bs) :=
  .ite .none (.ite .none (.some ((hs.modSec _).setObj _ _ _ _ _)))

theorem Canonical.joinDone (hs : Canonical s) (ctx peer pc status : Nat) : Canonical (s.joinDone ctx peer pc status) :=
  .ite (hs.setObj _ _ _ _ _) (((hs.setObj _ _ _ _ _).setObj _ _ _ _ _).modSec _)

/-! ### Engines, vector unit, append port (02; 03 R67-R94) -/

theorem Canonical.apndRow (hs : Canonical s) (n pos : Nat) (p : Step) (f : FmtA) (r c0 : Nat) (vs : List Num) : Canonical
    (s.apndRow n pos p f r c0 vs) := by
  unfold State.apndRow
  split
  · exact hs
  · exact ((hs.hwrite _ _ _).setSess _ _).updStp _ _

theorem Canonical.holdCore (hs : Canonical s) (k : Nat) (c : Core) : Canonical (s.holdCore k c) := hs.setCore _ _

theorem execApndWrite_goes (core : Nat) (f : FmtA) (s : State) : Goes s (execApndWrite core f s) := by
  unfold execApndWrite
  refine coreIsn'_goes _ _ _ _ fun hs _ _ => ?_
  split
  · exact hs.coreFault _ _
  · refine .ite (hs.coreFault _ _) ?_
    split
    · exact .ite (hs.holdCore _ _) (hs.coreFault _ _)
    · exact (hs.foldl _ (fun _ _ ht => ht.apndRow _ _ _ _ _ _ _)).retireIsn _ _ _

theorem Canonical.checkFail (hs : Canonical s) (k : Nat) (c : Core) (p : Step) (e : Nat) : Canonical (s.checkFail k c p e) :=
  ((hs.record _).coreFault _ _).dieFault _

theorem Canonical.engCommit (hs : Canonical s) (n : Nat) (p : Step) (k : Nat) (c : Core) (f : FmtE) (r : EngRes) : Canonical
    (s.engCommit n p k c f r) := by
  unfold State.engCommit
  refine Canonical.setCore ?_ _ _
  split
  · exact .ite (hs.foldl _ (fun _ _ ht => ht.foldl _ (fun _ _ hu => hu.apndRow _ _ _ _ _ _ _))) hs
  · exact hs

theorem engRow_goes (s : State) (n op : Nat) (sig : EngSig) (flt : Option EngFault)
    (run : Step → Core → FmtE → Option EngFault → Except Nat EngRes) : Goes s (s.engRow n op sig flt run) := by
  unfold State.engRow
  split
  · exact .next id
  extract_lets l rs waits s1 s2 s3
  have h3 (hs : Canonical s) : Canonical s3 := by
    have h1 : Canonical s1 := by
      refine hs.foldl _ fun _ _ ht => ?_
      split
      · exact ht.engCommit _ _ _ _ _ _
      · exact ht
    exact .ite ((h1.syncClear _).updStp _ _) (h1.syncClear _)
  split
  · exact .next fun hs => hs.coreFault _ _
  refine .ite (.next id) ?_
  split
  · exact .next fun hs => hs.coreFault _ _
  split
  · exact .next fun hs => hs.coreFault _ _
  refine .ite (.next fun hs => hs.foldl _ fun _ _ ht => ht.holdCore _ _) ?_
  split
  · exact .next fun hs => hs.checkFail _ _ _ _
  split
  · exact .next fun hs => (h3 hs).coreFault _ _
  · exact .next h3

theorem execCourseRealign_goes (step : Nat) (s : State) : Goes s (execCourseRealign step s) := by
  unfold execCourseRealign
  split
  · exact .next id
  · split
    · exact .next fun hs => hs.coreFault _ _
    · exact .ite (.next id) (.next fun hs => hs.modRun _)

/-! ### Stream requests and barriers (03 R81-R92) -/

theorem Canonical.issue (hs : Canonical s) (k : Nat) (c : Core) (r : StreamReq) (cost : Nat) : Canonical (s.issue k c r cost) :=
  .ite (hs.setCore _ _) (hs.retireIsn _ _ _)

theorem Canonical.strCtx (hs : Canonical s) (k : Nat) (c : Core) (p : Step) (kind : StreamKind) (f : FmtT) : Canonical
    (s.strCtx k c p kind f) :=
  .ite (hs.coreFault _ _) (.ite (hs.coreFault _ _) (hs.issue _ _ _ _))

theorem execStrRd_goes (core : Nat) (f : FmtT) (s : State) : Goes s (execStrRd core f s) :=
  coreIsn'_goes _ _ _ _ (fun hs _ _ => hs.strCtx _ _ _ _ _)

theorem execStrWr_goes (core : Nat) (f : FmtT) (s : State) : Goes s (execStrWr core f s) :=
  coreIsn'_goes _ _ _ _ (fun hs _ _ => hs.strCtx _ _ _ _ _)

theorem execStrSpread_goes (core : Nat) (f : FmtT) (s : State) : Goes s (execStrSpread core f s) :=
  coreIsn'_goes _ _ _ _ (fun hs _ _ => .ite (hs.coreFault _ _) (.ite (hs.coreFault _ _) (hs.strCtx _ _ _ _ _)))

theorem execStrPage_goes (core : Nat) (f : FmtP) (s : State) : Goes s (execStrPage core f s) :=
  coreIsn'_goes _ _ _ _ (fun hs _ _ => .ite (hs.coreFault _ _) (.ite (hs.coreFault _ _)
    (.ite (hs.coreFault _ _) (.ite (hs.coreFault _ _) (.ite (hs.coreFault _ _) (.ite (hs.coreFault _ _) (hs.issue _ _ _ _)))))))

theorem Canonical.reqFault (hs : Canonical s) (c : Core) (ip status : Nat) : Canonical (s.reqFault c ip status) := hs.stepFail _ _ _ _

theorem Canonical.reqUe (hs : Canonical s) (c : Core) (p : Step) (r : StreamReq) (l : Nat) (handle : Option Nat) : Canonical
    (s.reqUe c p r l handle) :=
  ((hs.ueRead _ _ _).reqFault _ _ _).lineBad _

theorem Canonical.pageDone (hs : Canonical s) (k : Nat) (c : Core) (p : Step) (r : StreamReq) (fmt : Nat) (bs : List Byte) : Canonical
    (s.pageDone k c p r fmt bs) :=
  (Canonical.ite hs.take1 hs).setCore _ _

theorem Canonical.dispatched (hs : Canonical s) (n : Nat) (p : Step) (r : StreamReq) : Canonical (s.dispatched n p r) := by
  unfold State.dispatched
  split
  · exact .ite ((hs.updStp _ _).setObj _ _ _ _ _) hs
  · exact hs

theorem Canonical.pageReq (hs : Canonical s) (k : Nat) (c : Core) (p : Step) (r : StreamReq) (ue : Option Nat) : Canonical
    (s.pageReq k c p r ue) := by
  unfold State.pageReq
  split
  · refine .ite ?_ ?_
    · split
      · exact hs.reqUe _ _ _ _ _
      · exact hs.reqFault _ _ _
    · refine .ite (.ite hs (hs.reqFault _ _ _)) ?_
      split
      · exact hs.reqUe _ _ _ _ _
      · exact (hs.pageDone _ _ _ _ _ _).dispatched _ _ _
  · exact hs
  · refine .ite (hs.reqFault _ _ _) ?_
    split
    · exact hs.reqUe _ _ _ _ _
    · exact (hs.pageDone _ _ _ _ _ _).dispatched _ _ _

theorem execStreamRequestComplete_goes (core : Nat) (ue : Option Nat) (s : State) : Goes s (execStreamRequestComplete core ue s) := by
  unfold execStreamRequestComplete
  split
  · exact .next id
  · split
    · refine .ite (.next id) ?_
      split
      · exact .next fun hs => (hs.pageReq _ _ _ _ _).finish _
      · split
        · exact .next fun hs => hs.reqUe _ _ _ _ _
        · exact .next fun hs => ((hs.setCore _ _).dispatched _ _ _).finish _
      · exact .ite (.next fun hs => hs.cbwHold _ _) (.next fun hs => ((hs.cwrite _ _ _).setCore _ _).finish _)
      · refine .ite (.next id) ?_
        split
        · exact .next fun hs => hs.reqUe _ _ _ _ _
        · exact .next fun hs => ((hs.foldl _ (fun _ _ ht => ht.setCore _ _)).dispatched _ _ _).finish _
    · exact .next id

theorem execStreamStall_goes (step : Nat) (s : State) : Goes s (execStreamStall step s) := by
  unfold execStreamStall
  split
  · exact .next fun hs => hs.lateExpiry _ _
  · split
    · exact .next id
    · split
      · exact .next fun hs => hs.reqFault _ _ _
      · exact .ite (.next fun hs => hs.endStep _ _ _) (.next id)

theorem Canonical.arrive (hs : Canonical s) (k : Nat) (c : Core) (p : Step) (ev : SyncEv) (ph : CorePh) : Canonical
    (s.arrive k c p ev ph) := by
  unfold State.arrive
  split
  · exact hs.coreFault _ _
  · exact (hs.setCore _ _).updStp _ _

theorem execBarrier_goes (core : Nat) (s : State) : Goes s (execBarrier core s) := coreIsn'_goes _ _ _ _ (fun hs _ _ => hs.arrive _ _ _ _ _)

theorem execPpoint_goes (core : Nat) (f : FmtPp) (s : State) : Goes s (execPpoint core f s) :=
  coreIsn'_goes _ _ _ _ (fun hs _ _ => .ite (hs.coreFault _ _) (hs.arrive _ _ _ _ _))

theorem Canonical.leave (hs : Canonical s) (n : Nat) (p : Step) : Canonical (s.leave n p) := ((hs.syncClear _).updStp _ _).modRun _

theorem execBarrierRelease_goes (step : Nat) (s : State) : Goes s (execBarrierRelease step s) := by
  unfold execBarrierRelease
  split
  · exact .next id
  · refine .ite (.next id) ?_
    split
    · exact .next fun hs => hs.coreFault _ _
    · exact .next fun hs => hs.leave _ _

theorem execPpointRelease_goes (step : Nat) (s : State) : Goes s (execPpointRelease step s) := by
  unfold execPpointRelease
  dsimp only
  split
  · exact .next id
  · refine .ite (.next id) ?_
    split
    · exact .next fun hs => (hs.modRun _).coreFault _ _
    · exact .ite (.next fun hs => (((hs.modRun _).leave _ _).updStp _ _).preempt _)
        (.ite (.next fun hs => (((hs.modRun _).leave _ _).updStp _ _).updStp _ _) (.next fun hs => ((hs.modRun _).leave _ _).updStp _ _))

/-! ### Core messages and waits (03 R85-R90, R95) -/

theorem Canonical.sendMsg (hs : Canonical s) (n : Nat) (m : Msg) : Canonical (s.sendMsg n m) := hs.updStp _ _

theorem Canonical.courseMsg (hs : Canonical s) (k : Nat) (c : Core) (p : Step) (f : FmtM) (ok : Bool) (body : Nat → List Byte → MsgBody) :
    Canonical (s.courseMsg k c p f ok body) :=
  .ite (hs.coreFault _ _) (.ite (hs.coreFault _ _) ((hs.sendMsg _ _).retireIsn _ _ _))

theorem Canonical.remote (hs : Canonical s) (k : Nat) (c : Core) (p : Step) (f : FmtM) (kind : RemKind) (op dst : Nat)
    (items : List LineItem) (cost : Nat) : Canonical (s.remote k c p f kind op dst items cost) := by
  unfold State.remote
  refine .ite (hs.coreFault _ _) ?_
  split
  · exact hs
  · exact (hs.modFab _).retireIsn _ _ _

theorem execPut_goes (core : Nat) (f : FmtM) (s : State) : Goes s (execPut core f s) :=
  coreIsn'_goes _ _ _ _ (fun hs _ _ => .ite (.ite (hs.coreFault _ _) (.ite (hs.coreFault _ _) (hs.remote _ _ _ _ _ _ _ _ _)))
    (hs.courseMsg _ _ _ _ _ _))

theorem execAddput_goes (core : Nat) (f : FmtM) (s : State) : Goes s (execAddput core f s) :=
  coreIsn'_goes _ _ _ _ (fun hs _ _ => hs.courseMsg _ _ _ _ _ _)

theorem execSignal_goes (core : Nat) (f : FmtM) (s : State) : Goes s (execSignal core f s) :=
  coreIsn'_goes _ _ _ _ (fun hs _ _ => .ite (hs.remote _ _ _ _ _ _ _ _ _) (.ite (hs.coreFault _ _) ((hs.sendMsg _ _).retireIsn _ _ _)))

theorem execGet_goes (core : Nat) (f : FmtM) (s : State) : Goes s (execGet core f s) :=
  coreIsn'_goes _ _ _ _ (fun hs _ _ => .ite (hs.coreFault _ _) (.ite (hs.coreFault _ _) (hs.remote _ _ _ _ _ _ _ _ _)))

theorem execAtom_goes (core : Nat) (f : FmtM) (s : State) : Goes s (execAtom core f s) :=
  coreIsn'_goes _ _ _ _ (fun hs _ _ => .ite (hs.coreFault _ _) (.ite (hs.coreFault _ _) (hs.remote _ _ _ _ _ _ _ _ _)))

theorem Canonical.deliver (hs : Canonical s) (n src dst : Nat) (sig : Bool) : Canonical (s.deliver n src dst sig) := by
  unfold State.deliver
  split
  · exact hs
  · split
    · exact hs
    · exact .ite hs ((hs.modRun _).updStp _ _)

theorem execMessageDeliver_goes (step src dst : Nat) (s : State) : Goes s (execMessageDeliver step src dst s) :=
  .next fun hs => hs.deliver _ _ _ _

theorem execSignalApply_goes (step src dst : Nat) (s : State) : Goes s (execSignalApply step src dst s) :=
  .next fun hs => hs.deliver _ _ _ _

theorem execWait_goes (core : Nat) (f : FmtW) (s : State) : Goes s (execWait core f s) := by
  unfold execWait
  refine coreIsn'_goes _ _ _ _ fun hs _ _ => ?_
  refine .ite (hs.coreFault _ _) ?_
  split
  · exact hs.retireIsn _ _ _
  · exact hs.setCore _ _

theorem execWaitMet_goes (core : Nat) (s : State) : Goes s (execWaitMet core s) := by
  unfold execWaitMet
  split
  · exact .next id
  · split
    · exact .next fun hs => hs.retireIsn _ _ _
    · exact .next id

theorem execWaitBoundExpiry_goes (core : Nat) (s : State) : Goes s (execWaitBoundExpiry core s) := by
  unfold execWaitBoundExpiry
  split
  · exact .next fun hs => Canonical.getD (.map_any fun _ => hs.lateExpiry _ _) hs
  · exact .ite (.next fun hs => hs.coreFault _ _) (.next id)

theorem execPost_goes (core : Nat) (f : FmtPost) (s : State) : Goes s (execPost core f s) :=
  coreIsn'_goes _ _ _ _ (fun hs _ _ => (Canonical.ite (hs.updStp _ _) (hs.updStp _ _)).retireIsn _ _ _)

/-! ### Admission and dispatch (03 R96-R100; 10) -/

theorem Canonical.openPage (hs : Canonical s) (h n : Nat) (x : Session) (b : BindRec) : AllSome Canonical (s.openPage h n x b) := by
  unfold State.openPage
  split
  · exact .none
  next he =>
    refine .map ((hs.dirNeed _ _ _ _ _ he).unitAlloc _ _ _) fun _ hu => ?_
    split
    · exact hu.setSess _ _

theorem Canonical.reservePages (n h : Nat) (ns : List Nat) (hs : Canonical s) : AllSome Canonical (State.reservePages n h ns s) := by
  unfold State.reservePages
  refine .foldl (.some hs) _ fun _ _ ht => ?_
  refine .bind ht fun _ hu => ?_
  split
  · exact .none
  · exact .ite (.some (hu.updStp _ _)) (.map (hu.openPage _ _ _ _) fun _ hv => hv.updStp _ _)

theorem Canonical.reserve1 (hs : Canonical s) (n : Nat) (d : StepDesc) (e : SeqEnt) : AllOk Canonical (s.reserve1 n d e) := by
  unfold State.reserve1
  dsimp only
  refine .ite (.ok hs) ?_
  split
  · exact .error
  · refine .ite .error ?_
    refine .ite .error ?_
    split
    · exact .error
    next he => exact .ok ((hs.setSess _ _).reservePages _ _ _ _ he)

theorem Canonical.ringBuffers (hs : Canonical s) (n : Nat) (d : StepDesc) (e : SeqEnt) : AllOk Canonical (s.ringBuffers n d e) := by
  unfold State.ringBuffers
  dsimp only
  split
  · exact .error
  next he => exact .ok ((hs.unitsAlloc _ _ _ _ _ he).updStp _ _)

theorem Canonical.reserveAll (hs : Canonical s) (n : Nat) (d : StepDesc) (seqs : List SeqEnt) : AllOk Canonical (s.reserveAll n d seqs) :=
  .foldl (.ok hs) _ (fun _ _ ht => .bind ht fun _ hu => .bind (hu.reserve1 _ _ _) fun _ hv => .ite (.ok hv) (hv.ringBuffers _ _ _))

theorem Canonical.pinSessions (hs : Canonical s) (seqs : List SeqEnt) : Canonical (s.pinSessions seqs) :=
  hs.foldl _ (fun _ _ ht => (ht.unhold _).updSess _ _)

theorem Canonical.admission (hs : Canonical s) (sq : Nat) (d : StepDesc) (ctxOk : Bool) : AllOk Canonical (s.admission sq d ctxOk) := by
  unfold State.admission
  dsimp only
  split
  · exact .error
  · split
    · exact .error
    · split
      · exact .error
      · split
        · exact .error
        · split
          · exact .error
          next he =>
            split
            · exact .error
            · refine .ok ?_
              refine Canonical.pinSessions ?_ _
              split
              · exact (((hs.setStp _ _).reserveAll _ _ _ _ he).modRun _).adPin _ _ _ _
              · exact ((hs.setStp _ _).reserveAll _ _ _ _ he).modRun _

theorem Canonical.sweepNamed (hs : Canonical s) (d : StepDesc) : Canonical (s.sweepNamed d) := hs.foldl _ (fun _ _ ht => ht.sweepSess _)

theorem execStepDescriptor_goes (sq : Nat) (d : StepDesc) (s : State) : Goes s (execStepDescriptor sq d s) := by
  unfold execStepDescriptor
  dsimp only
  refine .ite (.next id) ?_
  refine .ite (.next fun hs => (hs.takeEntry _ _).stepEntry _ _ _ _ _ _ _ _ _) ?_
  refine .ite (.next fun hs => (hs.takeEntry _ _).stepEntry _ _ _ _ _ _ _ _ _) ?_
  split
  · exact .next fun hs => (Canonical.ite (((hs.takeEntry _ _).sweepNamed _).count _ _ _ _) ((hs.takeEntry _ _).sweepNamed _)).stepEntry _ _
      _ _ _ _ _ _ _
  next he => exact .next fun hs => (((hs.takeEntry _ _).sweepNamed _).admission _ _ _ _ he).ringStart _

theorem Canonical.launchAt (hs : Canonical s) (n : Nat) (p : Step) (qs : List Nat) (lent : Bool) (t0 : Nat) : Canonical
    (s.launchAt n p qs lent t0) := by
  unfold State.launchAt
  dsimp only
  split
  · exact (((hs.modRun _).setStp _ _).ueRead _ _ _).stepFail _ _ _ _
  · exact (hs.modRun _).setStp _ _

theorem Canonical.launch (hs : Canonical s) (n : Nat) (p : Step) (qs : List Nat) (lent : Bool) : Canonical (s.launch n p qs lent) :=
  hs.launchAt _ _ _ _ _

theorem Canonical.dispatchFq (hs : Canonical s) (n : Nat) (p : Step) (qs : List Nat) (lent : Bool) : Canonical (s.dispatchFq n p qs lent) :=
  (hs.fqStart _ _ _ _).launch _ _ _ _

theorem Canonical.dispatchKs (hs : Canonical s) (n : Nat) (p : Step) : Canonical (s.dispatchKs n p) := by
  unfold State.dispatchKs
  split
  · exact hs
  · split
    · exact hs
    · exact .ite hs ((((((hs.each _ (fun _ _ ht => ht.preempt _)).fqStart _ _ _ _).launchAt _ _ _ _ _).count _ _ _ _).modRun _).resume _ _)

theorem execStepDispatch_goes (step : Nat) (s : State) : Goes s (execStepDispatch step s) := by
  unfold execStepDispatch
  split
  · exact .next id
  · refine .ite (.next id) ?_
    refine .ite (.next fun hs => hs.dispatchKs _ _) ?_
    refine .ite ?_ ?_
    · refine .ite (.ite (.next fun hs => (hs.charge _ _ _).launch _ _ _ _) (.next id)) ?_
      split
      · exact .next fun hs => (hs.charge _ _ _).launch _ _ _ _
      · exact .next id
    · split
      · exact .next id
      · refine .ite ?_ ?_
        · split
          · exact .next fun hs => hs.dispatchFq _ _ _ _
          · exact .next fun hs => hs.modRun _
        · refine .ite (.next id) ?_
          split
          · exact .ite (.next fun hs => (hs.modRun _).dispatchFq _ _ _ _) (.next id)
          · exact .next id

theorem execPeriodicRelease_goes (ctx job : Nat) (s : State) : Goes s (execPeriodicRelease ctx job s) := by
  unfold execPeriodicRelease
  split
  · exact .next id
  · exact .ite (.next id) (.ite (.next fun hs => hs.modRun _) (.next fun hs => ((hs.modRun _).endJob _).otherEvent _ _ _ _ _ _))

theorem execTokenRefill_goes (s : State) : Goes s (execTokenRefill s) := .ite (.next id) (.next fun hs => hs.modRun _)

theorem Canonical.armEnd (hs : Canonical s) (c : Nat) : Canonical (s.armEnd c) := by
  unfold State.armEnd
  split
  · exact hs
  · exact (Canonical.ite (hs.modRun _) ((hs.modRun _).count _ _ _ _)).resume _ _

theorem execKeystoneArm_goes (sq : Nat) (h : CmdHdr) (hold : BitVec 20) (s : State) : Goes s (execKeystoneArm sq h hold s) :=
  ringCmd_goes _ _ _ _ _ _ (fun _ ht => .ite (.done ht) (.done (ht.modRun _)))

theorem execKeystoneDisarm_goes (sq : Nat) (h : CmdHdr) (s : State) : Goes s (execKeystoneDisarm sq h s) :=
  ringCmd_goes _ _ _ _ _ _ (fun _ ht => .done (ht.armEnd _))

theorem execKeystoneArmExpiry_goes (ctx : Nat) (s : State) : Goes s (execKeystoneArmExpiry ctx s) := by
  unfold execKeystoneArmExpiry
  split
  · exact .ite (.next fun hs => hs.armEnd _) (.next id)
  · exact .next id

theorem execWcetOverrun_goes (step : Nat) (s : State) : Goes s (execWcetOverrun step s) := by
  unfold execWcetOverrun
  split
  · exact .ite (.next fun hs => hs.endStep _ _ _) (.next id)
  · exact .next fun hs => hs.lateExpiry _ _

theorem execStepDeadline_goes (step : Nat) (s : State) : Goes s (execStepDeadline step s) := by
  unfold execStepDeadline
  split
  · exact .ite (.next fun hs => hs.endStep _ _ _) (.next id)
  · exact .next fun hs => hs.lateExpiry _ _

theorem execPpGapExpiry_goes (step : Nat) (s : State) : Goes s (execPpGapExpiry step s) := by
  unfold execPpGapExpiry
  split
  · exact .ite (.next fun hs => hs.endStep _ _ _) (.next id)
  · exact .next fun hs => hs.lateExpiry _ _

/-! ### The line fabric (07) -/

theorem Canonical.portRec (hs : Canonical s) (port sev : Nat) (shared : Bool) : Canonical (s.portRec port sev shared) := hs.record _
theorem Canonical.portRetrain (hs : Canonical s) (p lanes : Nat) : Canonical (s.portRetrain p lanes) := (hs.portRec _ _ _).setPort _ _
theorem Canonical.portDown (hs : Canonical s) (p : Nat) : Canonical (s.portDown p) := (hs.portRec _ _ _).setPort _ _

theorem Canonical.frameIn (hs : Canonical s) (p : Nat) (f : LinkFrame) : Canonical (s.frameIn p f) :=
  .ite ((hs.setPort _ _).drainQ) (.ite (((((hs.setPort _ _).emitFrames _ _).count _ _ _ _).portRec _ _ _).portRetrain _ _)
    ((((((hs.setPort _ _).emitFrames _ _).count _ _ _ _).portRec _ _ _).setPort _ _).drainQ))

theorem Canonical.refreshPorts (hs : Canonical s) : Canonical s.refreshPorts := .ite ((hs.modFab _).drainQ) hs

theorem Canonical.fecCount (hs : Canonical s) (p : Nat) (bad : Bool) : Canonical (s.fecCount p bad) :=
  .ite (((hs.take1.count _ _ _ _).take1).count _ _ _ _) (hs.take1.count _ _ _ _)

theorem execLinkFrameReceive_goes (port : Nat) (fr : LinkFrame) (s : State) : Goes s (execLinkFrameReceive port fr s) :=
  .ite (.next id) (.ite (.next id) (.ite (.next fun hs => (hs.fecCount _ _).setPort _ _)
    (.ite (.next fun hs => hs.fecCount _ _) (.next fun hs => (hs.fecCount _ _).frameIn _ _))))

theorem execPortTrainingDone_goes (port width : Nat) (s : State) : Goes s (execPortTrainingDone port width s) :=
  .ite (.next id) (.ite (.next id) (.ite (.next fun hs => (((Canonical.ite (hs.portRec _ _ _) hs).setPort _ _).domEnd _).drainQ)
    (.next fun hs => (hs.portDown _).domEnd _)))

theorem execPortLaneLoss_goes (port : Nat) (lanes : BitVec 4) (s : State) : Goes s (execPortLaneLoss port lanes s) :=
  .ite (.next id) (.ite (.next id) (.ite (.next fun hs => hs.portRetrain _ _)
    (.ite (.next fun hs => hs.portRetrain _ _) (.next fun hs => hs.portDown _))))

theorem execPortBringup_goes (node id : BitVec 16) (s : State) : Goes s (execPortBringup node id s) :=
  .ite (.next fun hs => hs) (.next fun hs => hs.modFab _)

theorem execMapBegin_goes (epoch : W32) (idBytes extBytes gwBytes : Nat) (s : State) : Goes s
    (execMapBegin epoch idBytes extBytes gwBytes s) :=
  .ite (.next id) (.next fun hs => hs.modFab _)

theorem execMapData_goes (offset : Nat) (data : List Byte) (s : State) : Goes s (execMapData offset data s) :=
  .ite (.next id) (.next fun hs => hs.modFab _)

theorem execMapAckSend_goes (s : State) : Goes s (execMapAckSend s) := by
  unfold execMapAckSend
  split
  · exact .next id
  · exact .ite (.next id) (.next fun hs => (hs.modFab _).send _ _ _ _)

theorem execRegionSet_goes (sq : Nat) (h : CmdHdr) (first : BitVec 16) (rcd : RegionRec) (s : State) : Goes s
    (execRegionSet sq h first rcd s) :=
  ringCmd_goes _ _ _ _ _ _ (fun _ ht => .ite (.done ht) (.ite (.done ht) (.done (ht.modFab _))))

theorem execRegionClear_goes (sq : Nat) (h : CmdHdr) (first : BitVec 16) (s : State) : Goes s (execRegionClear sq h first s) := by
  unfold execRegionClear
  dsimp only
  refine ringCmd_goes _ _ _ _ _ _ fun _ ht => ?_
  split
  · exact .done ht
  · exact .ite (.done ht) (.ite (.done ht) (.later (ht.modFab _)))

theorem execRegionClearDone_goes (first : Nat) (s : State) : Goes s (execRegionClearDone first s) := by
  unfold execRegionClearDone
  split
  · exact .ite (.next id) (.next fun hs => (hs.modFab _).cmdDone _ _ _ _ _ _ _ _)
  · exact .next id

theorem Canonical.keyReject (hs : Canonical s) (src first : Nat) (r : Region) : Canonical (s.keyReject src first r) :=
  .ite (((((hs.count _ _ _ _).modBulk _).modBulk _).count _ _ _ _).record _) ((hs.count _ _ _ _).modBulk _)

theorem execQuarantineEnd_goes (node first : Nat) (s : State) : Goes s (execQuarantineEnd node first s) := by
  unfold execQuarantineEnd
  dsimp only
  split
  · exact .next id
  · exact .ite (.next fun hs => hs.modBulk _) (.next id)

theorem Canonical.regionCheck (hs : Canonical s) (src sl off n : Nat) (key : W32) (p : Perm) : Canonical
    (s.regionCheck src sl off n key p).1 := by
  unfold State.regionCheck
  dsimp only
  split
  · exact hs
  · split
    · exact hs.keyReject _ _ _
    · split
      · exact hs
      · exact hs

theorem Canonical.sendRsp (hs : Canonical s) (r : LineRsp) : Canonical (s.sendRsp r) := hs.send _ _ _ _

theorem Canonical.answer (hs : Canonical s) (q : LineReq) (status value : Nat) (payload : List Byte) : Canonical
    (s.answer q status value payload) :=
  (Canonical.ite (hs.count _ _ _ _) hs).sendRsp _

theorem Canonical.maskWrite (hs : Canonical s) (ctx a mask : Nat) (bs : List Byte) : Canonical (s.maskWrite ctx a mask bs) :=
  .ite (hs.cwrite _ _ _) (hs.foldl _ (fun _ _ ht => .ite (ht.cwrite _ _ _) ht))

theorem Canonical.performLine (hs : Canonical s) (q : LineReq) (ctx a : Nat) : Canonical (s.performLine q ctx a) := by
  unfold State.performLine
  dsimp only
  refine .ite ((hs.maskWrite _ _ _ _).answer _ _ _ _) ?_
  split
  · exact (hs.ueRead _ _ _).answer _ _ _ _
  · exact .ite (hs.answer _ _ _ _) ((Canonical.ite ((hs.cwrite _ _ _).count _ _ _ _) (hs.cwrite _ _ _)).answer _ _ _ _)

theorem Canonical.gwClose (hs : Canonical s) (k : Nat) : Canonical (s.gwClose k) := by
  unfold State.gwClose
  split
  · exact hs
  · exact (hs.modFab _).bulkIssue _ _

theorem Canonical.gwPush (hs : Canonical s) (k : Nat) (img : List Byte) (tag : Option Nat) : Canonical (s.gwPush k img tag) :=
  .ite (((Canonical.ite (hs.gwClose _) hs).modFab _).gwClose _) ((Canonical.ite (hs.gwClose _) hs).modFab _)

theorem execGwBatchClose_goes (far : Nat) (s : State) : Goes s (execGwBatchClose far s) :=
  .ite (.next id) (.next fun hs => .ite ((Canonical.ite (hs.gwClose _) hs).gwClose _) (.ite (hs.gwClose _) hs))

theorem Canonical.gwIntake (hs : Canonical s) (q : LineReq) (far : Nat) : Canonical (s.gwIntake q far) :=
  .ite (hs.answer _ _ _ _) (.ite (.ite ((hs.modFab _).answer _ _ _ _) (hs.modFab _))
    ((Canonical.ite ((hs.modFab _).answer _ _ _ _) (hs.modFab _)).gwPush _ _ _))

theorem Canonical.gwRelease (hs : Canonical s) : Canonical s.gwRelease := hs.foldl _ (fun _ _ ht => .ite ht ((ht.modFab _).gwPush _ _ _))
theorem Canonical.gwFailed (hs : Canonical s) (src : Nat) : Canonical (s.gwFailed src) := (hs.count _ _ _ _).record _

theorem Canonical.gwAnswer (hs : Canonical s) (r : LineRsp) : Canonical (s.gwAnswer r) := by
  unfold State.gwAnswer
  split
  · exact hs
  · exact (Canonical.ite (.ite (hs.modFab _) ((hs.modFab _).gwFailed _)) ((hs.modFab _).sendRsp _)).gwRelease

theorem Canonical.setTxn (hs : Canonical s) (t : Nat) (x : Txn) : Canonical (s.setTxn t x) := hs.modFab _
theorem Canonical.setSaved (hs : Canonical s) (n j : Nat) (v : SavedCore) : Canonical (s.setSaved n j v) := hs.updStp _ _

theorem Canonical.landLine (hs : Canonical s) (x : Txn) (i : LineItem) (pay : List Byte) : Canonical (s.landLine x i pay) := by
  unfold State.landLine
  split
  · split
    · exact hs.setCore _ _
    · exact hs.setSaved _ _ _
    · exact hs
  · exact hs

theorem Canonical.opDone (hs : Canonical s) (k op status value : Nat) : Canonical (s.opDone k op status value) := by
  unfold State.opDone
  split
  · exact .ite (hs.stepFail _ _ _ _) (hs.setCore _ _)
  · exact .ite (hs.setSaved _ _ _) ((hs.setSaved _ _ _).count _ _ _ _)
  · exact hs.modSite _ (by rfl)

theorem Canonical.applyHeld (hs : Canonical s) (k : Nat) (h : HeldRsp) : Canonical (s.applyHeld k h) := by
  unfold State.applyHeld
  split
  · exact hs.opDone _ _ _ _
  · split
    · exact hs.setCore _ _
    · exact hs
  · exact hs

theorem execCourseRestoreDone_goes (step : Nat) (s : State) : Goes s (execCourseRestoreDone step s) := by
  unfold execCourseRestoreDone
  split
  · exact .next id
  · split
    · refine .ite (.next id) ?_
      split
      · exact .next fun hs => hs.endStep _ _ _
      · exact .next fun hs => (hs.modRun _).each _ (fun _ _ ht => ht.applyHeld _ _)
    · exact .next id

theorem Canonical.txnEnd (hs : Canonical s) (t : Nat) (x : Txn) (status value : Nat) (pay : List Byte) : Canonical
    (s.txnEnd t x status value pay) := by
  unfold State.txnEnd
  split
  · exact (hs.modFab _).opDone _ _ _ _
  · exact (hs.modFab _).gwPush _ _ _

theorem Canonical.partDone (hs : Canonical s) (t : Nat) (i : LineItem) (status value : Nat) (pay : List Byte) : Canonical
    (s.partDone t i status value pay) := by
  unfold State.partDone
  split
  · exact hs
  · exact .ite ((Canonical.ite (hs.landLine _ _ _) hs).txnEnd _ _ _ _ _) ((Canonical.ite (hs.landLine _ _ _) hs).setTxn _ _)

theorem Canonical.shareDone (hs : Canonical s) (t : Nat) (i : LineItem) (status value : Nat) (pay : List Byte) : Canonical
    (s.shareDone t i status value pay) :=
  .ite (hs.partDone _ _ _ _ _) hs

theorem Canonical.sentDone (hs : Canonical s) (t op : Nat) (l : LineSent) (status value : Nat) (pay : List Byte) : Canonical
    (s.sentDone t op l status value pay) :=
  .ite (hs.partDone _ _ _ _ _) (.ite (hs.foldl _ (fun _ _ ht => ht.shareDone _ _ _ _ _))
    (hs.foldl _ (fun _ _ ht => ht.shareDone _ _ _ _ _)))

theorem Canonical.classTurn (hs : Canonical s) (p vc n : Nat) : AllSome Canonical (s.classTurn p vc n) := by
  unfold State.classTurn
  dsimp only
  split
  · exact .ite (.some (hs.setPort _ _)) .none
  · exact .none

theorem Canonical.keyxOut (hs : Canonical s) : Canonical s.keyxOut := by
  unfold State.keyxOut
  split
  · exact hs
  · split
    · exact hs
    next he => exact ((hs.classTurn _ _ _ _ he).sendPkt _ _ _ _).modFab _

theorem Canonical.portTurn (hs : Canonical s) (p : Nat) (i : PortItem) : AllSome Canonical (s.portTurn p i) :=
  .ite (hs.classTurn _ _ _) .none

theorem Canonical.lend (hs : Canonical s) (t : Nat) (parts : List (Nat × LineItem)) : Canonical (s.lend t parts) :=
  hs.foldl _ (fun _ _ ht => .ite ht (ht.modFab _))

theorem Canonical.lineTx (hs : Canonical s) (t : Nat) (x : Txn) (l : LineSent) (replay turn counts : Bool) :
    AllSome Canonical (s.lineTx t x l replay turn counts) := by
  unfold State.lineTx
  extract_lets lent
  have hlent {u : State} (hu : Canonical u) : Canonical (lent u) := .ite hu (hu.lend _ _)
  split
  · exact .some (((hlent hs).setTxn _ _).sentDone _ _ _ _ _ _)
  extract_lets q vc n
  split
  · exact .none
  split
  · exact .none
  next s0 he =>
    have h0 : Canonical s0 := (show AllSome Canonical _ from .ite (hs.portTurn _ _) (hs.classTurn _ _ _)) _ he
    extract_lets s1 s2 s3
    have h1 : Canonical s1 := (((hlent h0).sendPkt _ _ _ _).modFab _).setTxn _ _
    have h2 : Canonical s2 := .ite (h1.fqStart _ _ _ _) h1
    have h3 : Canonical s3 := .ite (h2.count _ _ _ _) h2
    exact .some (.ite (h3.count _ _ _ _) h3)

theorem execLineRequestSend_goes (txn : Nat) (s : State) : Goes s (execLineRequestSend txn s) := by
  unfold execLineRequestSend
  split
  · exact .next id
  · refine .ite (.next id) ?_
    split
    · exact .next id
    · exact .next fun hs => Canonical.getD (hs.lineTx _ _ _ _ _ _) hs
    · exact .next fun hs => Canonical.getD (hs.lineTx _ _ _ _ _ _) hs

theorem Canonical.lineIn (hs : Canonical s) (port : Nat) (q : LineReq) : Canonical (s.lineIn port q) := by
  unfold State.lineIn
  dsimp only
  refine .ite ((hs.count _ _ _ _).record _) ?_
  refine .ite (hs.answer _ _ _ _) ?_
  refine .ite (hs.answer _ _ _ _) ?_
  refine .ite ?_ ?_
  · split
    · exact hs.gwIntake _ _
    · exact hs.answer _ _ _ _
  · split
    · exact hs.answer _ _ _ _
    · split
      next he => exact ((hs.regionCheck _ _ _ _ _ _).of_fst_eq he).answer _ _ _ _
      next he =>
        exact .ite (((hs.regionCheck _ _ _ _ _ _).of_fst_eq he).performLine _ _ _)
          ((((hs.regionCheck _ _ _ _ _ _).of_fst_eq he).cbwHold _ _).modFab _)

theorem execLineRequestReceive_goes (port : Nat) (q : LineReq) (s : State) : Goes s (execLineRequestReceive port q s) :=
  .ite (.next id) (.ite (.next fun hs => hs.modFab _) (.next fun hs => (hs.takeFlits _ _ _).lineIn _ _))

theorem Canonical.inDrain (hs : Canonical s) : Canonical s.inDrain := by
  unfold State.inDrain
  refine .ite hs ?_
  refine (hs.modFab _).foldl _ fun _ _ ht => ?_
  split
  · exact .ite (ht.performLine _ _ _) (ht.modFab _)
  · exact .ite (ht.modFab _) ((ht.takeFlits _ _ _).lineIn _ _)

theorem Canonical.lineAgain (hs : Canonical s) (t : Nat) (x : Txn) (l : LineSent) : Canonical (s.lineAgain t x l) :=
  .ite (Canonical.getD (hs.lineTx _ _ _ _ _ _) (hs.setTxn _ _)) (hs.setTxn _ _)

theorem execLineResponseReceive_goes (port : Nat) (r : LineRsp) (s0 : State) : Goes s0 (execLineResponseReceive port r s0) := by
  unfold execLineResponseReceive
  dsimp only
  refine .ite (.next id) ?_
  split
  · exact .next fun hs => ((hs.takeFlits _ _ _).count _ _ _ _).modFab _
  · refine .ite (.next fun hs => ((hs.takeFlits _ _ _).count _ _ _ _).modFab _) ?_
    split
    · exact .next fun hs => ((hs.takeFlits _ _ _).count _ _ _ _).modFab _
    · exact .ite (.next fun hs => (hs.takeFlits _ _ _).lineAgain _ _ _)
        (.ite (.next fun hs => (hs.takeFlits _ _ _).lineAgain _ _ _)
        (.ite (.next fun hs => (hs.takeFlits _ _ _).lineAgain _ _ _)
        (.next fun hs => ((hs.takeFlits _ _ _).setTxn _ _).sentDone _ _ _ _ _ _)))

theorem execLineTimeout_goes (txn : Nat) (s : State) : Goes s (execLineTimeout txn s) := by
  unfold execLineTimeout
  split
  · exact .next id
  · exact .ite (.next fun hs => (Canonical.ite hs (hs.modFab _)).txnEnd _ _ _ _ _) (.next id)

theorem Canonical.replayDue (hs : Canonical s) (txn : Nat) (due : LineWait → Bool) (counts : Bool) : Canonical
    (s.replayDue txn due counts) := by
  unfold State.replayDue
  split
  · exact hs
  · split
    · exact hs
    · exact .ite hs (Canonical.getD (hs.lineTx _ _ _ _ _ _) hs)

theorem execEpochWaitReplay_goes (txn : Nat) (s : State) : Goes s (execEpochWaitReplay txn s) := .next fun hs => hs.replayDue _ _ _
theorem execGatewayBusyReplay_goes (txn : Nat) (s : State) : Goes s (execGatewayBusyReplay txn s) := .next fun hs => hs.replayDue _ _ _

theorem Canonical.gwRecords (hs : Canonical s) (from_ : Nat) (bs : List Byte) : AllSome Canonical (s.gwRecords from_ bs) := by
  unfold State.gwRecords
  refine .ite .none ?_
  refine .some ?_
  refine hs.foldl _ fun _ _ ht => ?_
  split
  · exact ht.gwAnswer _
  · split
    · exact ht
    · exact (ht.setTxn _ _).modFab _

/-! ### Migration (06 R187, R188) -/

theorem Canonical.migSend (hs : Canonical s) (ctx dev h : Nat) (m : MigMsg) (more : List Byte) : AllOk Canonical
    (s.migSend ctx dev h m more) := by
  unfold State.migSend
  split
  · exact .error
  · exact .ite .error (.ok (hs.bulkIssue _ _))

theorem Canonical.migBack (hs : Canonical s) (h status : Nat) : Canonical (s.migBack h status) := by
  unfold State.migBack
  split
  · exact hs
  · exact (Canonical.ite (((hs.moveEnd _).setSess _ _).descTouch _) ((hs.moveEnd _).setSess _ _)).sesEvent _ _ _ _ _ _

theorem Canonical.migDecide (hs : Canonical s) (h : Nat) (x : Session) (m : MigMsg) : Canonical (s.migDecide h x m) := by
  unfold State.migDecide
  split
  next he => exact (hs.migSend _ _ _ _ _ _ he)
  · exact hs.sesEvent _ _ _ _ _ _

theorem Canonical.migAbort (hs : Canonical s) (h status : Nat) : Canonical (s.migAbort h status) := by
  unfold State.migAbort
  split
  · exact hs
  · exact (((hs.orphan _).modSes _ (by rfl)).setSess _ _).migDecide _ _ _

theorem Canonical.migNext (hs : Canonical s) (h : Nat) : Canonical (s.migNext h) := by
  unfold State.migNext
  split
  · exact hs
  · refine .ite hs ?_
    refine .ite ?_ (hs.setSess _ _)
    split
    next he => exact ((hs.setSess _ _).migSend _ _ _ _ _ _ he)
    · exact hs.migAbort _ _

theorem Canonical.migPage (hs : Canonical s) (mv h n : Nat) (ue : Option Nat) : Canonical (s.migPage mv h n ue) := by
  unfold State.migPage
  dsimp only
  split
  · exact hs
  · split
    next he => exact (hs.moverRead _ _ _ _ _ he).migAbort _ _
    · split
      next he => exact ((hs.setSess _ _).migSend _ _ _ _ _ _ he).migNext _
      · exact (hs.setSess _ _).migAbort _ _

theorem Canonical.migStart (hs : Canonical s) (h dev ph : Nat) : Canonical (s.migStart h dev ph) := by
  unfold State.migStart
  dsimp only
  split
  · exact hs
  · split
    next he =>
      exact (((Canonical.ite (((Canonical.ite (hs.unhold _) ((hs.unhold _).abandonRevival _)).runsFree _ _).moveEnd _)
        (.ite (hs.unhold _) ((hs.unhold _).abandonRevival _))).setSess _ _).migSend _ _ _ _ _ _ he)
    · exact ((Canonical.ite (((Canonical.ite (hs.unhold _) ((hs.unhold _).abandonRevival _)).runsFree _ _).moveEnd _)
        (.ite (hs.unhold _) ((hs.unhold _).abandonRevival _))).setSess _ _).migBack _ _

theorem Canonical.migPlaced (hs : Canonical s) (h : Nat) (m : MigMsg) : Canonical (s.migPlaced h m) := by
  unfold State.migPlaced
  split
  · exact hs
  · split
    · exact .ite hs (((((Canonical.ite ((hs.each _ (fun _ _ ht => .ite (ht.entFree _ _) ht)).unitsFree _)
        (hs.each _ (fun _ _ ht => .ite (ht.entFree _ _) ht))).moveEnd _).setSess _ _).count _ _ _ _).sesEvent _ _ _ _ _ _)
    · exact .ite (hs.migBack _ _) hs
    · exact hs.setSess _ _
    · exact hs

theorem Canonical.migFailed (hs : Canonical s) (h status : Nat) (m : MigMsg) : Canonical (s.migFailed h status m) := by
  unfold State.migFailed
  split
  · exact hs
  · split
    · exact .ite hs (.ite (hs.migAbort _ _) (hs.migBack _ _))
    · exact .ite (hs.migAbort _ _) hs
    · exact .ite (hs.migAbort _ _) hs
    · exact hs.sesEvent _ _ _ _ _ _
    · exact hs.sesEvent _ _ _ _ _ _
    · exact hs

theorem Canonical.migDrop (hs : Canonical s) (h : Nat) : Canonical (s.migDrop h) := by
  unfold State.migDrop
  split
  · exact hs
  · exact ((Canonical.ite ((hs.each _ (fun _ _ ht => .ite (ht.unitFree _) ht)).unitsFree _)
      (hs.each _ (fun _ _ ht => .ite (ht.unitFree _) ht))).moveEnd _).setSess _ _

theorem Canonical.migFrames (hs : Canonical s) (o : Offer) : AllSome (Canonical ·.2) (s.migFrames o) := by
  unfold State.migFrames
  refine .foldl (.ite (hs.dirFresh _ _) (.some hs)) _ fun _ _ ho => ?_
  dsimp only
  split
  · exact .none
  next d t =>
    have ht : Canonical t := ho _ rfl
    split
    · exact .none
    next d1 t1 he =>
      have h1 : Canonical t1 := AllSome.ite (P := (Canonical ·.2)) (ht.dirNeed _ _ _ _) (.some ht) _ he
      exact .ite (.map (h1.unitAlloc _ _ _) fun _ hu => hu) (.some h1)

theorem Canonical.migAccept (hs : Canonical s) (o : Offer) : AllOk Canonical (s.migAccept o) := by
  unfold State.migAccept
  dsimp only
  split
  · exact .error
  · refine .ite .error ?_
    refine .ite .error ?_
    split
    · exact .error
    next he => exact .ite .error (.ite .error (.ok ((((hs.migFrames _ _ he).descTouch _).setSess _ _).modSes _ (by rfl))))

theorem Canonical.migReady (hs : Canonical s) (h : Nat) : Canonical (s.migReady h) := by
  unfold State.migReady
  split
  · exact hs
  · refine .ite hs ?_
    split
    next he => exact (hs.migSend _ _ _ _ _ _ he).setSess _ _
    · exact hs

theorem Canonical.migData (hs : Canonical s) (ctx h n : Nat) (dir : Bool) (data : List Byte) : Canonical (s.migData ctx h n dir data) := by
  unfold State.migData
  split
  · exact hs
  · exact .ite hs (.ite ((hs.setSess _ _).migReady _) (.ite hs (((hs.hwrite _ _ _).setSess _ _).migReady _)))

theorem Canonical.inboxIn (hs : Canonical s) (node ctx : Nat) (data : List Byte) : Canonical (s.inboxIn node ctx data) :=
  .ite (hs.migData _ _ _ _ _) (hs.modSes _ (by rfl))

theorem Canonical.takeMsg (hs : Canonical s) (m : MigMsg) : AllSome (Canonical ·.2.2) (s.takeMsg m) := by
  unfold State.takeMsg
  dsimp only
  split
  · exact .none
  · exact .some (hs.modSes _ (by rfl))

theorem Canonical.migComplete (hs : Canonical s) (h : Nat) : Canonical (s.migComplete h) := by
  unfold State.migComplete
  split
  · exact hs
  extract_lets b mark s1 s2 y z
  have hmark {t : State} (ht : Canonical t) (f k : Nat) : Canonical (mark t f k) := by
    unfold mark
    dsimp only
    split
    · exact (ht.updLease _ _ _).updLease _ _ _
    · exact ht.updLease _ _ _
  have h1 : Canonical s1 := hs.each _ fun _ _ ht => hmark ht _ _
  have h2 : Canonical s2 := .ite (hmark h1 _ _) h1
  exact ((h2.setSess _ _).count _ _ _ _).sesEvent _ _ _ _ _ _

/-! ### Delivery (08 R249-R251) -/

theorem Canonical.cutPages (hs : Canonical s) (x : Session) (lgn k : Nat) : Canonical (s.cutPages x lgn k).1 := by
  unfold State.cutPages
  refine hs.foldl_fst _ fun _ _ ht => ?_
  split
  · exact ht
  · exact .ite ((ht.entFree _ _).copyFree _ _) (ht.entFree _ _)

theorem Canonical.cutTail {a : State × Session} (hs : Canonical a.1) (lgn n g : Nat) : Canonical (State.cutTail a lgn n g).1 := by
  unfold State.cutTail
  dsimp only
  split
  · exact hs
  · exact hs.zeroSlots _ _ _ _

theorem Canonical.truncate (hs : Canonical s) (h n : Nat) : Canonical (s.truncate h n) := by
  unfold State.truncate
  split
  · exact hs
  extract_lets lgn a b r _ y all kept _ z t
  have hb : Canonical b.1 := by
    unfold b
    split
    · exact hs.cutPages _ _ _
    · exact (hs.cutPages _ _ _).foldl_fst _ fun _ _ ht => ht.cutTail _ _ _
  have hr : Canonical r.2 := hb.dirTrim _
  have ht : Canonical t := hr.setSess _ _
  exact .ite ((hr.setSess _ _).dropParked _) (.ite ((ht.orphan _).modSes _ (by rfl)) ht)

theorem Canonical.truncExtent (hs : Canonical s) (h : Nat) (img : List Byte) : Canonical (s.truncExtent h img) := by
  unfold State.truncExtent
  split
  · exact hs
  · split
    · exact hs
    · refine .ite ((((((hs.dueRecords _ _ _).foldl_fst _ (fun _ _ ht => ht.sweepEnt _ _ _)).dirFree _ _).setSess _ _).truncate _ _).cmdDone
        _ _ _ _ _ _ _ _) ?_
      refine .ite ?_ (((((hs.count _ _ _ _).dirFree _ _).setSess _ _).loseAll _ _).cmdDone _ _ _ _ _ _ _ _)
      split
      next he => exact ((((hs.count _ _ _ _).setSess _ _).requestExtent _ _ _).of_fst_eq he)
      next he =>
        exact (((((((hs.count _ _ _ _).setSess _ _).requestExtent _ _ _).of_fst_eq he).dirFree _ _).setSess _ _).loseAll _ _).cmdDone _ _ _
          _ _ _ _ _

theorem Canonical.truncFail (hs : Canonical s) (h status : Nat) : Canonical (s.truncFail h status) := by
  unfold State.truncFail
  split
  · exact hs
  · split
    · exact hs
    · exact ((hs.dirFree _ _).setSess _ _).cmdDone _ _ _ _ _ _ _ _

theorem Canonical.freeMovers (hs : Canonical s) : Canonical s.freeMovers := hs.modSes _ (by rfl)
theorem Canonical.served (hs : Canonical s) (node seq : Nat) : Canonical (s.served node seq) := hs.modBulk _

theorem Canonical.msgLocal (hs : Canonical s) (u : Purpose) : Canonical (s.msgLocal u) := by
  unfold State.msgLocal
  split
  · exact hs.served _ _
  · exact ((hs.freeMovers.ringPageDone _ _ _).ringPump _ _).finish _
  · exact hs.freeMovers

theorem Canonical.msgPlaced (hs : Canonical s) (u : Purpose) : Canonical (s.msgPlaced u) := by
  unfold State.msgPlaced
  split
  · exact hs.copyPlaced _ _ _
  · exact hs.copyPlaced _ _ _
  · exact hs.migPlaced _ _
  · exact hs.drainPlaced _
  · exact hs.joinDone _ _ _ _
  · exact hs

theorem Canonical.gwLost (hs : Canonical s) (tags : List Nat) : Canonical (s.gwLost tags) := by
  unfold State.gwLost
  refine Canonical.gwRelease ?_
  refine hs.foldl _ fun _ _ ht => ?_
  split
  · exact ht
  · exact .ite ((ht.modFab _).gwFailed _) (ht.modFab _)

theorem Canonical.msgFail (hs : Canonical s) (u : Purpose) (status : Nat) : Canonical (s.msgFail u status) := by
  unfold State.msgFail
  split
  · exact (hs.writeFail _ _).freeMovers
  · exact (hs.writeFail _ _).freeMovers
  · exact .ite hs (hs.demoteFail _ _)
  · exact hs.readFail _ _
  · exact hs.readFail _ _
  · exact hs.truncFail _ _
  · exact (hs.migFailed _ _ _).freeMovers
  · exact hs.endStep _ _ _
  · exact hs.endStep _ _ _
  · exact (hs.ckptFail _ _ _).freeMovers
  · exact hs.restoreEnd _ _ _ _
  · exact hs.gwLost _
  · exact hs.joinDone _ _ _ _
  · exact hs.served _ _
  · exact hs
  · exact hs

theorem Canonical.getDone (hs : Canonical s) (u : Purpose) (bs : List Byte) : Canonical (s.getDone u bs) := by
  unfold State.getDone
  split
  · exact hs.modSes _ (by rfl)
  · exact hs.extentRead _ _ _
  · exact .ite (hs.demoteExtent _ _ _) (hs.modSes _ (by rfl))
  · exact hs.truncExtent _ _
  · exact hs.restoreData _ _ _
  · exact hs

theorem Canonical.endWindow (hs : Canonical s) (ctx base len : Nat) : Canonical (s.endWindow ctx base len) :=
  (hs.modBulk _).foldl _ (fun _ _ ht => ht.msgFail _ _)

theorem Canonical.endMoves (hs : Canonical s) (ctx l : Nat) : Canonical (s.endMoves ctx l) := by
  unfold State.endMoves
  refine .ite ?_ ?_
  · refine Canonical.ckptFail ?_ _ _ _
    refine hs.foldl _ fun _ _ ht => ?_
    split
    · exact .ite (ht.writeFail _ _) ht
    · exact ht
  · refine hs.foldl _ fun _ _ ht => ?_
    split
    · exact .ite (ht.writeFail _ _) ht
    · exact ht

theorem Canonical.loseLease (hs : Canonical s) (ctx l : Nat) : Canonical (s.loseLease ctx l) := by
  unfold State.loseLease
  split
  · exact hs
  · exact .ite hs (((((hs.endMoves _ _).updLease _ _ _).endWindow _ _ _).modSes _ (by rfl)).otherEvent _ _ _ _ _ _)

/-! ### Bulk transport (08 R233-R254) -/

theorem Canonical.pullFlow (hs : Canonical s) (node : Nat) : Canonical (s.pullFlow node) := by
  unfold State.pullFlow
  refine .ite hs ?_
  split
  · exact hs
  next he => exact ((hs.flowLoad _ _ he).modBulk _).updFlow _ _

theorem Canonical.dropMsg (hs : Canonical s) (node seq : Nat) (m : BulkMsg) : Canonical (s.dropMsg node seq m) :=
  .ite ((hs.updFlow _ _).modBulk _) (hs.updFlow _ _)

theorem Canonical.owesExpiry (hs : Canonical s) (at_ : Option Nat) : Canonical (s.owesExpiry at_) := by
  unfold State.owesExpiry
  split
  · exact .ite hs (hs.modBulk _)
  · exact hs

theorem Canonical.bulkEnd (hs : Canonical s) (node seq status : Nat) (m : BulkMsg) : Canonical (s.bulkEnd node seq status m) :=
  .ite (hs.dropMsg _ _ _) (((Canonical.ite (hs.count _ _ _ _) (hs.owesExpiry _)).dropMsg _ _ _).msgFail _ _)

theorem Canonical.bulkDone (hs : Canonical s) (node seq : Nat) (m : BulkMsg) : Canonical (s.bulkDone node seq m) :=
  (Canonical.ite (hs.updFlow _ _) ((hs.updFlow _ _).owesExpiry _)).msgLocal _

theorem Canonical.reissue (hs : Canonical s) (node seq : Nat) (m : BulkMsg) (dst : Option (W32 × Nat)) : Canonical
    (s.reissue node seq m dst) := by
  unfold State.reissue
  split
  · exact hs.bulkEnd _ _ _ _
  · exact (hs.dropMsg _ _ _).bulkIssue _ _

theorem Canonical.rekey (hs : Canonical s) (node : Nat) : Canonical (s.rekey node) := by
  unfold State.rekey
  split
  · exact .ite (hs.hello _) hs
  · exact hs

theorem Canonical.bulkTx (hs : Canonical s) (node seq off : Nat) (f : Flow) (m : BulkMsg) : AllSome Canonical
    (s.bulkTx node seq off f m) := by
  unfold State.bulkTx
  split
  · exact .some (hs.bulkEnd _ _ _ _)
  · split
    · exact .map (hs.classTurn _ _ _) fun _ ht => (ht.txPkt _ _ _ _ _ _ _ _).rekey _
    · exact .none

theorem Canonical.resend (hs : Canonical s) (node seq off : Nat) : AllSome Canonical (s.resend node seq off) := by
  unfold State.resend
  split
  · exact .none
  · split
    · exact .none
    · exact .ite .none (.ite (.some (hs.reissue _ _ _ _)) (hs.bulkTx _ _ _ _ _))

theorem Canonical.bulkCharge (hs : Canonical s) (p : Nat) (m : BulkMsg) : Canonical (s.bulkCharge p m) :=
  .ite hs (.ite ((hs.fqStart _ _ _ _).count _ _ _ _) (.ite ((hs.fqStart _ _ _ _).count _ _ _ _) (hs.fqStart _ _ _ _)))

theorem Canonical.fillMsg (hs : Canonical s) (node : Nat) (m : BulkMsg) : Canonical (s.fillMsg node m).2 := by
  unfold State.fillMsg
  split
  next ctx peer pc _ => exact hs.joinRecord node ctx peer pc
  · exact hs

theorem Canonical.beginMsg (hs : Canonical s) (node p hop key : Nat) (f : Flow) (m0 : BulkMsg) : Canonical
    (s.beginMsg node p hop key f m0) :=
  ((((Canonical.ite ((hs.fillMsg _ _).modBulk _) (hs.fillMsg _ _)).setFlow _ _).txPkt _ _ _ _ _ _ _ _).rekey _).bulkCharge _ _

theorem Canonical.startMsg (hs : Canonical s) (node : Nat) (f : Flow) : AllSome Canonical (s.startMsg node f) := by
  unfold State.startMsg
  refine .findSome? _ fun _ => ?_
  refine .ite .none ?_
  split
  · exact .map (hs.portTurn _ _) fun _ ht => ht.beginMsg _ _ _ _ _ _
  · exact .none

theorem Canonical.endWaiting (hs : Canonical s) (node status : Nat) : Canonical (s.endWaiting node status) := by
  unfold State.endWaiting
  split
  · exact hs
  · exact (hs.setFlow _ _).foldl _ (fun _ _ ht => (Canonical.ite (ht.count _ _ _ _) ht).msgFail _ _)

theorem execBulkPacketSend_goes (node : Nat) (s0 : State) : Goes s0 (execBulkPacketSend node s0) := by
  unfold execBulkPacketSend
  dsimp only
  split
  · exact .next id
  · refine .ite (.next id) ?_
    refine .ite (.next fun hs => hs.pullFlow _) ?_
    refine .ite (.next fun hs => (hs.pullFlow _).endWaiting _ _) ?_
    refine .ite (.next fun hs => (hs.pullFlow _).hello _) ?_
    split
    next he => exact .next fun hs => ((show AllSome Canonical _ from .bind_any fun _ => (hs.pullFlow _).resend _ _ _) _ he)
    · split
      next he =>
        exact .next fun hs => ((show AllSome Canonical _ from .bind_any fun _ => .ite ((hs.pullFlow _).bulkTx _ _ _ _ _) .none) _ he)
      · exact .next fun hs => Canonical.getD (.ite .none ((hs.pullFlow _).startMsg _ _)) (hs.pullFlow _)

theorem Canonical.flushEnd (hs : Canonical s) (node : Nat) (f : Flow) (l : FlushOut) : Canonical (s.flushEnd node f l) :=
  (hs.setFlow _ _).useFlow _

theorem Canonical.flushTx (hs : Canonical s) (node : Nat) : Canonical (s.flushTx node) := by
  unfold State.flushTx
  split
  · exact hs
  · split
    · exact (hs.flushEnd _ _ _).foldl _ fun _ _ ht => ht.msgFail _ _
    · dsimp only
      split
      next p t _ he =>
        have ht : Canonical t := AllSome.bind_any (Q := (Canonical ·.2)) (fun _ => .map (hs.classTurn _ _ _) fun _ hu => hu) _ he
        have hu := ht.sendPkt p
        exact ((Canonical.ite (((hu _ _ _).setFlow _ _).count _ _ _ _) ((hu _ _ _).setFlow _ _)).rekey _).useFlow _
      · exact hs
    · exact hs

theorem execFlushSend_goes (node : Nat) (s : State) : Goes s (execFlushSend node s) := by
  unfold execFlushSend
  split
  · exact .next id
  · split
    · exact .next id
    · exact .ite (.next id) (.ite (.next fun hs => hs.hello _) (.next fun hs => hs.flushTx _))

theorem execBulkRetxTimeout_goes (node seq offset : Nat) (s : State) : Goes s (execBulkRetxTimeout node seq offset s) := by
  unfold execBulkRetxTimeout
  split
  · exact .next id
  · refine .ite (.next id) ?_
    refine .ite ?_ ?_
    · split
      · exact .next id
      · exact .ite (.next id) (.next fun hs => (hs.setFlow _ _).flushTx _)
    · split
      · exact .next id
      · exact .ite (.next id) (.next fun hs => Canonical.getD ((hs.setFlow _ _).resend _ _ _) (hs.setFlow _ _))

theorem Canonical.helloEnd (hs : Canonical s) (node status : Nat) : Canonical (s.helloEnd node status) := (hs.setKeys _ _).endWaiting _ _

theorem execBulkMessageHorizon_goes (node seq : Nat) (s : State) : Goes s (execBulkMessageHorizon node seq s) := by
  unfold execBulkMessageHorizon
  split
  · exact .next id
  · refine .ite (.next id) ?_
    refine .ite ?_ ?_
    · refine .next fun hs => ?_
      refine .ite ?_ ?_
      · refine Canonical.helloEnd ?_ _ _
        split
        · exact .ite hs (((hs.flushEnd _ _ _).count _ _ _ _).foldl _ (fun _ _ ht => ht.msgFail _ _))
        · exact hs
      · split
        · exact .ite hs (((hs.flushEnd _ _ _).count _ _ _ _).foldl _ (fun _ _ ht => ht.msgFail _ _))
        · exact hs
    · split
      · exact .next id
      · exact .ite (.next fun hs => hs.bulkEnd _ _ _ _) (.next id)

theorem execGetTimeout_goes (node seq : Nat) (s : State) : Goes s (execGetTimeout node seq s) := by
  unfold execGetTimeout
  split
  · exact .next id
  · refine .ite (.next id) ?_
    refine .next fun hs => ?_
    refine Canonical.msgFail ?_ _ _
    split
    · exact ((hs.modBulk _).count _ _ _ _).dropMsg _ _ _
    · exact (hs.modBulk _).count _ _ _ _

theorem Canonical.lateAnswer (hs : Canonical s) : Canonical s.lateAnswer := hs.count _ _ _ _

theorem Canonical.relayAns (hs : Canonical s) (a : BulkAns) : AllSome Canonical (s.relayAns a) := by
  unfold State.relayAns
  refine .ite .none ?_
  split
  · exact .some (hs.count _ _ _ _)
  · exact .some (Canonical.getD (.ite .none (hs.trySend _)) (hs.modFab _))

theorem Canonical.dropLate (hs : Canonical s) : Canonical s.dropLate := .ite hs ((hs.modFab _).count _ _ _ _)

theorem Canonical.ackIn (hs : Canonical s) (node seq off : Nat) (f : Flow) (m : BulkMsg) (p : PktSt) (a : BulkAns) : Canonical
    (s.ackIn node seq off f m p a) :=
  .ite (.ite ((((hs.setFlow _ _).useFlow _).updFlow _ _).bulkDone _ _ _) (((hs.setFlow _ _).useFlow _).updFlow _ _))
    (.ite ((hs.setFlow _ _).useFlow _) (.ite (((hs.setFlow _ _).useFlow _).updFlow _ _)
    (.ite (((hs.setFlow _ _).useFlow _).reissue _ _ _ _) (((hs.setFlow _ _).useFlow _).bulkEnd _ _ _ _))))

theorem execBulkAckReceive_goes (port : Nat) (a : BulkAns) (s0 : State) : Goes s0 (execBulkAckReceive port a s0) := by
  unfold execBulkAckReceive
  dsimp only
  refine .ite (.next id) ?_
  refine .ite (.next fun hs => (hs.takeFlits _ _ _).count _ _ _ _) ?_
  split
  next he => exact .next fun hs => ((hs.takeFlits _ _ _).relayAns _ _ he)
  · split
    · exact .next fun hs => (hs.takeFlits _ _ _).lateAnswer
    · refine .ite (.next fun hs => (hs.takeFlits _ _ _).lateAnswer) ?_
      split
      · split
        · exact .next fun hs => (hs.takeFlits _ _ _).lateAnswer
        · exact .ite (.next fun hs => (hs.takeFlits _ _ _).count _ _ _ _)
            (.ite (.next fun hs => (hs.takeFlits _ _ _).lateAnswer) (.next fun hs => (hs.takeFlits _ _ _).ackIn _ _ _ _ _ _ _))
      · split
        · exact .next fun hs => (hs.takeFlits _ _ _).lateAnswer
        · exact .ite (.next fun hs => (hs.takeFlits _ _ _).lateAnswer)
            (.ite (.next fun hs => (hs.takeFlits _ _ _).count _ _ _ _)
            (.ite (.next fun hs => (hs.takeFlits _ _ _).lateAnswer)
            (.ite (.next fun hs => ((hs.takeFlits _ _ _).setFlow _ _).useFlow _)
            (.ite (.next fun hs => ((hs.takeFlits _ _ _).setFlow _ _).useFlow _)
            (.next fun hs => ((hs.takeFlits _ _ _).flushEnd _ _ _).foldl _ (fun _ _ ht => ht.msgFail _ _))))))

theorem execBulkPlacedReceive_goes (port : Nat) (a : BulkAns) (s0 : State) : Goes s0 (execBulkPlacedReceive port a s0) := by
  unfold execBulkPlacedReceive
  dsimp only
  refine .ite (.next id) ?_
  refine .ite (.next fun hs => (hs.takeFlits _ _ _).count _ _ _ _) ?_
  split
  next he => exact .next fun hs => ((hs.takeFlits _ _ _).relayAns _ _ he)
  · split
    · exact .next fun hs => (hs.takeFlits _ _ _).lateAnswer
    · exact .ite (.next fun hs => (hs.takeFlits _ _ _).lateAnswer)
        (.ite (.next fun hs => (hs.takeFlits _ _ _).count _ _ _ _)
        (.next fun hs => ((hs.takeFlits _ _ _).flushEnd _ _ _).foldl _ (fun _ _ ht => ht.msgPlaced _)))

theorem Canonical.bulkAns (hs : Canonical s) (typ src msgId off ts xmit key status hint delay : Nat) (ce : Bool) : Canonical
    (s.bulkAns typ src msgId off ts xmit key status hint delay ce) := by
  unfold State.bulkAns
  split
  · exact hs
  · exact .ite (((hs.useFlow _).send _ _ _ _).count _ _ _ _) (.ite (((hs.useFlow _).send _ _ _ _).count _ _ _ _)
      (.ite (((hs.useFlow _).send _ _ _ _).count _ _ _ _) ((hs.useFlow _).send _ _ _ _)))

theorem Canonical.bulkCheck (hs : Canonical s) (src : Nat) (p : BulkPkt) (a n : Nat) (perm : Perm) : Canonical
    (s.bulkCheck src p a n perm).1 := by
  unfold State.bulkCheck
  split
  · exact hs
  · split
    next he => exact ((hs.regionCheck _ _ _ _ _ _).of_fst_eq he)
    next he => exact ((hs.regionCheck _ _ _ _ _ _).of_fst_eq he)

theorem Canonical.sinkIn (hs : Canonical s) {src seq : Nat} {p : BulkPkt} {pay : List Byte} {whole : Bool} {data : List Byte} {k : Sink}
    (he : s.sinkIn src seq p pay whole data = k) : k.Canonical := by
  subst he
  unfold State.sinkIn
  dsimp only
  split
  · have hc := hs.bulkCheck src p p.addr.toNat p.msgLen.toNat .read
    split
    next he => exact hc.of_fst_eq he
    next t _ _ _ he =>
      have ht : Canonical t := hc.of_fst_eq he
      split
      · exact ht
      · split
        · exact ht.ueRead _ _ _
        · exact ht.modBulk _
  · split
    · split
      · exact hs
      · split
        · exact hs
        · split
          · exact ((hs.modBulk _).owesExpiry _).getDone _ _
          · exact hs
    · split
      · split
        · split
          next he => exact AllSome.ite (P := Canonical) (hs.joinIn _ _ _) .none _ he
          · exact hs
        · split
          · exact hs
          · exact Canonical.ite (hs.inboxIn _ _ _) hs
      · split
        · split
          · exact hs
          · split
            · exact hs
            · split
              next he => exact hs.gwRecords _ _ _ he
              · exact hs
        · have hc := hs.bulkCheck src p ((p.addr.toNat + p.offset.toNat) % 2 ^ 64) p.len.toNat .write
          split
          next he => exact hc.of_fst_eq he
          next t _ _ _ he =>
            have ht : Canonical t := hc.of_fst_eq he
            split
            · exact Canonical.ite (ht.ringIn _ _) ht
            · split
              · exact ht
              · exact ht.cwrite _ _ _

theorem Canonical.bulkTake (hs : Canonical s) (src : Nat) (f : Flow) (p : BulkPkt) (pay : List Byte) (delay key : Nat)
    (ans : State → Nat → State) (hans : ∀ t a, Canonical t → Canonical (ans t a)) : Canonical (s.bulkTake src f p pay delay key ans) := by
  have ht : Canonical (s.setFlow src f) := hs.setFlow _ _
  unfold State.bulkTake
  dsimp only
  refine .ite (hans _ _ (ht.setFlow _ _)) (.ite (hans _ _ ht) (.ite (hans _ _ ht) (.ite (hans _ _ ht) ?_)))
  split
  next u he => exact hans _ _ (ht.sinkIn he)
  next u _ _ _ he => exact ((Canonical.updFlow (ht.sinkIn he) _ _).cbwHold _ _).modBulk _
  next u he => exact hans _ _ (Canonical.updFlow (ht.sinkIn he) _ _)

theorem Canonical.bulkIn (hs : Canonical s) (p : BulkPkt) (delay : Nat) : Canonical (s.bulkIn p delay) := by
  unfold State.bulkIn
  dsimp only
  split
  · exact hs.bulkAns _ _ _ _ _ _ _ _ _ _ _
  next he =>
    split
    · exact (hs.flowLoad _ _ he)
    · split
      · exact .ite ((hs.flowLoad _ _ he).hello _) ((hs.flowLoad _ _ he).count _ _ _ _)
      · refine .ite ((hs.flowLoad _ _ he).count _ _ _ _) ?_
        refine .ite ((hs.flowLoad _ _ he).bulkAns _ _ _ _ _ _ _ _ _ _ _) ?_
        refine .ite ((hs.flowLoad _ _ he).bulkAns _ _ _ _ _ _ _ _ _ _ _) ?_
        split
        · exact (hs.flowLoad _ _ he).bulkAns _ _ _ _ _ _ _ _ _ _ _
        · exact (hs.flowLoad _ _ he).bulkTake _ _ _ _ _ _ _ (fun _ _ hu => hu.bulkAns _ _ _ _ _ _ _ _ _ _ _)

theorem execBulkPacketReceive_goes (port : Nat) (p : BulkPkt) (s : State) : Goes s (execBulkPacketReceive port p s) :=
  .ite (.next id) (.ite (.next fun hs => ((hs.takeFlits _ _ _).count _ _ _ _).record _)
    (.ite (.next fun hs => hs.modBulk _) (.next fun hs => (hs.takeFlits _ _ _).bulkIn _ _)))

theorem Canonical.heldWrite (hs : Canonical s) (h : HeldPkt) : Canonical (s.heldWrite h) :=
  (Canonical.ite (((hs.modBulk _).cwrite _ _ _).updFlow _ _) ((hs.modBulk _).cwrite _ _ _)).bulkAns _ _ _ _ _ _ _ _ _ _ _

theorem Canonical.bulkDrain (hs : Canonical s) : Canonical s.bulkDrain :=
  .ite hs (((hs.foldl _ (fun _ _ ht => .ite (ht.heldWrite _) ht)).modBulk _).foldl _
    (fun _ _ ht => .ite ((ht.takeFlits _ _ _).bulkIn _ _) (ht.modBulk _)))

theorem execPlacedSend_goes (node : Nat) (s : State) : Goes s (execPlacedSend node s) := by
  unfold execPlacedSend
  dsimp only
  split
  · exact .next id
  · split
    · exact .next id
    · split
      · exact .next id
      · exact .ite (.next id) (.next fun hs => (hs.setFlow _ _).bulkAns _ _ _ _ _ _ _ _ _ _ _)

theorem execGetDataSend_goes (node seq : Nat) (s : State) : Goes s (execGetDataSend node seq s) := by
  unfold execGetDataSend
  dsimp only
  split
  · refine .ite (.next id) ?_
    split
    · exact .next fun hs => (hs.modBulk _).ueRead _ _ _
    · exact .next fun hs => (hs.modBulk _).bulkIssue _ _
  · exact .next id

theorem execLwRecordDiscard_goes (node : Nat) (s : State) : Goes s (execLwRecordDiscard node s) := by
  unfold execLwRecordDiscard
  split
  · exact .next id
  · exact .ite (.next id) (.next fun hs => hs.lwPut _ _ _)

theorem execGatewayRelay_goes (port : Nat) (p : BulkPkt) (waitNs : Nat) (s : State) : Goes s (execGatewayRelay port p waitNs s) := by
  unfold execGatewayRelay
  refine .ite (.next id) ?_
  split
  · exact .next id
  · dsimp only
    split
    · exact .next id
    next q t he =>
      refine .next fun hs => ?_
      have ht : Canonical t := AllSome.bind_any (Q := (Canonical ·.2)) (fun _ => .map (hs.classTurn _ _ _) fun _ hu => hu) _ he
      exact ((ht.takeFlits _ _ _).sendPkt _ _ _ _).modFab _

theorem execGatewayRelayDrop_goes (port : Nat) (p : BulkPkt) (s : State) : Goes s (execGatewayRelayDrop port p s) :=
  .ite (.next id) (.next fun hs => (hs.takeFlits _ _ _).count _ _ _ _)

theorem execKeyxReceive_goes (port : Nat) (k : Keyx) (s0 : State) : Goes s0 (execKeyxReceive port k s0) := by
  unfold execKeyxReceive
  dsimp only
  refine .ite (.next id) ?_
  split
  · exact .next fun hs => hs.takeFlits _ _ _
  next he =>
    refine .ite (.ite (.next fun hs => (((hs.takeFlits _ _ _).flowLoad _ _ he).helloIn _).count _ _ _ _)
      (.next fun hs => ((((hs.takeFlits _ _ _).flowLoad _ _ he).take1).sendKeyx _ _ _ _ _ _).count _ _ _ _)) ?_
    split
    · exact .next fun hs => (hs.takeFlits _ _ _).count _ _ _ _
    · exact .ite (.next fun hs => .ite ((((hs.takeFlits _ _ _).flowLoad _ _ he).replyIn _ _).count _ _ _ _)
        ((((hs.takeFlits _ _ _).flowLoad _ _ he).helloEnd _ _).count _ _ _ _))
        (.ite (.next fun hs => ((hs.takeFlits _ _ _).flowLoad _ _ he).helloEnd _ _) (.next fun hs => (hs.takeFlits _ _ _).count _ _ _ _))

/-! ### Parking, revival, migration and leases (06); scrub and patrol (05 R149; 16 R475) -/

theorem execPark_goes (sq : Nat) (h : CmdHdr) (handle : BitVec 24) (pfmt : BitVec 4) (lease : BitVec 12) (expiry : BitVec 2)
    (dual dirOut : Bool) (ttlMs : W32) (s : State) : Goes s (execPark sq h handle pfmt lease expiry dual dirOut ttlMs s) := by
  unfold execPark
  dsimp only
  refine ringCmd_goes _ _ _ _ _ _ fun _ ht => ?_
  split
  · exact .done (ht.named _ _)
  · refine .ite (.done (ht.named _ _)) ?_
    refine .ite (.done (ht.named _ _)) ?_
    refine .ite (.done (ht.named _ _)) ?_
    split
    · exact .done (ht.named _ _)
    next he1 => exact .done ((((ht.named _ _).unhold _).takeMove _ _ _ _ _ he1).parkAccept _ _ _ _ _ _ _ _ _ _)

theorem execParkPendStart_goes (handle : Nat) (s : State) : Goes s (execParkPendStart handle s) := by
  unfold execParkPendStart
  split
  · exact .ite (.next fun hs => hs.parkStart _ _) (.next id)
  · exact .next id

theorem Canonical.revive {t : State} (hs : Canonical t) (ctx n : Nat) (narrow hint : Bool) : (t.revive ctx n narrow hint).Canonical := by
  unfold State.revive
  dsimp only
  split
  · exact .done (hs.named _ _)
  · refine .ite (.done (hs.named _ _)) ?_
    refine .ite (.done (hs.named _ _)) ?_
    refine .ite (.done (hs.named _ _)) ?_
    split
    next he => exact .done ((hs.named _ _).reviveAccept _ _ _ _ he)
    · exact .done (hs.named _ _)

theorem execRevive_goes (sq : Nat) (h : CmdHdr) (handle : BitVec 24) (narrow : Bool) (s : State) : Goes s
    (execRevive sq h handle narrow s) :=
  ringCmd_goes _ _ _ _ _ _ (fun _ ht => ht.revive _ _ _ _)

theorem execReviveHint_goes (sq : Nat) (h : CmdHdr) (handle : BitVec 24) (narrow : Bool) (s : State) : Goes s
    (execReviveHint sq h handle narrow s) :=
  ringCmd_goes _ _ _ _ _ _ (fun _ ht => ht.revive _ _ _ _)

theorem execHintLapse_goes (handle : Nat) (s : State) : Goes s (execHintLapse handle s) := by
  unfold execHintLapse
  split
  · exact .next id
  · exact .ite (.next id) (.ite (.next fun hs => hs.sweepSess _)
      (.next fun hs => ((((hs.abandonRevival _).setSess _ _).sesEvent _ _ _ _ _ _).sesEvent _ _ _ _ _ _).count _ _ _ _))

theorem execTtlSet_goes (sq : Nat) (h : CmdHdr) (handle : BitVec 24) (expiry : BitVec 2) (ttlMs : W32) (s : State) : Goes s
    (execTtlSet sq h handle expiry ttlMs s) := by
  unfold execTtlSet
  dsimp only
  refine ringCmd_goes _ _ _ _ _ _ fun _ ht => ?_
  split
  · exact .done (ht.named _ _)
  · exact .ite (.done (ht.named _ _)) (.ite (.done (ht.named _ _)) (.ite (.done (ht.named _ _)) (.done ((ht.named _ _).setSess _ _))))

theorem execTtlExpiry_goes (handle : Nat) (s : State) : Goes s (execTtlExpiry handle s) := by
  unfold execTtlExpiry
  split
  · exact .next id
  · exact .ite (.next id) (.ite (.next fun hs => (hs.sweepSess _).demoteStart _)
      (.next fun hs => ((hs.dropSess _ _ _).count _ _ _ _).sesEvent _ _ _ _ _ _))

theorem Canonical.fqTag (hs : Canonical s) (u c cost : Nat) : Canonical (s.fqTag u c cost) := hs.modRun _

theorem Canonical.unseat (hs : Canonical s) (mover : Nat) : Canonical (s.unseat mover) := by
  unfold State.unseat
  split
  · exact .ite (hs.modSes _ (by rfl)) hs
  · exact hs

theorem execPageMoverStart_goes (mover : Nat) (ue : Option Nat) (s0 : State) : Goes s0 (execPageMoverStart mover ue s0) := by
  unfold execPageMoverStart
  dsimp only
  refine .ite (.next id) ?_
  refine .ite (.next id) ?_
  split
  · exact .next id
  · split
    · exact .next id
    · refine .next fun hs => ?_
      split
      · exact .ite ((((hs.unseat _).fqTag _ _ _).modSes _ (by rfl)).modSes _ (by rfl))
          ((((((hs.unseat _).fqTag _ _ _).modSes _ (by rfl)).modSes _ (by rfl)).reseal _ _ _ _).freeMovers)
      · refine .ite ?_ (((((hs.unseat _).fqTag _ _ _).modSes _ (by rfl)).parkPage _ _ _ _).freeMovers)
        split
        · split
          · exact ((((hs.unseat _).fqTag _ _ _).modSes _ (by rfl)).sendExtent _ _ _).freeMovers
          · exact (((hs.unseat _).fqTag _ _ _).modSes _ (by rfl)).freeMovers
        · exact (((hs.unseat _).fqTag _ _ _).modSes _ (by rfl)).freeMovers
      · exact ((((hs.unseat _).fqTag _ _ _).modSes _ (by rfl)).migPage _ _ _ _).freeMovers
      · exact ((((hs.unseat _).fqTag _ _ _).modSes _ (by rfl)).sendPart _ _).freeMovers

theorem execPageLand_goes (mover : Nat) (s : State) : Goes s (execPageLand mover s) := by
  unfold execPageLand
  refine .ite (.next id) ?_
  split
  · exact .next id
  · exact .ite (.next id) (.next fun hs => (hs.modSes _ (by rfl)).landPage _ _ _ _ _)

theorem execMigrate_goes (sq : Nat) (h : CmdHdr) (handle : BitVec 24) (peerDev : BitVec 16) (peerHandle : BitVec 24) (s : State) : Goes s
    (execMigrate sq h handle peerDev peerHandle s) := by
  unfold execMigrate
  dsimp only
  refine ringCmd_goes _ _ _ _ _ _ fun _ ht => ?_
  split
  · exact .done (ht.owned _ _)
  · exact .ite (.done (ht.owned _ _)) (.ite (.done ((ht.owned _ _).migDecide _ _ _))
      (.ite (.done (ht.owned _ _)) (.ite (.done (ht.owned _ _)) (.ite (.done (.ite ((ht.owned _ _).sweepExtent _ _) (ht.owned _ _)))
      (.done ((Canonical.ite ((ht.owned _ _).sweepExtent _ _) (ht.owned _ _)).migStart _ _ _))))))

theorem execMigrateIn_goes (sq : Nat) (h : CmdHdr) (handle : BitVec 24) (srcDev : BitVec 16) (eventCq : BitVec 6) (srcHandle : BitVec 24)
    (s : State) : Goes s (execMigrateIn sq h handle srcDev eventCq srcHandle s) :=
  ringCmd_goes _ _ _ _ _ _ (fun _ ht => .ite (.done ht) (.ite (.done ht) (.done (ht.modSes _ (by rfl)))))

theorem execMigrateInCancel_goes (sq : Nat) (h : CmdHdr) (handle : BitVec 24) (srcDev : BitVec 16) (eventCq : BitVec 6)
    (srcHandle : BitVec 24) (s : State) : Goes s (execMigrateInCancel sq h handle srcDev eventCq srcHandle s) :=
  ringCmd_goes _ _ _ _ _ _ (fun _ ht => .ite (.done ht) (.ite (.done (ht.modSes _ (by rfl))) (.done ht)))

theorem execOffer_goes (o : Offer) (s : State) : Goes s (execOffer o s) := by
  unfold execOffer
  dsimp only
  split
  · exact .next id
  next he =>
    refine .ite (.next id) ?_
    split
    · refine .next fun hs => ?_
      split
      next he1 => exact ((Canonical.ite ((hs.takeMsg _ _ he).modSes _ (by rfl)) (hs.takeMsg _ _ he)).migSend _ _ _ _ _ _ he1)
      · exact .ite ((hs.takeMsg _ _ he).modSes _ (by rfl)) (hs.takeMsg _ _ he)
    next he1 =>
      refine .next fun hs => ?_
      refine Canonical.migReady ?_ _
      split
      next he2 => exact (((hs.takeMsg _ _ he).migAccept _ _ he1).migSend _ _ _ _ _ _ he2)
      · exact ((hs.takeMsg _ _ he).migAccept _ _ he1)

theorem migEvent_goes (s : State) (handle : Nat) (m : MigMsg) (ph : MigPh → Bool) (f : State → Session → State)
    (hf : ∀ t a, Canonical t → Canonical (f t a)) : Goes s (s.migEvent handle m ph f) := by
  unfold State.migEvent
  split
  next he => exact .ite (.next fun hs => hf _ _ (hs.takeMsg _ _ he)) (.next id)
  · exact .next id

theorem execAccept_goes (handle : Nat) (s : State) : Goes s (execAccept handle s) :=
  migEvent_goes _ _ _ _ _ (fun _ _ ht => (ht.setSess _ _).migNext _)

theorem execRefuse_goes (handle : Nat) (status : BitVec 16) (s : State) : Goes s (execRefuse handle status s) :=
  migEvent_goes _ _ _ _ _ (fun _ _ ht => ht.migBack _ _)

theorem execReady_goes (handle : Nat) (s : State) : Goes s (execReady handle s) :=
  migEvent_goes _ _ _ _ _ (fun _ _ ht => (ht.setSess _ _).migDecide _ _ _)

theorem execRelease_goes (handle : Nat) (s : State) : Goes s (execRelease handle s) :=
  migEvent_goes _ _ _ _ _ (fun _ _ ht => ht.migComplete _)

theorem execAbort_goes (handle : Nat) (s : State) : Goes s (execAbort handle s) := migEvent_goes _ _ _ _ _ (fun _ _ ht => ht.migDrop _)

theorem execMigrateReadyTimeout_goes (handle : Nat) (s : State) : Goes s (execMigrateReadyTimeout handle s) := by
  unfold execMigrateReadyTimeout
  split
  · exact .ite (.next fun hs => hs.migAbort _ _) (.next id)
  · exact .next id

theorem execMigratePeerTimeout_goes (handle : Nat) (s : State) : Goes s (execMigratePeerTimeout handle s) := by
  unfold execMigratePeerTimeout
  split
  · exact .ite (.next fun hs => hs.migDrop _) (.next id)
  · exact .next id

theorem Canonical.leaveBitmap (hs : Canonical s) (ctx l : Nat) : Canonical (s.leaveBitmap ctx l) := by
  unfold State.leaveBitmap
  split
  · exact .ite (hs.updLease _ _ _) (hs.unitsFree _)
  · exact hs.unitsFree _

theorem execLeaseSet_goes (sq : Nat) (h : CmdHdr) (lease : BitVec 12) (eventCq : BitVec 6) (rcd : LeaseRec) (s : State) : Goes s
    (execLeaseSet sq h lease eventCq rcd s) := by
  unfold execLeaseSet
  refine ringCmd_goes _ _ _ _ _ _ fun _ ht => ?_
  refine .ite (.done ht) ?_
  refine .ite (.done ((ht.leaveBitmap _ _).modSes _ (by rfl))) ?_
  split
  · exact .done ht
  next he1 => exact .done (((ht.leaveBitmap _ _).unitsAlloc _ _ _ _ _ he1).modSes _ (by rfl))

theorem execLeaseClear_goes (sq : Nat) (h : CmdHdr) (lease : BitVec 12) (s : State) : Goes s (execLeaseClear sq h lease s) := by
  unfold execLeaseClear
  dsimp only
  refine ringCmd_goes _ _ _ _ _ _ fun _ ht => ?_
  split
  · exact .done ht
  · exact .ite (.done ht) (.done ((((Canonical.ite (ht.foldl _ (fun _ _ hu => hu.sweepSess _)) ht).leaveBitmap _ _).modSes _
      (by rfl)).modCks _))

theorem execLeaseLost_goes (sq : Nat) (h : CmdHdr) (lease : BitVec 12) (s : State) : Goes s (execLeaseLost sq h lease s) :=
  ringCmd_goes _ _ _ _ _ _ (fun _ ht => .ite (.done (ht.loseLease _ _)) (.done ht))

theorem execLossSweep_goes (handle : Nat) (s : State) : Goes s (execLossSweep handle s) := by
  unfold execLossSweep
  dsimp only
  refine .ite (.next id) ?_
  split
  · exact .next fun hs => hs.sweepSess _
  · exact .ite (.next fun hs => (hs.sweepSess _).reviveGo _) (.next fun hs => hs.sweepSess _)

theorem execFrameScrub_goes (frame : Nat) (s : State) : Goes s (execFrameScrub frame s) :=
  .ite (.next fun hs => ((hs.modSes_hbm _ (fun hm => memWf_memZero hm _ _) (by rfl)).cleanLines _ _ _).retireIdle _) (.next id)

theorem execPatrolRead_goes (line : Nat) (ecc : Ecc) (s : State) : Goes s (execPatrolRead line ecc s) := by
  unfold execPatrolRead
  refine .ite (.next id) ?_
  refine .ite (.next id) ?_
  split
  · exact .next id
  · exact .next fun hs => hs.hbmCe _
  · exact .next fun hs => (hs.hbmUe _ _ _ _ _).lineBad _

theorem execSessionTruncate_goes (sq : Nat) (h : CmdHdr) (handle : BitVec 24) (n : W32) (s : State) :
    Goes s (execSessionTruncate sq h handle n s) := by
  refine ringCmd_goes _ _ _ _ _ _ fun t ht => ?_
  extract_lets hd k r
  have hr : Canonical r.1 := ht.named _ _
  split
  · exact .done hr
  · dsimp only
    refine .ite (.done hr) (.ite (.done hr) (.ite (.done hr) (.ite (.done ((hr.unhold _).truncate _ _)) (.ite ?_ ?_))))
    · split
      · exact .done hr
      next he => exact .done (((hr.dirFresh _ _ _ he).setSess _ _).truncate _ _)
    · split
      · exact .done hr
      next d u he =>
        have hu : Canonical u := AllSome.foldl (P := (Canonical ·.2)) (hr.dirFresh _ _) _
          (fun _ _ ho => .bind ho fun _ hv => hv.dirNeed _ _ _ _) _ he
        split
        next hv => exact .later (((hu.setSess _ _).requestExtent _ _ _).of_fst_eq hv)
        · exact .done hr

theorem Canonical.mapEffects (hs : Canonical s) : Canonical s.mapEffects :=
  (hs.foldl _ (fun _ _ ht => ht.loseLease _ _)).foldl _ (fun _ _ ht => ht.migComplete _)

theorem execMapCommit_goes (epoch crc : W32) (s : State) : Goes s (execMapCommit epoch crc s) := by
  unfold execMapCommit
  refine .ite (.next id) ?_
  split
  · exact .next fun hs => (hs.count _ _ _ _).modFab _
  · exact .ite (.next fun hs => (hs.count _ _ _ _).modFab _) (.next fun hs => (hs.modFab _).mapEffects)

/-! ### Firmware and reset (14 R401-R412; 15 R422-R426) -/

theorem Canonical.bootRecord (hs : Canonical s) : Canonical s.bootRecord := (hs.record _).count _ _ _ _
theorem Canonical.runSet (hs : Canonical s) (b : List Bool) : Canonical (s.runSet b) := hs.modMg _
theorem Canonical.stepFault (hs : Canonical s) (row : Nat) : Canonical (s.stepFault row) := hs.fatal _ _ _ _

theorem Canonical.bootSet (hs : Canonical s) (b : List Bool) : Canonical (s.bootSet b) :=
  .ite (hs.runSet _) (.ite (hs.bootRecord.runSet _) ((hs.bootRecord.modMg _).stepFault _))

theorem Canonical.boot {s0 : State} (hs : Canonical s0) : Canonical s0.boot :=
  .ite ((((hs.modMg _).bootRecord).modMg _).bootSet _) (((hs.modMg _).modMg _).bootSet _)

theorem Canonical.rootLocked (_ : Canonical s) : Canonical s.rootLocked := State.reset_memOk

theorem Canonical.bootRows (hs : Canonical s) : Canonical s.bootRows :=
  .ite (((hs.take1.modSec _).boot).modDev _) (((((hs.take1.modSec _).boot).modDev _).modSite _ (by rfl)).modFab _)

theorem Canonical.afterLock (hs : Canonical s) : Canonical s.afterLock := .ite hs hs.bootRows
theorem Canonical.resetDevice (hs : Canonical s) : Canonical s.resetDevice := (((hs.rootLocked.modSec _).modDev _).count _ _ _ _).afterLock
theorem Canonical.domStart (hs : Canonical s) (c : Nat) : Canonical (s.domStart c) := hs.modDev _
theorem Canonical.resetPlinth (hs : Canonical s) (act : Bool) : Canonical (s.resetPlinth act) := ((hs.modDev _).domStart _).count _ _ _ _
theorem Canonical.resetDie (hs : Canonical s) (d : Nat) : Canonical (s.resetDie d) := (((hs.modDev _).domStart _).count _ _ _ _).endDie _ _

theorem Canonical.resetPort (hs : Canonical s) (p : Nat) : Canonical (s.resetPort p) :=
  (Canonical.ite (((Canonical.ite (hs.portDown _) (hs.setPort _ _)).setPort _ _).domStart _) (.ite (hs.portDown _) (hs.setPort _ _))).count
    _ _ _ _

theorem Canonical.activated (hs : Canonical s) (a : Activation) : Canonical (s.activated a) := (hs.modMg _).setObj _ _ _ _ _

theorem Canonical.actNext (hs : Canonical s) (a : Activation) : Canonical (s.actNext a) := by
  unfold State.actNext
  split
  · exact hs
  · exact .ite (.ite ((hs.resetPort _).modMg _) (hs.modMg _)) (.ite (hs.modMg _) (.ite hs (hs.modMg _)))

theorem Canonical.actStep (hs : Canonical s) : Canonical s.actStep := by
  unfold State.actStep
  split
  · exact hs
  · split
    · exact hs.actNext _
    · exact .ite (.ite hs (hs.modMg _)) (.ite (hs.modMg _) (.ite (.ite hs ((hs.resetDie _).modMg _)) (.ite hs (hs.modMg _))))

/-! ### Power, clocks, reset and sensors (15) -/

theorem Canonical.warn (hs : Canonical s) (trig : Nat) : Canonical (s.warn trig) := .ite (hs.ckptWarn _) hs

theorem execPowerOn_goes (mv : Nat) (phySel claimClr rstLow : Bool) (s : State) : Goes s (execPowerOn mv phySel claimClr rstLow s) :=
  .ite (.next id) (.next fun hs => (Canonical.ite (((hs.rootLocked.take1.modSec _).modDev _).modMg _)
    ((hs.rootLocked.take1.modSec _).modDev _)).afterLock)

theorem Canonical.startFailed (hs : Canonical s) (row : Nat) : Canonical (s.startFailed row) :=
  ((hs.modDev _).modSite _ (by rfl)).stepFault _

theorem execStartUpComplete_goes (badStacks : List Nat) (failedRow : Option Nat) (s : State) : Goes s
    (execStartUpComplete badStacks failedRow s) := by
  unfold execStartUpComplete
  dsimp only
  refine .ite (.next id) ?_
  split
  · exact .next fun hs => hs.startFailed _
  · split
    · exact .next fun hs => (hs.take1.modDev _).startFailed _
    · exact .next fun hs => ((hs.take1.modDev _).modDev _).foldl _ (fun _ _ ht => ht.fenceDie _)

theorem execSupplyLevelChange_goes (mv : Nat) (s : State) : Goes s (execSupplyLevelChange mv s) :=
  .ite (.next fun hs => hs.modDev _) (.ite (.next fun hs => ((hs.modDev _).fatal _ _ _ _).powerDown)
    (.ite (.next fun hs => (hs.modDev _).modDev _) (.ite (.next fun hs => (hs.modDev _).modDev _)
    (.next fun hs => ((((hs.modDev _).modDev _).record _).count _ _ _ _).warn _))))

theorem execSupplyWarningClear_goes (s : State) : Goes s (execSupplyWarningClear s) := by
  unfold execSupplyWarningClear
  split
  · exact .ite (.next fun hs => hs.modDev _) (.next id)
  · exact .next id

theorem Canonical.hostOff (hs : Canonical s) (rail : Nat) : Canonical (s.hostOff rail) := (hs.modDev _).linkOff

theorem execHostRailFault_goes (s : State) : Goes s (execHostRailFault s) :=
  .ite (.next id) (.next fun hs => ((hs.record _).count _ _ _ _).hostOff _)

theorem Canonical.sensor (hs : Canonical s) (i : Nat) (t : ℤ) : Canonical (s.sensor i t) :=
  .ite (((Canonical.ite (((Canonical.ite ((((hs.modDev _).record _).count _ _ _ _).warn _) (hs.modDev _)).record _).count _ _ _ _)
    (.ite ((((hs.modDev _).record _).count _ _ _ _).warn _) (hs.modDev _))).fatal _ _ _ _).powerDown)
    (.ite (((Canonical.ite ((((hs.modDev _).record _).count _ _ _ _).warn _) (hs.modDev _)).record _).count _ _ _ _)
    (.ite ((((hs.modDev _).record _).count _ _ _ _).warn _) (hs.modDev _)))

theorem execSensorRead_goes (temps : List ℤ) (s : State) : Goes s (execSensorRead temps s) :=
  .ite (.next id) (.next fun hs => hs.foldl _ (fun _ _ ht => ht.sensor _ _))

theorem execRootLockLoss_goes (s : State) : Goes s (execRootLockLoss s) := .ite (.next id) (.next fun hs => (hs.fatal _ _ _ _).modDev _)

theorem execRstNAssert_goes (s : State) : Goes s (execRstNAssert s) :=
  .ite (.next id) (.ite (.next fun hs => ((((hs.modDev _).modMg _).modErr _).resetDevice).setObj _ _ _ _ _)
    (.next fun hs => (hs.modDev _).resetDevice))

theorem execRstNRelease_goes (s : State) : Goes s (execRstNRelease s) := .ite (.next id) (.next fun hs => (hs.modDev _).bootRows)

theorem execServiceDegradedClear_goes (s : State) : Goes s (execServiceDegradedClear s) := by
  unfold execServiceDegradedClear
  split
  · exact .ite (.next fun hs => (hs.modErr _).tellDegraded _) (.next id)
  · exact .next id

theorem Canonical.moveReset (hs : Canonical s) (h : Nat) : Canonical (s.moveReset h) := by
  unfold State.moveReset
  split
  · exact hs
  · exact .ite (hs.truncFail _ _) (.ite (hs.parkFail _ _) (.ite (hs.demoteFail _ _) (.ite (hs.reviveFail _ _) hs)))

theorem Canonical.ckptReset (hs : Canonical s) (c : Nat) : Canonical (s.ckptReset c) :=
  .ite hs (.ite ((hs.ckptIdle _).ckptResult _ _) (hs.ckptFail _ _ _))

theorem Canonical.plinthEnd (hs : Canonical s) : Canonical s.plinthEnd :=
  ((((hs.foldl _ (fun _ _ ht => ht.endOne _ _ _ _)).foldl _ (fun _ _ ht => ht.endStep _ _ _)).foldl _ (fun _ _ ht => ht.endJob _)).foldl _
    (fun _ _ ht => ht.moveReset _)).foldl _ (fun _ _ ht => ht.ckptReset _)

theorem execPlinthResetEnding_goes (s : State) : Goes s (execPlinthResetEnding s) := by
  unfold execPlinthResetEnding
  split
  · exact .ite (.next fun hs => hs.plinthEnd.modDev _) (.next id)
  · exact .next id

theorem Canonical.loseSpills (hs : Canonical s) : Canonical s.loseSpills := hs.foldl _ (fun _ _ ht => .ite ht (ht.count _ _ _ _))

theorem Canonical.plinthUnits (hs : Canonical s) : Canonical s.plinthUnits := by
  obtain ⟨hhbm, hcmem, _, _⟩ := (State.memOk_iff _).1 hs.loseSpills
  rw [Canonical, State.memOk_iff]
  dsimp only [State.plinthUnits]
  exact ⟨hhbm, hcmem, rfl, rfl⟩

theorem execPlinthResetPhase3_goes (s : State) : Goes s (execPlinthResetPhase3 s) := by
  unfold execPlinthResetPhase3
  split
  · exact .ite (.next fun hs => hs.plinthUnits.modDev _) (.next id)
  · exact .next id

theorem execPlinthResetRelease_goes (s : State) : Goes s (execPlinthResetRelease s) := by
  unfold execPlinthResetRelease
  split
  · exact .ite (.next id) (.next fun hs => ((hs.modDev _).modSite _ (by rfl)).domEnd _)
  · exact .next id

theorem execDieResetRelease_goes (die : Nat) (s : State) : Goes s (execDieResetRelease die s) :=
  .ite (.next id) (.ite (.next id) (.next fun hs => (hs.modDev _).domEnd _))

theorem execDieResetTimeout_goes (die : Nat) (s : State) : Goes s (execDieResetTimeout die s) := by
  unfold execDieResetTimeout
  refine .ite (.next id) ?_
  split
  · exact .ite (.next fun hs => hs.fenceAuto _) (.next id)
  · exact .next id

theorem execMemoryIslandFailure_goes (die : Nat) (s : State) : Goes s (execMemoryIslandFailure die s) :=
  .ite (.next id) (.ite (.next id) (.next fun hs => (hs.modDev _).fatal _ _ _ _))

theorem execDieSequencerOrRailFault_goes (die : Nat) (rail : Bool) (s : State) : Goes s (execDieSequencerOrRailFault die rail s) :=
  .ite (.next id) (.ite (.next id) (.next fun hs => .ite ((hs.fenceAuto _).modDev _) (hs.fenceAuto _)))

/-! ### Text (09) -/

theorem Canonical.setStrm (hs : Canonical s) (n : Nat) (t : TStream) : Canonical (s.setStrm n t) := hs.modTxt _
theorem Canonical.textEvent (hs : Canonical s) (t : TStream) (status body : Nat) : Canonical (s.textEvent t status body) := hs.event _ _

theorem Canonical.releaseGo (n kind aux status token : Nat) (l : List (List (Byte × Bool))) (t : TStream) (hs : Canonical s) :
    Canonical (releaseGo n kind aux status token l t s).2 := by
  induction l generalizing s t with
  | nil => exact hs
  | cons c l ih => exact ih _ (hs.textEvent _ _ _)

theorem Canonical.release (n : Nat) (t : TStream) (hs : Canonical s) (kind aux status token : Nat) (bs : List (Byte × Bool)) : Canonical
    (release n t s kind aux status token bs).2 :=
  hs.releaseGo _ _ _ _ _ _ _

theorem Canonical.endStream (n : Nat) (t : TStream) (hs : Canonical s) (kind status token : Nat) : Canonical
    (endStream n t s kind status token).2 :=
  (hs.count _ _ _ _).release _ _ _ _ _ _ _

theorem Canonical.writeMask (hs : Canonical s) (n ctx : Nat) (i : Instance_) (rs : List (Nat × Nat)) : Canonical (s.writeMask n ctx i rs) :=
  (hs.cwrite _ _ _).cwrite _ _ _

theorem Canonical.settleInst (hs : Canonical s) (n ctx : Nat) (m : Mem) (i : Instance_) : Canonical (s.settleInst n ctx m i).2.2 := by
  unfold State.settleInst
  dsimp only
  split
  · split
    · exact hs.writeMask _ _ _ _
    · exact hs.writeMask _ _ _ _
  · exact hs.writeMask _ _ _ _

/-! ### Text commands (09) -/

theorem Canonical.laneStart (hs : Canonical s) (l c n : Nat) : Canonical (s.laneStart l c n) := (hs.modTxt _).fqStart _ _ _ _

theorem Canonical.laneBegin (hs : Canonical s) (l : Nat) (i : LaneItem) : Canonical (s.laneBegin l i) := by
  unfold State.laneBegin
  refine .ite ?_ ?_
  · split
    · exact hs
    · exact (hs.laneStart _ _ _).modTxt _
  · split
    · split
      · exact (hs.laneStart _ _ _).setStrm _ _
      · exact hs
    · exact hs

theorem Canonical.tokWrite (hs : Canonical s) (n : Nat) (x : TStream) : Canonical (s.tokWrite n x) := by
  unfold State.tokWrite
  split
  · split
    · exact .ite hs (.ite hs (.ite (hs.cbwHold _ _) ((hs.cwrite _ _ _).setStrm _ _)))
    · exact hs
  · exact hs

theorem Canonical.laneTick (hs : Canonical s) : Canonical s.laneTick := by
  unfold State.laneTick
  refine .ite hs ?_
  refine Canonical.modTxt ?_ _
  refine (hs.each _ (fun _ _ ht => ht.tokWrite _ _)).each _ fun _ _ ht => ?_
  split
  · exact .ite ht (ht.laneBegin _ _)
  · exact ht

theorem Canonical.laneTake (hs : Canonical s) (ctx n : Nat) : Canonical (s.laneTake ctx n) := by
  unfold State.laneTake
  split
  · exact hs.laneStart _ _ _
  · exact hs

theorem streamCmd_goes (s : State) (sq : Nat) (h : CmdHdr) (n : Nat) (c : HostCmd) (hosts : List (Nat × Nat)) (f : State → CmdOut)
    (hf : ∀ t, Canonical t → (f t).Canonical) : Goes s (s.streamCmd sq h n c hosts f) :=
  .ite (.next id) (ringCmd_goes _ _ _ _ _ _ (fun _ ht => hf _ ht))

theorem Canonical.reading {t : State} (hs : Canonical t) (ctx addr n : Nat) (f : CmdOut) (hf : f.Canonical) :
    (CmdOut.reading t ctx addr n f).Canonical := by
  unfold CmdOut.reading
  split
  · exact .done (hs.ueRead _ _ _)
  · exact hf

theorem execVocabLoad_goes (sq : Nat) (h : CmdHdr) (vocab : BitVec 4) (addr : BitVec 48) (imageLen : W32) (s : State) : Goes s
    (execVocabLoad sq h vocab addr imageLen s) :=
  ringCmd_goes _ _ _ _ _ _ (fun _ ht => .ite (.done ht) (.ite (.done ht) (ht.reading _ _ _ _ (.ite (.done ht) (.done (ht.modTxt _))))))

theorem execVocabRemove_goes (sq : Nat) (h : CmdHdr) (vocab : BitVec 4) (s : State) : Goes s (execVocabRemove sq h vocab s) :=
  ringCmd_goes _ _ _ _ _ _ (fun _ ht => .ite (.done ht) (.ite (.done ht) (.done (ht.modTxt _))))

theorem execStopsetSet_goes (sq : Nat) (h : CmdHdr) (stopset : BitVec 8) (countM1 : BitVec 4) (addr : BitVec 48) (lens : BitVec 128)
    (s : State) : Goes s (execStopsetSet sq h stopset countM1 addr lens s) :=
  ringCmd_goes _ _ _ _ _ _ (fun _ ht => .ite (.done ht) (ht.reading _ _ _ _ (.ite (.done ht) (.ite (.done ht) (.done (ht.modTxt _))))))

theorem execStreamOpen_goes (sq : Nat) (h : CmdHdr) (stream : BitVec 14) (vocab : BitVec 4) (stopset : BitVec 16) (includeStop : Bool)
    (eventCq : BitVec 6) (s : State) : Goes s (execStreamOpen sq h stream vocab stopset includeStop eventCq s) := by
  unfold execStreamOpen
  refine streamCmd_goes _ _ _ _ _ _ _ fun _ ht => ?_
  refine .ite (.done ht) ?_
  split
  · exact .done ht
  · exact .ite (.done ht) (.ite (.done ht) (.done (ht.setStrm _ _)))

theorem execStreamClose_goes (sq : Nat) (h : CmdHdr) (stream : BitVec 14) (s : State) : Goes s (execStreamClose sq h stream s) := by
  unfold execStreamClose
  dsimp only
  refine streamCmd_goes _ _ _ _ _ _ _ fun _ ht => ?_
  split
  · exact .done ht
  · refine .done ?_
    refine Canonical.modTxt ?_ _
    refine Canonical.each ?_ _ (fun _ _ hu => hu.tokenized _ _ _ _ _ _ _ _ _)
    refine Canonical.setStrm ?_ _ _
    split
    · exact ht.endStream _ _ _ _ _
    · exact ht

theorem execTokenize_goes (sq : Nat) (h : CmdHdr) (stream : BitVec 14) (last : Bool) (inAddr : BitVec 48) (len : W32) (outAddr : BitVec 48)
    (outCap : W32) (s : State) : Goes s (execTokenize sq h stream last inAddr len outAddr outCap s) := by
  unfold execTokenize
  dsimp only
  refine streamCmd_goes _ _ _ _ _ _ _ fun _ ht => ?_
  split
  · exact .done ht
  · exact .ite (.done ht) (.ite (.done ht) (.later ((ht.setStrm _ _).modTxt _)))

theorem execTokenizeDone_goes (stream : Nat) (s : State) : Goes s (execTokenizeDone stream s) := by
  unfold execTokenizeDone
  split
  · exact .next id
  · split
    · exact .next id
    · refine .ite (.next id) ?_
      split
      · exact .next id
      · refine .ite (.next fun hs => hs.cbwHold _ _) ?_
        split
        · exact .next fun hs => ((hs.setStrm _ _).ueRead _ _ _).tokenized _ _ _ _ _ _ _ _ _
        · exact .ite (.next fun hs => (hs.setStrm _ _).tokenized _ _ _ _ _ _ _ _ _)
            (.next fun hs => ((((hs.cwrite _ _ _).setStrm _ _).count _ _ _ _).count _ _ _ _).tokenized _ _ _ _ _ _ _ _ _)

theorem Canonical.emitToken (hs : Canonical s) (n : Nat) (t : TStream) (v : Vocab) (tok : Nat) (dead fin : Bool) :
    Canonical (s.emitToken n t v tok dead fin) := by
  unfold State.emitToken
  extract_lets speech f s0 t1 r1 c r2 r3
  have h0 : Canonical s0 := hs.count _ _ _ _
  have h1 : Canonical r1.2 := by
    unfold r1
    split_ifs
    · exact h0.release _ _ _ _ _ _ _
    · exact h0
    · exact h0
    · exact h0.release _ _ _ _ _ _ _
  have h2 : Canonical r2.2 := by
    unfold r2
    split
    · split
      · split
        · exact (h1.count _ _ _ _).endStream _ _ _ _ _
        · exact (h1.count _ _ _ _).release _ _ _ _ _ _ _
      · exact h1.count _ _ _ _
    · exact h1
  have h3 : Canonical r3.2 := by
    unfold r3
    split
    · exact h2.endStream _ _ _ _ _
    · exact h2
  split
  · extract_lets r d
    have hr : Canonical r.2 := h0.release _ _ _ _ _ _ _
    have hd : Canonical d.2 := by
      unfold d
      split
      · exact (hr.count _ _ _ _).release _ _ _ _ _ _ _
      · exact hr
    exact hd.setStrm _ _
  · exact h3.setStrm _ _

theorem execTokenEvent_goes (stream : Nat) (s : State) : Goes s (execTokenEvent stream s) := by
  unfold execTokenEvent
  split
  · exact .next id
  · refine .ite (.next id) ?_
    split
    · exact .next fun hs => ((hs.modTxt _).count _ _ _ _).event _ _
    · refine .ite (.next fun hs => (hs.modTxt _).count _ _ _ _) ?_
      split
      · exact .next id
      · refine .ite (.next fun hs => ((hs.modTxt _).release _ _ _ _ _ _ _).setStrm _ _) ?_
        refine .ite (.next fun hs => ((hs.modTxt _).release _ _ _ _ _ _ _).setStrm _ _) ?_
        split
        · exact .next fun hs => (hs.modTxt _).emitToken _ _ _ _ _ _
        · exact .next fun hs => (((hs.modTxt _).count _ _ _ _).endStream _ _ _ _ _).setStrm _ _
        · exact .next fun hs => (hs.modTxt _).emitToken _ _ _ _ _ _
        · exact .ite (.next fun hs => hs.cbwHold _ _) (.next fun hs => ((hs.modTxt _).settleInst _ _ _ _).emitToken _ _ _ _ _ _)

theorem execGrammarLoad_goes (sq : Nat) (h : CmdHdr) (grammar : BitVec 6) (addr : BitVec 48) (s : State) : Goes s
    (execGrammarLoad sq h grammar addr s) :=
  ringCmd_goes _ _ _ _ _ _ (fun _ ht => .ite (.done ht) (.ite (.done ht) (ht.reading _ _ _ _ (.ite (.done ht) (.done (ht.modTxt _))))))

theorem execGrammarRemove_goes (sq : Nat) (h : CmdHdr) (grammar : BitVec 6) (s : State) : Goes s (execGrammarRemove sq h grammar s) :=
  ringCmd_goes _ _ _ _ _ _ (fun _ ht => .ite (.done ht) (.ite (.done ht) (.done (ht.modTxt _))))

theorem execGrammarBind_goes (sq : Nat) (h : CmdHdr) (stream : BitVec 14) (grammar : BitVec 6) (escape : BitVec 18) (maskAddr : BitVec 48)
    (s : State) : Goes s (execGrammarBind sq h stream grammar escape maskAddr s) := by
  refine .ite (.next fun hs => hs.cbwHold _ _) (.ite (.next id) (streamCmd_goes _ _ _ _ _ _ _ fun t ht => ?_))
  extract_lets ctx n
  split
  · exact .done ht
  · refine .ite (.done ht) (.ite (.done ht) ?_)
    split
    · exact .done ht
    · refine .ite (.done ht) (.ite (.done ht) ?_)
      extract_lets i r t1 x1 e
      have hr : Canonical r.2.2 := (ht.laneTake _ _).settleInst _ _ _ _
      have h1 : Canonical t1 := hr.count _ _ _ _
      exact .ite (.done (hr.setStrm _ _)) (.ite (.done (((h1.count _ _ _ _).endStream _ _ _ _ _).setStrm _ _)) (.done (h1.setStrm _ _)))

theorem execGrammarUnbind_goes (sq : Nat) (h : CmdHdr) (stream : BitVec 14) (s : State) : Goes s (execGrammarUnbind sq h stream s) := by
  unfold execGrammarUnbind
  refine streamCmd_goes _ _ _ _ _ _ _ fun _ ht => ?_
  split
  · exact .done ht
  · exact .done (ht.setStrm _ _)

/-! ### Objects and staged maps (14) -/

theorem Canonical.capWaiting (hs : Canonical s) : Canonical s.capWaiting := .ite hs (hs.foldl _ (fun _ _ ht => ht.endStep _ _ _))

theorem Canonical.hostRailSet (hs : Canonical s) (v : Nat) : Canonical (s.hostRailSet v) :=
  .ite (hs.hostOff _) (.ite hs ((hs.modDev _).modSite _ (by rfl)))

theorem Canonical.ctxStart (hs : Canonical s) (c : Nat) : Canonical (s.ctxStart c) := by
  unfold State.ctxStart
  dsimp only
  split
  next he => exact (((hs.take1.take1.modSec _).modRun _).unitsAlloc _ _ _ _ _ he)
  · exact (hs.take1.take1.modSec _).modRun _

theorem Canonical.ctxStop (hs : Canonical s) (c : Nat) : Canonical (s.ctxStop c) :=
  ((((Canonical.ite hs (.ite (hs.restoreEnd _ _ _ _) (hs.ckptFail _ _ _))).unitsFree _).modSec _).modSes_cmem _
    (fun hm => memWf_filter hm _) (by rfl)).each _ fun _ _ ht => ht.retireIdle _

theorem Canonical.joinOut (hs : Canonical s) (c : Nat) : Canonical (s.joinOut c) := .ite (hs.joinDone _ _ _ _) (hs.bulkIssue _ _)

theorem Canonical.portEnable (hs : Canonical s) (p v : Nat) : Canonical (s.portEnable p v) :=
  .ite ((Canonical.ite (hs.portDown _) (hs.setPort _ _)).domEnd _) (.ite (hs.setPort _ _) hs)

theorem Canonical.after (hs : Canonical s) (s0 : State) (ix sub row : Nat) : Canonical (s0.after s ix sub row) := by
  unfold State.after
  split
  · exact hs.hostRailSet _
  · exact hs.capWaiting
  · exact hs.capWaiting
  · exact hs.capWaiting
  · exact hs.portEnable _ _
  · exact .ite (hs.ctxStart _) (.ite (hs.ctxStop _) hs)
  · exact .ite (hs.joinOut _) hs
  · exact hs

/-! ### Management messages (14) -/

theorem Canonical.say (hs : Canonical s) (r : MgmtReply) : Canonical (s.say r) := hs.emit _

theorem mgmtMsg_goes (s : State) (m : MgmtHdr) (op : Nat) (form : Bool) (plan : State → Nat → MgmtPlan)
    (hplan : Canonical s → ∀ r, (plan s r).Canonical) : Goes s (s.mgmtMsg m op form plan) := by
  unfold State.mgmtMsg
  dsimp only
  refine .ite (.next id) (.ite (.next fun hs => hs.count _ _ _ _) (.ite (.next fun hs => hs.say _) (.ite (.next fun hs => hs.say _)
    (.ite (.next fun hs => hs.say _) (.ite (.next fun hs => (hs.count _ _ _ _).say _) (.ite ?_ ?_))))))
  · split
    · exact .next fun hs => hs.say _
    · exact .next fun hs => hs.say _
  · exact .next fun hs => hplan hs _ _ ((hs.modMg _).say _)

theorem execIdent_goes (m : MgmtHdr) (s : State) : Goes s (execIdent m s) :=
  .ite (.next id) (.ite (.next fun hs => hs.count _ _ _ _) (.next fun hs => hs.say _))

theorem execClaim_goes (m : MgmtHdr) (key : BitVec 256) (s : State) : Goes s (execClaim m key s) :=
  .ite (.next id) (.ite (.next fun hs => hs.count _ _ _ _) (.ite (.next fun hs => hs.say _)
    (.ite (.next fun hs => hs.say _) (.ite (.next fun hs => ((hs.setObj _ _ _ _ _).setObj _ _ _ _ _).say _) (.next fun hs => hs.say _)))))

theorem Canonical.notePeak (hs : Canonical s) (n ix sub : Nat) : Canonical (s.notePeak n ix sub) :=
  .ite (hs.modDev _) (.ite (hs.modDev _) hs)

theorem Canonical.itemClear {s0 : State} (hs : Canonical s0) (i : MgmtItem) : Canonical (s0.itemClear i) := by
  unfold State.itemClear
  split
  · exact hs.notePeak _ _ _
  · exact .ite (hs.notePeak _ _ _) ((hs.notePeak _ _ _).foldl _ (fun _ _ ht => ht.foldl _ (fun _ _ hu => hu.setObj _ _ _ _ _)))

theorem Canonical.readPlan (items : List MgmtItem) (rights : Nat) : (s.readPlan items rights).Canonical := by
  intro t ht
  unfold State.readPlan
  split
  · exact ht
  · split
    · exact ht
    · split
      · exact ht
      · exact ht.take1.foldl _ fun _ _ hu => hu.itemClear _

theorem execRead_goes (m : MgmtHdr) (items : List MgmtItem) (s : State) : Goes s (execRead m items s) :=
  mgmtMsg_goes _ _ _ _ _ fun _ r => Canonical.readPlan _ r

theorem Canonical.resetDo (hs : Canonical s) (v : Nat) : Canonical (s.resetDo v) :=
  .ite hs.resetDevice (.ite (hs.resetPlinth _) (.ite (hs.resetDie _) (hs.resetPort _)))

theorem Canonical.ckptDo (hs : Canonical s) (c v : Nat) : Canonical (s.ckptDo c v) := by
  unfold State.ckptDo
  refine .ite ?_ ?_
  · split
    next he => exact (hs.ckptStart _ _ _ he)
    · exact hs.ckptResult _ _
  · refine .ite ?_ (.ite hs (.ite (hs.restoreEnd _ _ _ _) (hs.ckptFail _ _ _)))
    split
    next he => exact (hs.restoreStart _ _ he)
    · exact hs

theorem Canonical.activateDo (hs : Canonical s) (k : Nat) : Canonical (s.activateDo k) :=
  .ite (hs.activated _) (.ite ((hs.modMg _).resetPlinth _) (hs.modMg _))

theorem Canonical.commitDo (hs : Canonical s) : Canonical s.commitDo := hs.modMg _

theorem Canonical.actDo (hs : Canonical s) (ix sub row v : Nat) : Canonical (s.actDo ix sub row v) := by
  unfold State.actDo
  split
  · exact hs.modDev _
  · exact hs.resetDo _
  · exact hs.modSec _
  · exact hs.ckptDo _ _
  · exact .ite hs (hs.modErr _)
  · exact hs.fenceDie _
  · exact hs.activateDo _
  · exact hs.modMg _
  · exact .ite hs hs.commitDo
  · exact hs

theorem Canonical.stageItem (hs : Canonical s) (i : MgmtItem) : Canonical (s.stageItem i) := by
  unfold State.stageItem
  split
  · exact hs
  · exact .ite hs (hs.foldl _ (fun _ _ ht => ht.foldl _ (fun _ _ hu => hu.setObj _ _ _ _ _)))

theorem Canonical.ckptBefore {t : State} (hs : Canonical t) (i : MgmtItem) (k : Nat) : Canonical (t.ckptBefore i k) := by
  unfold State.ckptBefore
  split
  · exact .ite (hs.foldl _ (fun _ _ ht => ht.ckptDo _ _)) hs
  · exact hs

theorem Canonical.itemDo (hs : Canonical s) (s0 : State) (i : MgmtItem) : Canonical (s0.itemDo s i) := by
  unfold State.itemDo
  split
  · exact hs
  · exact hs.foldl _ fun _ _ ht => (ht.after _ _ _ _).actDo _ _ _ _

theorem Canonical.ckptRefused (hs : Canonical s) (t : State) (i : MgmtItem) (st : Nat) : Canonical (t.ckptRefused i st s) := by
  unfold State.ckptRefused
  refine .ite ?_ hs
  split
  · exact hs.ckptResult _ _
  · exact hs

theorem Canonical.writePlan (s : State) (items : List MgmtItem) (rights : Nat) : (s.writePlan items rights).Canonical := by
  intro t ht
  unfold State.writePlan
  extract_lets staged
  split
  next k _ =>
    dsimp only
    cases items[k]? with
    | none => exact ht
    | some i => exact ht.ckptRefused _ _ _
  · exact ((ht.foldl _ fun _ _ hu => hu.stageItem _).count _ _ _ _).foldl _ fun _ _ hu => hu.itemDo _ _

theorem execWrite_goes (m : MgmtHdr) (items : List MgmtItem) (s : State) : Goes s (execWrite m items s) :=
  mgmtMsg_goes _ _ _ _ _ fun _ r => Canonical.writePlan _ _ r

theorem write1_goes (s : State) (m : MgmtHdr) (ix sub row data : Nat) : Goes s (s.write1 m ix sub row data) :=
  mgmtMsg_goes _ _ _ _ _ fun _ r => Canonical.writePlan _ _ r

theorem Canonical.imgStore (hs : Canonical s) (k : Nat) (b : List Byte) : Canonical (s.imgStore k b) := hs.modMg _

theorem Canonical.imgPlan (s : State) (k off : Nat) (data : List Byte) (rights : Nat) : (s.imgPlan k off data rights).Canonical :=
  .ite .bad (.ite .bad (.ite .bad (.ite (.ok fun _ ht => ht.imgStore _ _) (.ite .bad (.ite .bad (.ok fun _ ht => ht.imgStore _ _))))))

theorem execImgData_goes (m : MgmtHdr) (kind : BitVec 8) (offset : W32) (data : List Byte) (s : State) : Goes s
    (execImgData m kind offset data s) :=
  mgmtMsg_goes _ _ _ _ _ fun _ r => Canonical.imgPlan _ _ _ _ r

theorem execImageVerified_goes (kind : Nat) (s : State) : Goes s (execImageVerified kind s) :=
  .ite (.next id) (.ite (.next id) (.next fun hs => hs.modMg _))

theorem execActivationDone_goes (s : State) : Goes s (execActivationDone s) := by
  unfold execActivationDone
  split
  · exact .ite (.next fun hs => hs.activated _) (.next id)
  · exact .next id

theorem execActivationDrainExpiry_goes (s : State) : Goes s (execActivationDrainExpiry s) := by
  unfold execActivationDrainExpiry
  split
  · split
    · exact .ite (.next fun hs => (hs.foldl _ (fun _ _ ht => ht.endStep _ _ _)).actStep) (.next id)
    · exact .next id
  · exact .next id

/-! ### Checkpoint commands (13 R371-R377) -/

theorem execCkptNotice_goes (s : State) : Goes s (execCkptNotice s) := .next fun hs => .ite (hs.warn _) hs

theorem execCutInstant_goes (ctx : Nat) (s : State) : Goes s (execCutInstant ctx s) := by
  unfold execCutInstant
  dsimp only
  split
  · exact .ite (.next id) (.next fun hs => (hs.setCkpt _ _).ckptEvent _ _ _ _ _)
  · exact .next id

theorem execCkptHoldExpiry_goes (ctx : Nat) (s : State) : Goes s (execCkptHoldExpiry ctx s) :=
  .ite (.next fun hs => (hs.ckptIdle _).ckptResult _ _) (.next id)

theorem execCutComplete_goes (ctx : Nat) (s : State) : Goes s (execCutComplete ctx s) :=
  .ite (.next id) (.next fun hs => (hs.foldl _ (fun _ _ ht => ht.copyFrame _ _)).setCkpt _ _)

theorem execCbwRelease_goes (ctx frame : Nat) (s : State) : Goes s (execCbwRelease ctx frame s) :=
  .ite (.next fun hs => hs.copyFrame _ _) (.next id)

/-! ### The host site (11) -/

theorem Canonical.flitOk (hs : Canonical s) (m : Nat) : Canonical (s.flitOk m) := hs.modSite _ (by rfl)
theorem Canonical.pairsOff (hs : Canonical s) : Canonical s.pairsOff := hs.modSite _ (by rfl)

theorem execSiteLinkBringup_goes (widths : List Nat) (s : State) : Goes s (execSiteLinkBringup widths s) :=
  .ite (.next id) (.ite (.next fun hs => (hs.record _).modSite _ (by rfl)) (.next fun hs => hs.pairsOff.modSite _ (by rfl)))

theorem execSiteBringupRetry_goes (s : State) : Goes s (execSiteBringupRetry s) := by
  unfold execSiteBringupRetry
  split
  · exact .ite (.next fun hs => hs.modSite _ (by rfl)) (.next id)
  · exact .next id

theorem execUcieFlitReplay_goes (module_ : Nat) (s : State) : Goes s (execUcieFlitReplay module_ s) :=
  .ite (.next id) (.ite (.next id) (.next fun hs => (hs.record _).modSite _ (by rfl)))

theorem execUcieRetrainDone_goes (module_ width : Nat) (s : State) : Goes s (execUcieRetrainDone module_ width s) :=
  .ite (.next id) (.ite (.next id) (.ite (.next fun hs => (Canonical.ite ((hs.modSite _ (by rfl)).record _)
    (.ite ((hs.modSite _ (by rfl)).record _) (hs.modSite _ (by rfl)))).modSite _ (by rfl))
    (.next fun hs => .ite ((hs.modSite _ (by rfl)).record _) (.ite ((hs.modSite _ (by rfl)).record _) (hs.modSite _ (by rfl))))))

theorem Canonical.setTail (hs : Canonical s) (ring tail : Nat) : Canonical (s.setTail ring tail) :=
  .ite (.ite (hs.modSite _ (by rfl)) hs) (.ite (hs.setQp _ _) hs)

theorem Canonical.freeSlots (hs : Canonical s) (q head : Nat) : Canonical (s.freeSlots q head) :=
  .ite hs (.ite (hs.setQp _ _) (hs.setQp _ _))

theorem Canonical.enablePair (hs : Canonical s) (q : Nat) : Canonical (s.enablePair q) := State.memOk_enablePair hs q
theorem Canonical.disablePair (hs : Canonical s) (q : Nat) : Canonical (s.disablePair q) := hs.setQp _ _

theorem Canonical.writeCfg (hs : Canonical s) (q v : Nat) : Canonical (s.writeCfg q v) :=
  .ite ((Canonical.ite hs (hs.setQp _ _)).enablePair _) ((Canonical.ite hs (hs.setQp _ _)).disablePair _)

theorem Canonical.writeWin (hs : Canonical s) (i v : Nat) : Canonical (s.writeWin i v) := .ite hs (hs.modSite _ (by rfl))

theorem Canonical.doorbell (hs : Canonical s) (ring v : Nat) : Canonical (s.doorbell ring v) :=
  .ite ((Canonical.ite (hs.setTail _ _) hs).freeSlots _ _) (.ite (hs.setTail _ _) hs)

theorem Canonical.writeReg (hs : Canonical s) (off v : Nat) : Canonical (s.writeReg off v) :=
  .ite (.ite (hs.writeCfg _ _) (.ite (hs.setQp _ _) hs)) (.ite (hs.modSite _ (by rfl))
    (.ite (.ite (hs.doorbell _ _) hs) (.ite (hs.doorbell _ _) hs)))

theorem Canonical.writeUnit (hs : Canonical s) (off v : Nat) : Canonical (s.writeUnit off v) :=
  .ite (hs.writeWin _ _) ((hs.writeReg _ _).writeReg _ _)

theorem Canonical.hostWrite (hs : Canonical s) (offset : Nat) (data : List Byte) : Canonical (s.hostWrite offset data) :=
  .ite (hs.modSite _ (by rfl))
    (.ite (hs.modSite_cqMem _ (fun hm => memWf_memWrite hm _ _) (by rfl))
      (.ite (hs.modSite_rings _ (fun hm => memWf_memWrite hm _ _) (by rfl)) (hs.each _ fun _ _ ht => ht.writeUnit _ _)))

theorem Canonical.readQp (hs : Canonical s) (q o : Nat) : Canonical (s.readQp q o).2 := by
  unfold State.readQp
  split
  · exact hs
  · split
    · exact hs
    · split
      · exact hs.setQp _ _
      · exact hs

theorem Canonical.readReg (hs : Canonical s) (off : Nat) : Canonical (s.readReg off).2 := by
  unfold State.readReg
  split
  · exact hs.modSite _ (by rfl)
  · split
    · exact hs.modSite _ (by rfl)
    · split
      · exact hs.modSite _ (by rfl)
      · split
        · exact hs.modSite _ (by rfl)
        · split
          · exact hs.readQp _ _
          · split
            · exact hs
            · split
              · exact hs
              · split
                · exact hs
                · exact hs

theorem Canonical.readRegs (hs : Canonical s) (off n : Nat) : Canonical (s.readRegs off n).2 := by
  induction n generalizing s off with
  | zero => exact hs
  | succ n ih =>
    refine ih (s := (if s.dev.siteFatal && off != 0 then (0, s) else s.readReg off).2) ?_ _
    split
    · exact hs
    · exact hs.readReg _

theorem Canonical.readData (hs : Canonical s) (off n : Nat) : Canonical (s.readData off n).2 := by
  unfold State.readData
  split
  · exact hs.readRegs _ _
  · split
    · exact hs
    · exact hs

theorem Canonical.hostRead (hs : Canonical s) (off tag n : Nat) : Canonical (s.hostRead off tag n) := by
  unfold State.hostRead
  refine Canonical.modSite ?_ _ (by rfl)
  refine Canonical.emit ?_ _
  split
  · exact hs.readData _ _
  · split
    · exact hs
    · exact hs.take1

theorem Canonical.hostOp (hs : Canonical s) (a1 : HostOp) : Canonical (s.hostOp a1) := by
  unfold State.hostOp
  split
  · exact hs.hostRead _ _ _
  · exact .ite hs (hs.hostWrite _ _)
  · exact .ite hs (hs.setTail _ _)
  · exact .ite hs (hs.freeSlots _ _)
  · exact .ite hs (hs.enablePair _)
  · exact .ite hs (hs.disablePair _)

theorem Canonical.hostNext (hs : Canonical s) (o : HostOp) : Canonical (s.hostNext o) := (hs.modSite _ (by rfl)).hostOp _

theorem Canonical.hostRun (hs : Canonical s) (n : Nat) : Canonical (s.hostRun n) := by
  induction n generalizing s with
  | zero => exact hs
  | succ n ih =>
    unfold State.hostRun
    split
    · exact ih (hs.hostNext _)
    · exact hs

theorem Canonical.hostTake (hs : Canonical s) (h : SiteHdr) (o : HostOp) : Canonical (s.hostTake h o) :=
  .ite hs (.ite (((hs.flitOk _).hostNext _).hostRun _) (.ite (hs.flitOk _) ((hs.flitOk _).modSite _ (by rfl))))

theorem execSiteRegisterWrite_goes (x : SiteRef) (data : List Byte) (s : State) : Goes s (execSiteRegisterWrite x data s) :=
  .next fun hs => hs.hostTake _ _

theorem execDoorbellSqTail_goes (x : SiteRef) (tail : BitVec 9) (s : State) : Goes s (execDoorbellSqTail x tail s) :=
  .ite (.next id) (.next fun hs => hs.hostTake _ _)

theorem execDoorbellCqHead_goes (x : SiteRef) (head : BitVec 16) (s : State) : Goes s (execDoorbellCqHead x head s) :=
  .ite (.next id) (.next fun hs => hs.hostTake _ _)

theorem execQpEnable_goes (x : SiteRef) (s : State) : Goes s (execQpEnable x s) := .ite (.next id) (.next fun hs => hs.hostTake _ _)
theorem execQpDisable_goes (x : SiteRef) (s : State) : Goes s (execQpDisable x s) := .ite (.next id) (.next fun hs => hs.hostTake _ _)
theorem execRdyPendRead_goes (rd : SiteRead) (s : State) : Goes s (execRdyPendRead rd s) := .next fun hs => hs.hostTake _ _

theorem execCompletionSpillWrite_goes (qp : Nat) (s : State) : Goes s (execCompletionSpillWrite qp s) := by
  unfold execCompletionSpillWrite
  dsimp only
  refine .ite (.next id) ?_
  split
  · exact .next id
  · exact .ite (.next id) (.next fun hs => (hs.setQp _ _).writeEntry _ _)

theorem execUnknownCommandEntry_goes (sq : Nat) (typ : BitVec 8) (s : State) : Goes s (execUnknownCommandEntry sq typ s) := by
  unfold execUnknownCommandEntry
  refine .ite (.next id) ?_
  split
  · exact .ite (.next id) (.next fun hs => (hs.takeEntry _ _).cmdDone _ _ _ _ _ _ _ _)
  · exact .next id

/-! ### Upsets (16 R443, R475) -/

theorem Canonical.sramCe (hs : Canonical s) (row source unit addr : Nat) : Canonical (s.sramCe row source unit addr) :=
  (hs.count _ _ _ _).record _

theorem Canonical.sramUe (hs : Canonical s) (k : Nat) (c : Core) (source unit addr : Nat) : Canonical (s.sramUe k c source unit addr) :=
  ((hs.record _).coreFault _ _).dieFault _

theorem Canonical.sramUeAt (hs : Canonical s) (l : List Nat) (source unit addr : Nat) : Canonical (s.sramUeAt l source unit addr) := by
  unfold State.sramUeAt
  split
  · exact hs.sramUe _ _ _ _ _
  · exact hs

theorem Canonical.vocUe (hs : Canonical s) (i addr : Nat) : Canonical (s.vocUe i addr) := by
  unfold State.vocUe
  split
  · exact (hs.record _).modTxt _
  · exact hs

theorem Canonical.gramUe (hs : Canonical s) (i addr : Nat) : Canonical (s.gramUe i addr) := by
  unfold State.gramUe
  split
  · exact (hs.record _).modTxt _
  · exact hs

theorem Canonical.upsetAct (hs : Canonical s) (a1 : Upset) : Canonical (s.upsetAct a1) := by
  unfold State.upsetAct
  split
  · exact hs.modErr _
  · exact hs.hbmCe _
  · exact hs.sramCe _ _ _ _
  · exact hs.sramCe _ _ _ _
  · exact hs.sramCe _ _ _ _
  · exact hs.sramCe _ _ _ _
  · exact hs.sramUeAt _ _ _ _
  · exact hs.sramUeAt _ _ _ _
  · exact hs.sramUeAt _ _ _ _
  · exact .ite (hs.vocUe _ _) (hs.gramUe _ _)
  · exact hs.modSite _ (by rfl)
  · exact hs.fatal _ _ _ _
  · exact (hs.count _ _ _ _).record _
  · exact .ite (hs.fatal _ _ _ _) (hs.fatal _ _ _ _)
  · exact hs

theorem Canonical.upsets (hs : Canonical s) : Canonical s.upsets := by
  unfold State.upsets
  refine Canonical.modErr ?_ _
  refine Canonical.take1 ?_
  split
  · exact hs.upsetAct _
  · exact hs

theorem Canonical.rejectBad (hs : Canonical s) (sq : Nat) : Canonical (s.rejectBad sq) := by
  unfold State.rejectBad
  dsimp only
  refine .ite hs ?_
  split
  · exact ((hs.take1.takeEntry _ _).record _).stepEntry _ _ _ _ _ _ _ _ _
  · exact ((hs.take1.takeEntry _ _).record _).cmdDone _ _ _ _ _ _ _ _
  · exact ((hs.take1.takeEntry _ _).record _).cmdDone _ _ _ _ _ _ _ _

theorem Canonical.rejectsBad (hs : Canonical s) : Canonical s.rejectsBad := .ite hs (hs.each _ (fun _ _ ht => ht.rejectBad _))

/-! ### One cycle of NCLK -/

theorem Canonical.sendPosts (hs : Canonical s) : Canonical s.sendPosts := by
  unfold State.sendPosts
  refine hs.each _ fun _ _ ht => ?_
  split
  · exact ht
  · exact (ht.updStp _ _).sendPost _ _

theorem Canonical.pumpRings (hs : Canonical s) : Canonical s.pumpRings := hs.each _ (fun _ _ ht => (ht.ringPump _ _).finish _)
theorem Canonical.ceTrigger (hs : Canonical s) : Canonical s.ceTrigger := .ite ((hs.ckptWarn _).modErr _) hs
theorem Canonical.noteMovers (hs : Canonical s) : Canonical s.noteMovers := hs.modSes _ (by rfl)

theorem Canonical.fabricTick (hs : Canonical s) : Canonical s.fabricTick :=
  hs.inDrain.bulkDrain.dropLate.takeMgt.keyxOut.refreshPorts.idleFrames

theorem Canonical.parksPlaced (hs : Canonical s) : Canonical s.parksPlaced := hs.each _ (fun _ _ ht => ht.parkCheck _)
theorem Canonical.relands (hs : Canonical s) : Canonical s.relands := hs.each _ (fun _ _ ht => .ite (ht.requestPages _) ht)
theorem Canonical.lateDue (hs : Canonical s) : Canonical s.lateDue := .ite hs (((hs.modFab _).modBulk _).modSite _ (by rfl))

theorem Canonical.background (hs : Canonical s) : Canonical s.background := by
  have h1 : Canonical (if s.dev.nclk % 2 = 0 then (s.modRun fun g => { g with steps := tblMap g.steps fun _ p => s.cycleStep p }).endFailed
    else s) :=
    .ite (hs.modRun _).endFailed hs
  have h2 := h1.sendPosts.pumpRings.fabricTick.parksPlaced.relands.lateDue
  exact h2.noteMovers.laneTick.actStep.ceTrigger.rejectsBad.upsets

theorem Canonical.cycle (hs : Canonical s) : Canonical s.cycle :=
  .ite hs (.ite (((Canonical.ite (hs.modRun _) hs).modDev _).background) ((Canonical.ite (hs.modRun _) hs).modDev _))

end

/-! ### Every command -/

theorem exec_goes (i : Instr) (s : State) : Goes s (exec i s) := by
  cases i with
  -- an instruction that acts on its own core alone
  | nop | setp | addp | setc | ldc | setk | loop | brc | jmp | vec | cvt | dmaLs | dmaCs | apndArm | unlistedOpcode =>
    exact coreIsn_goes _ _ _ _
  -- an engine operation of a course
  | engMm | engAts | engAtv =>
    exact engRow_goes _ _ _ _ _ _
  -- a management command, the WRITE of one row
  | imgActivate | imgDiscard | imgCommit | mgmtStop | mgmtStart | mgmtService | mgmtLeaveService | ctxEnable | quoteNonce | joinOut
  | ckptCheckpoint | ckptRestore | ckptAbort | powerCapW | hostVset | fenceDie | fatalClear | deviceReset | plinthPartialReset
  | diePartialReset | portPartialReset =>
    exact write1_goes _ _ _ _ _ _
  -- every other row
  | endProg => exact execEndProg_goes _ _
  | strRd => exact execStrRd_goes _ _ _
  | strWr => exact execStrWr_goes _ _ _
  | strSpread => exact execStrSpread_goes _ _ _
  | strPage => exact execStrPage_goes _ _ _
  | streamRequestComplete => exact execStreamRequestComplete_goes _ _ _
  | put => exact execPut_goes _ _ _
  | addput => exact execAddput_goes _ _ _
  | signal => exact execSignal_goes _ _ _
  | messageDeliver => exact execMessageDeliver_goes _ _ _ _
  | signalApply => exact execSignalApply_goes _ _ _ _
  | wait => exact execWait_goes _ _ _
  | waitMet => exact execWaitMet_goes _ _
  | waitBoundExpiry => exact execWaitBoundExpiry_goes _ _
  | get => exact execGet_goes _ _ _
  | atom => exact execAtom_goes _ _ _
  | barrier => exact execBarrier_goes _ _
  | barrierRelease => exact execBarrierRelease_goes _ _
  | ppoint => exact execPpoint_goes _ _ _
  | ppointRelease => exact execPpointRelease_goes _ _
  | courseRealign => exact execCourseRealign_goes _ _
  | apndWrite => exact execApndWrite_goes _ _ _
  | post => exact execPost_goes _ _ _
  | wcetOverrun => exact execWcetOverrun_goes _ _
  | stepDeadline => exact execStepDeadline_goes _ _
  | streamStall => exact execStreamStall_goes _ _
  | ppGapExpiry => exact execPpGapExpiry_goes _ _
  | stepDescriptor => exact execStepDescriptor_goes _ _ _
  | stepDispatch => exact execStepDispatch_goes _ _
  | courseRestoreDone => exact execCourseRestoreDone_goes _ _
  | periodicRelease => exact execPeriodicRelease_goes _ _ _
  | tokenRefill => exact execTokenRefill_goes _
  | keystoneArm => exact execKeystoneArm_goes _ _ _ _
  | keystoneDisarm => exact execKeystoneDisarm_goes _ _ _
  | keystoneArmExpiry => exact execKeystoneArmExpiry_goes _ _
  | sessionCreate => exact execSessionCreate_goes _ _ _ _ _ _ _
  | sessionDrop => exact execSessionDrop_goes _ _ _ _
  | sessionTruncate => exact execSessionTruncate_goes _ _ _ _ _
  | sessionRelease => exact execSessionRelease_goes _ _ _ _
  | sessionPin => exact execSessionPin_goes _ _ _ _ _ _ _
  | sessionQuery => exact execSessionQuery_goes _ _ _ _ _
  | bindInstall => exact execBindInstall_goes _ _ _ _ _
  | bindRemove => exact execBindRemove_goes _ _ _ _
  | adapterInstall => exact execAdapterInstall_goes _ _ _ _ _
  | adapterRemove => exact execAdapterRemove_goes _ _ _ _
  | park => exact execPark_goes _ _ _ _ _ _ _ _ _ _
  | parkPendStart => exact execParkPendStart_goes _ _
  | revive => exact execRevive_goes _ _ _ _ _
  | reviveHint => exact execReviveHint_goes _ _ _ _ _
  | hintLapse => exact execHintLapse_goes _ _
  | ttlSet => exact execTtlSet_goes _ _ _ _ _ _
  | ttlExpiry => exact execTtlExpiry_goes _ _
  | pageMoverStart => exact execPageMoverStart_goes _ _ _
  | pageLand => exact execPageLand_goes _ _
  | migrate => exact execMigrate_goes _ _ _ _ _ _
  | migrateIn => exact execMigrateIn_goes _ _ _ _ _ _ _
  | migrateInCancel => exact execMigrateInCancel_goes _ _ _ _ _ _ _
  | offer => exact execOffer_goes _ _
  | accept => exact execAccept_goes _ _
  | refuse => exact execRefuse_goes _ _ _
  | ready => exact execReady_goes _ _
  | release => exact execRelease_goes _ _
  | abort => exact execAbort_goes _ _
  | migrateReadyTimeout => exact execMigrateReadyTimeout_goes _ _
  | migratePeerTimeout => exact execMigratePeerTimeout_goes _ _
  | leaseSet => exact execLeaseSet_goes _ _ _ _ _ _
  | leaseClear => exact execLeaseClear_goes _ _ _ _
  | leaseLost => exact execLeaseLost_goes _ _ _ _
  | lossSweep => exact execLossSweep_goes _ _
  | frameScrub => exact execFrameScrub_goes _ _
  | patrolRead => exact execPatrolRead_goes _ _ _
  | vocabLoad => exact execVocabLoad_goes _ _ _ _ _ _
  | vocabRemove => exact execVocabRemove_goes _ _ _ _
  | stopsetSet => exact execStopsetSet_goes _ _ _ _ _ _ _
  | streamOpen => exact execStreamOpen_goes _ _ _ _ _ _ _ _
  | streamClose => exact execStreamClose_goes _ _ _ _
  | tokenize => exact execTokenize_goes _ _ _ _ _ _ _ _ _
  | tokenizeDone => exact execTokenizeDone_goes _ _
  | tokenEvent => exact execTokenEvent_goes _ _
  | grammarLoad => exact execGrammarLoad_goes _ _ _ _ _
  | grammarRemove => exact execGrammarRemove_goes _ _ _ _
  | grammarBind => exact execGrammarBind_goes _ _ _ _ _ _ _
  | grammarUnbind => exact execGrammarUnbind_goes _ _ _ _
  | regionSet => exact execRegionSet_goes _ _ _ _ _
  | regionClear => exact execRegionClear_goes _ _ _ _
  | regionClearDone => exact execRegionClearDone_goes _ _
  | linkFrameReceive => exact execLinkFrameReceive_goes _ _ _
  | lineRequestSend => exact execLineRequestSend_goes _ _
  | lineRequestReceive => exact execLineRequestReceive_goes _ _ _
  | lineResponseReceive => exact execLineResponseReceive_goes _ _ _
  | lineTimeout => exact execLineTimeout_goes _ _
  | epochWaitReplay => exact execEpochWaitReplay_goes _ _
  | gatewayBusyReplay => exact execGatewayBusyReplay_goes _ _
  | portBringup => exact execPortBringup_goes _ _ _
  | mapBegin => exact execMapBegin_goes _ _ _ _ _
  | mapData => exact execMapData_goes _ _ _
  | mapCommit => exact execMapCommit_goes _ _ _
  | mapAckSend => exact execMapAckSend_goes _
  | ckptNotice => exact execCkptNotice_goes _
  | bulkPacketSend => exact execBulkPacketSend_goes _ _
  | bulkPacketReceive => exact execBulkPacketReceive_goes _ _ _
  | bulkAckReceive => exact execBulkAckReceive_goes _ _ _
  | flushSend => exact execFlushSend_goes _ _
  | placedSend => exact execPlacedSend_goes _ _
  | bulkPlacedReceive => exact execBulkPlacedReceive_goes _ _ _
  | bulkRetxTimeout => exact execBulkRetxTimeout_goes _ _ _ _
  | bulkMessageHorizon => exact execBulkMessageHorizon_goes _ _ _
  | getDataSend => exact execGetDataSend_goes _ _ _
  | getTimeout => exact execGetTimeout_goes _ _ _
  | lwRecordDiscard => exact execLwRecordDiscard_goes _ _
  | gatewayRelay => exact execGatewayRelay_goes _ _ _ _
  | gatewayRelayDrop => exact execGatewayRelayDrop_goes _ _ _
  | gwBatchClose => exact execGwBatchClose_goes _ _
  | keyxReceive => exact execKeyxReceive_goes _ _ _
  | quarantineEnd => exact execQuarantineEnd_goes _ _ _
  | ringBufferRelease => exact execRingBufferRelease_goes _ _
  | siteLinkBringup => exact execSiteLinkBringup_goes _ _
  | siteBringupRetry => exact execSiteBringupRetry_goes _
  | ucieFlitReplay => exact execUcieFlitReplay_goes _ _
  | siteRegisterWrite => exact execSiteRegisterWrite_goes _ _ _
  | doorbellSqTail => exact execDoorbellSqTail_goes _ _ _
  | doorbellCqHead => exact execDoorbellCqHead_goes _ _ _
  | qpEnable => exact execQpEnable_goes _ _
  | qpDisable => exact execQpDisable_goes _ _
  | rdyPendRead => exact execRdyPendRead_goes _ _
  | completionSpillWrite => exact execCompletionSpillWrite_goes _ _
  | ident => exact execIdent_goes _ _
  | read => exact execRead_goes _ _ _
  | write => exact execWrite_goes _ _ _
  | claim => exact execClaim_goes _ _ _
  | imgData => exact execImgData_goes _ _ _ _ _
  | imageVerified => exact execImageVerified_goes _ _
  | activationDone => exact execActivationDone_goes _
  | activationDrainExpiry => exact execActivationDrainExpiry_goes _
  | cutInstant => exact execCutInstant_goes _ _
  | ckptHoldExpiry => exact execCkptHoldExpiry_goes _ _
  | cutComplete => exact execCutComplete_goes _ _
  | cbwRelease => exact execCbwRelease_goes _ _ _
  | plinthResetEnding => exact execPlinthResetEnding_goes _
  | plinthResetPhase3 => exact execPlinthResetPhase3_goes _
  | plinthResetRelease => exact execPlinthResetRelease_goes _
  | dieResetRelease => exact execDieResetRelease_goes _ _
  | dieResetTimeout => exact execDieResetTimeout_goes _ _
  | powerOn => exact execPowerOn_goes _ _ _ _ _
  | startUpComplete => exact execStartUpComplete_goes _ _ _
  | supplyLevelChange => exact execSupplyLevelChange_goes _ _
  | supplyWarningClear => exact execSupplyWarningClear_goes _
  | hostRailFault => exact execHostRailFault_goes _
  | sensorRead => exact execSensorRead_goes _ _
  | rootLockLoss => exact execRootLockLoss_goes _
  | rstNAssert => exact execRstNAssert_goes _
  | rstNRelease => exact execRstNRelease_goes _
  | serviceDegradedClear => exact execServiceDegradedClear_goes _
  | unknownCommandEntry => exact execUnknownCommandEntry_goes _ _ _
  | portLaneLoss => exact execPortLaneLoss_goes _ _ _
  | portTrainingDone => exact execPortTrainingDone_goes _ _ _
  | ucieRetrainDone => exact execUcieRetrainDone_goes _ _ _
  | memoryIslandFailure => exact execMemoryIslandFailure_goes _ _
  | dieSequencerOrRailFault => exact execDieSequencerOrRailFault_goes _ _ _

/-- What a step of the machine does keeps canonical memories canonical, whatever the machine holds. -/
theorem Canonical.step_next {s t : State} (hs : Canonical s) (ht : step s = .next t) : Canonical t := by
  unfold step at ht
  split at ht
  · cases ht
    exact hs.cycle
  next c l _ =>
    obtain ⟨u, hu, hcan⟩ := exec_goes c (s.withPending l)
    cases hu.symm.trans ht
    exact hcan (hs.withPending l)

/-- Settles O59: a cycle keeps the memories canonical, and so does every command. -/
theorem memoryStaysCanonical : Obligations.MemoryStaysCanonical := by
  unfold Obligations.MemoryStaysCanonical
  exact fun _ _ hs ht => Canonical.step_next hs ht

/-- Settles O3: every row of the instruction table goes on. -/
theorem everyCommandGoesOn : Obligations.EveryCommandGoesOn := by
  unfold Obligations.EveryCommandGoesOn
  intro i s
  obtain ⟨t, ht, _⟩ := exec_goes i s
  exact ⟨t, ht⟩

end Sys2Proof.Machine

/-! PROOFS. The phases of partial resets (15 R424, R425; 16 R450). -/

namespace Sys2Proof.Machine

/-! ### The plinth (15 R424) -/

section
variable {s : State}

theorem exec_plinthResetEnding {x : Nat} {act : Bool} (hl : s.live = true) (hp : s.dev.plinth = .quiesce x act) :
    exec .plinthResetEnding s = .next (if (!s.anyRuns || decide (x + s.obj 0x2100 3 * ticksPerUs ≤ s.tick)) = true
      then s.plinthEnd.modDev fun d => { d with plinth := .ending s.tick act } else s) := by
  show execPlinthResetEnding s = _
  simp only [execPlinthResetEnding, hp, hl, Bool.true_and]
  split <;> rfl

/-- The loss of the spills shows in the counters alone. -/
theorem State.loseSpills_step (s : State) : ∃ m, s.loseSpills = { s with mg := m } := by
  unfold State.loseSpills
  generalize List.range 64 = l
  induction l generalizing s with
  | nil => exact ⟨s.mg, rfl⟩
  | cons q l ih =>
    rw [List.foldl_cons]
    split
    · exact ih s
    · obtain ⟨m, hm⟩ := ih (s.count 0x9000 5 q (s.qp q).spill.length)
      exact ⟨m, hm⟩

theorem exec_plinthResetPhase3 {x : Nat} {act : Bool} (hl : s.live = true) (hp : s.dev.plinth = .ending x act)
    (hgo : (∀ p ∈ s.site.qps, p.spill = []) ∨ x + 100 * ticksPerUs ≤ s.tick) :
    exec .plinthResetPhase3 s = .next (s.plinthUnits.modDev fun d => { d with plinth := .reset s.tick act }) := by
  have hc : (s.site.qps.all (fun p => p.spill.isEmpty) || decide (x + 100 * ticksPerUs ≤ s.tick)) = true := by
    simpa using hgo
  show execPlinthResetPhase3 s = _
  simp only [execPlinthResetPhase3, hp, hl, hc, Bool.true_and, if_true]

theorem exec_plinthResetRelease {x : Nat} {act : Bool} (hl : s.live = true) (hp : s.dev.plinth = .reset x act) :
    exec .plinthResetRelease s = .next (((s.modDev fun d => { d with plinth := .none }).modSite fun g =>
      { g with resetting := false }).domEnd domPlinth) := by
  show execPlinthResetRelease s = _
  simp only [execPlinthResetRelease, hp, hl, Bool.not_true, Bool.false_eq_true, if_false]

/-! ### The dies (15 R425; 16 R450) -/

theorem exec_dieResetRelease {die : Nat} (hd : die < 4) (hl : s.live = true) (hr : s.dieInReset die = true) :
    exec (.dieResetRelease die) s = .next ((s.modDev fun d =>
      { d with dies := d.dies.set die { d.dies.getD die ⟨none, false⟩ with resetAt := none } }).domEnd (domDie die)) := by
  show execDieResetRelease die s = _
  simp only [execDieResetRelease, if_neg (Nat.not_le.2 hd), hl, hr, Bool.not_true, Bool.or_self, Bool.false_eq_true, if_false]

theorem exec_dieResetTimeout {die x : Nat} (hd : die < 4) (hl : s.live = true)
    (hat : (s.dev.dies[die]?).bind (·.resetAt) = some x) (hx : x + 3125000 ≤ s.tick) :
    exec (.dieResetTimeout die) s = .next (s.fenceAuto die) := by
  have hat' : (s.dev.dies.getD die ⟨none, false⟩).resetAt = some x := by
    rw [List.getD_eq_getElem?_getD]
    cases h : s.dev.dies[die]? with
    | none => rw [h] at hat; cases hat
    | some c => rw [h] at hat; exact hat
  have ht : decide (x + 5 * ticksPerMs ≤ s.tick) = true := decide_eq_true hx
  show execDieResetTimeout die s = _
  simp only [execDieResetTimeout, if_neg (Nat.not_le.2 hd), hat', hl, ht, Bool.and_self, if_true]

end

/-- Settles O57: each phase by its rule. -/
theorem resetPhases : Obligations.ResetPhases := by
  unfold Obligations.ResetPhases
  intro s hl
  refine ⟨fun x act hp hgo => ?_, fun x act hp hruns hx => ?_, fun x act hp hgo => ?_, fun x act hp => ?_, fun die hd hr hlen => ?_,
    fun die x hd => exec_dieResetTimeout hd hl⟩
  · have hgo' : s.anyRuns = false ∨ x + s.obj 0x2100 3 * ticksPerUs ≤ s.tick := hgo
    rw [exec_plinthResetEnding hl hp, if_pos (by simpa using hgo')]
  · have hx' : s.tick < x + s.obj 0x2100 3 * ticksPerUs := hx
    rw [exec_plinthResetEnding hl hp, if_neg (by simpa [hruns] using hx')]
  · refine ⟨_, exec_plinthResetPhase3 hl hp hgo, rfl, fun p hmem => List.eq_of_mem_replicate hmem, rfl, ?_⟩
    obtain ⟨m, hm⟩ := s.loseSpills_step
    simp [State.plinthUnits, hm]
  · exact ⟨_, exec_plinthResetRelease hl hp, rfl, rfl, rfl, rfl⟩
  · refine ⟨_, exec_dieResetRelease hd hl hr, ?_, rfl, fun d hne => ?_⟩
    · simp [State.dieInReset, State.domEnd, hlen, hd]
    · simp [State.dieInReset, State.domEnd, List.getElem?_set_ne (Ne.symm hne)]

end Sys2Proof.Machine

/-! PROOFS. Supply, sensors, clocks, the reset contact and units that fail (12 R360; 15 R415, R418, R420, R427-R429; 16 R449, R450;
17 R470): what start-up keeps, what a warning writes, and a rule for each row. -/

namespace Sys2Proof.Machine

/-! ### Records of one unit (16 R440): what they leave alone -/

section
variable {s : State} {e : ErrIn} (he : e.shared = false)
include he

/-- A record that raises no service degraded writes counters and the log. -/
theorem State.record_retired : (s.record e).err.retired = s.err.retired := by
  unfold State.record
  dsimp only
  rw [if_neg (by simp [he])]
  split
  · rfl
  · split <;> rfl

/-- It counts in the objects of the log alone. -/
theorem State.record_obj {ix sub row col : Nat} (hix : ix < 0x9000) (hsub : sub < 256) (hrow : row < 65536) (hcol : col < 16) :
    (s.record e).obj ix sub row col = s.obj ix sub row col := by
  have h2 : okey ix sub row col ≠ okey 0x9002 1 e.sev 0 := by unfold okey; omega
  have h0 : okey ix sub row col ≠ okey 0x9000 4 0 0 := by unfold okey; omega
  unfold State.record
  dsimp only
  rw [if_neg (by simp [he])]
  split
  · exact State.obj_count_of_ne _ _ _ _ _ h2
  · split
    · exact (State.obj_count_of_ne _ _ _ _ _ h0).trans (State.obj_count_of_ne _ _ _ _ _ h2)
    · exact State.obj_count_of_ne _ _ _ _ _ h2

theorem State.record_tblWf (hw : tblWf s.mg.objs = true) : tblWf (s.record e).mg.objs = true := by
  have h1 : tblWf (s.count 0x9002 1 e.sev).mg.objs = true := State.tblWf_setObj hw _ _ _ _ _
  unfold State.record
  dsimp only
  rw [if_neg (by simp [he])]
  split
  · exact h1
  · split
    · exact State.tblWf_setObj h1 _ _ _ _ _
    · exact h1

end

/-! ### The rows of the start-up sequence (14 R405; 15 R427) -/

/-- What the boot and the start-up rows leave alone: waiting commands, sessions, retired slabs, the clock, the supply's level, the boot epoch
and the reset contact. -/
structure BootKeeps (s t : State) : Prop where
  pending : t.pending = s.pending
  ses : t.ses = s.ses
  retired : t.err.retired = s.err.retired
  locked : t.dev.locked = s.dev.locked
  nclk : t.dev.nclk = s.dev.nclk
  vin : t.dev.vin = s.dev.vin
  bootEpoch : t.dev.bootEpoch = s.dev.bootEpoch
  rstHeld : t.dev.rstHeld = s.dev.rstHeld

namespace BootKeeps
variable {s t u : State}

theorem refl (s : State) : BootKeeps s s := ⟨rfl, rfl, rfl, rfl, rfl, rfl, rfl, rfl⟩

theorem trans (h : BootKeeps s t) (h2 : BootKeeps t u) : BootKeeps s u :=
  ⟨h2.pending.trans h.pending, h2.ses.trans h.ses, h2.retired.trans h.retired, h2.locked.trans h.locked, h2.nclk.trans h.nclk,
    h2.vin.trans h.vin, h2.bootEpoch.trans h.bootEpoch, h2.rstHeld.trans h.rstHeld⟩

theorem modMg (h : BootKeeps s t) (f : Mgs → Mgs) : BootKeeps s (t.modMg f) := { h with }
theorem modSec (h : BootKeeps s t) (f : Sec → Sec) : BootKeeps s (t.modSec f) := { h with }
theorem modSite (h : BootKeeps s t) (f : Site → Site) : BootKeeps s (t.modSite f) := { h with }
theorem modFab (h : BootKeeps s t) (f : Fab → Fab) : BootKeeps s (t.modFab f) := { h with }
theorem take1 (h : BootKeeps s t) : BootKeeps s t.take1.2 := { h with }
theorem count (h : BootKeeps s t) (ix sub row n : Nat) : BootKeeps s (t.count ix sub row n) := { h with }
theorem runSet (h : BootKeeps s t) (b : List Bool) : BootKeeps s (t.runSet b) := { h with }

/-- Power, mode, rails and the FATAL flag may change. -/
theorem modDev (h : BootKeeps s t) (f : Dev → Dev) (hlocked : (f t.dev).locked = t.dev.locked) (hnclk : (f t.dev).nclk = t.dev.nclk)
    (hvin : (f t.dev).vin = t.dev.vin) (hepoch : (f t.dev).bootEpoch = t.dev.bootEpoch)
    (hheld : (f t.dev).rstHeld = t.dev.rstHeld) : BootKeeps s (t.modDev f) :=
  { h with
    locked := hlocked.trans h.locked, nclk := hnclk.trans h.nclk, vin := hvin.trans h.vin, bootEpoch := hepoch.trans h.bootEpoch
    rstHeld := hheld.trans h.rstHeld }

theorem record (h : BootKeeps s t) {e : ErrIn} (he : e.shared = false) : BootKeeps s (t.record e) := by
  have hd : (t.record e).dev = t.dev := State.record_dev t e
  exact h.trans ⟨t.record_pending e, t.record_ses e, State.record_retired he, by rw [hd], by rw [hd], by rw [hd], by rw [hd], by rw [hd]⟩

theorem fatal (h : BootKeeps s t) (code source unit addr : Nat) : BootKeeps s (t.fatal code source unit addr) := by
  unfold State.fatal
  split
  · exact h.record rfl
  · exact (h.record rfl).modDev _ rfl rfl rfl rfl rfl

theorem bootRecord (h : BootKeeps s t) : BootKeeps s t.bootRecord := (h.record rfl).count _ _ _ _

theorem bootSet (h : BootKeeps s t) (b : List Bool) : BootKeeps s (t.bootSet b) := by
  unfold State.bootSet
  split
  · exact h.runSet _
  · dsimp only
    split
    · exact h.bootRecord.runSet _
    · exact (h.bootRecord.modMg _).fatal _ _ _ _

theorem boot (h : BootKeeps s t) : BootKeeps s t.boot := by
  unfold State.boot
  dsimp only
  split
  · exact ((h.modMg _).bootRecord.modMg _).bootSet _
  · exact ((h.modMg _).modMg _).bootSet _

theorem bootRows (h : BootKeeps s t) : BootKeeps s t.bootRows := by
  unfold State.bootRows
  extract_lets a s1 plinth host s2
  have h1 : BootKeeps s s1 := (h.take1.modSec _).boot
  split
  · exact h1.modDev _ rfl rfl rfl rfl rfl
  · exact ((h1.modDev _ rfl rfl rfl rfl rfl).modSite _).modFab _

theorem afterLock (h : BootKeeps s t) : BootKeeps s t.afterLock := by
  unfold State.afterLock
  split
  · exact h
  · exact h.bootRows

end BootKeeps

theorem State.afterLock_held {s : State} (h : s.dev.rstHeld = true) : s.afterLock = s := if_pos h

/-! ### Warning triggers (13 R371) -/

theorem State.takeSlots_kept {s t : State} {ctx lease : Nat} {k : Ckpt} (h : s.takeSlots ctx lease k = some t) :
    t.dev = s.dev ∧ t.mg = s.mg := by
  unfold State.takeSlots at h
  split at h
  · cases h; exact ⟨rfl, rfl⟩
  · split at h
    · cases h
    · split at h
      · cases h
      · cases h
        split <;> exact ⟨rfl, rfl⟩

/-- A trigger that passes its checks takes frames of the lease and holds the context. -/
theorem State.ckptStart_kept {s t : State} {ctx trig : Nat} (h : s.ckptStart ctx trig = .ok t) : t.dev = s.dev ∧ t.mg = s.mg := by
  unfold State.ckptStart at h
  dsimp only at h
  split at h
  · cases h
  · split at h
    · cases h
    · split at h
      · cases h
      next u hu =>
        split at h
        · cases h
        · cases h
          obtain ⟨hdev, hmg⟩ := State.takeSlots_kept hu
          exact ⟨hdev, hmg⟩

/-- Triggers count in the objects of the checkpoints alone. -/
structure CkptStep (s t : State) : Prop where
  dev : t.dev = s.dev
  obj : ∀ {ix sub row col}, ix < 0x8000 → sub < 256 → row < 65536 → col < 16 → t.obj ix sub row col = s.obj ix sub row col

theorem CkptStep.setObj {s t : State} (h : CkptStep s t) {ix sub row v : Nat} (hix : 0x8000 ≤ ix) : CkptStep s (t.setObj ix sub row 0 v) :=
  ⟨h.dev, fun hix2 hsub hrow hcol => (State.obj_setObj_of_ne _ _ _ _ _ _ (by unfold okey; omega)).trans (h.obj hix2 hsub hrow hcol)⟩

theorem State.ckptWarn_step (s : State) (trig : Nat) : CkptStep s (s.ckptWarn trig) := by
  unfold State.ckptWarn State.each
  refine List.foldlRecOn _ _ (motive := CkptStep s) ⟨rfl, fun _ _ _ _ => rfl⟩ fun t ht c _ => ?_
  split
  · exact ht.setObj (by decide)
  · split
    next u hu =>
      obtain ⟨hdev, hmg⟩ := State.ckptStart_kept hu
      refine CkptStep.setObj ⟨hdev.trans ht.dev, fun h1 h2 h3 h4 => Eq.trans ?_ (ht.obj h1 h2 h3 h4)⟩ (by decide)
      unfold State.obj
      rw [hmg]
    · exact ht.setObj (by decide)

theorem State.warn_step (s : State) (trig : Nat) : CkptStep s (s.warn trig) := by
  unfold State.warn
  split
  · exact s.ckptWarn_step trig
  · exact ⟨rfl, fun _ _ _ _ => rfl⟩

/-- A warning that is recorded and counted, and triggers checkpoints. -/
theorem State.recordWarning {s : State} {e : ErrIn} (he : e.shared = false) (hw : tblWf s.mg.objs = true) (trig : Nat) :
    let t := ((s.record e).count 0x2003 1).warn trig
    t.dev = s.dev ∧ t.obj 0x2003 1 = (s.obj 0x2003 1 + 1) % 2 ^ 64 := by
  have hstep := State.warn_step ((s.record e).count 0x2003 1) trig
  refine ⟨hstep.dev.trans (State.record_dev s e), ?_⟩
  rw [hstep.obj (by decide) (by decide) (by decide) (by decide), State.obj_count_self (State.record_tblWf he hw),
    State.record_obj he (by decide) (by decide) (by decide) (by decide)]
  rfl

/-! ### The supply (15 R415, R418, R427) -/

section
variable {s : State}

theorem exec_powerOn {mv : Nat} (phy rst : Bool) (hp : s.powered = false) (hlo : 57000 ≤ mv) (hhi : mv ≤ 63000) :
    exec (.powerOn mv phy false rst) s = .next (((s.rootLocked.take1.2.modSec fun g =>
      { g with devKey := Config.fresh s.rootLocked.take1.1 % 2 ^ 512 }).modDev fun d =>
        { d with vin := mv, phy := b2n phy, rstHeld := rst, cold := true }).afterLock) := by
  have hw : inWindow mv = true := by simp [inWindow, hlo, hhi]
  show execPowerOn mv phy false rst s = _
  simp only [execPowerOn, hp, hw, Bool.not_true, Bool.or_self, Bool.false_eq_true, if_false]

theorem exec_supplyLevelChange_critical {mv : Nat} (hp : s.powered = true) (h : mv < 52000 ∨ 66000 < mv) :
    exec (.supplyLevelChange mv) s = .next ((s.modDev fun d => { d with vin := mv }).fatal 0x0013 0x0B 0xFFFF 0).powerDown := by
  have hout : outOfRange mv = true := by simpa [outOfRange] using h
  show execSupplyLevelChange mv s = _
  simp only [execSupplyLevelChange, hp, hout, Bool.not_true, Bool.false_eq_true, if_false, if_true]

theorem exec_supplyLevelChange_inWindow {mv : Nat} (hp : s.powered = true) (hlo : 57000 ≤ mv) (hhi : mv ≤ 63000)
    (hw : s.dev.supplyWarn = false) :
    exec (.supplyLevelChange mv) s = .next (s.modDev fun d => { d with vin := mv, supplyOk := none }) := by
  have hout : outOfRange mv = false := by simp [outOfRange]; omega
  have hin : inWindow mv = true := by simp [inWindow, hlo, hhi]
  show execSupplyLevelChange mv s = _
  simp only [execSupplyLevelChange, hp, hout, hin, Bool.not_true, Bool.false_eq_true, if_false, if_true]
  simp [State.modDev, hw]

/-- A level between a limit and the window raises the warning. -/
theorem exec_supplyLevelChange_warns {mv : Nat} (hp : s.powered = true) (hlo : 52000 ≤ mv) (hhi : mv < 57000)
    (hw : s.dev.supplyWarn = false) :
    exec (.supplyLevelChange mv) s = .next (((((s.modDev fun d => { d with vin := mv }).modDev fun d =>
      { d with supplyWarn := true, supplyOk := none }).record { sev := 0, code := 0x0012, source := 0x0B, unit := 0xFFFF }).count
        0x2003 1).warn 3) := by
  have hout : outOfRange mv = false := by simp [outOfRange]; omega
  have hin : inWindow mv = false := by simp [inWindow]; omega
  show execSupplyLevelChange mv s = _
  simp only [execSupplyLevelChange, hp, hout, hin, hw, Bool.not_true, Bool.false_eq_true, if_false]

theorem exec_supplyWarningClear {x : Nat} (hp : s.powered = true) (hok : s.dev.supplyOk = some x) (hx : x + 10 * ticksPerMs ≤ s.tick) :
    exec .supplyWarningClear s = .next (s.modDev fun d => { d with supplyWarn := false, supplyOk := none }) := by
  show execSupplyWarningClear s = _
  simp only [execSupplyWarningClear, hok, hp, decide_eq_true hx, Bool.and_self, if_true]

theorem exec_hostRailFault (hp : s.powered = true) (hr : s.dev.hostRail = 2) :
    exec .hostRailFault s = .next (((s.record { sev := 1, code := 0x0012, source := 0x0B, unit := 20 }).count 0x2001 3).hostOff 3) := by
  show execHostRailFault s = _
  simp only [execHostRailFault, hp, hr]
  rfl

/-! ### Start-up, clocks and the reset contact (15 R420, R428; 17 R470) -/

theorem exec_startUpComplete (hp : s.dev.power = .starting) (hl : s.live = true) (hr : s.dev.rstHeld = false) (hm : s.dev.mgmt = 0) :
    exec (.startUpComplete [] none) s = .next ((s.take1.2.modDev fun d =>
      { d with hbmSt := List.replicate 12 1, trainUs := s.take1.1 }).modDev fun d =>
        { d with power := .up, mgmt := if s.mg.untested then 3 else 1
                 rails := d.rails.mapIdx fun i v => if 4 ≤ i ∧ i < 8 then 2 else v }) := by
  show execStartUpComplete [] none s = _
  simp only [execStartUpComplete, hp, hl, hr, hm]
  rfl

theorem exec_rootLockLoss (hp : s.powered = true) (hk : s.dev.locked = true) :
    exec .rootLockLoss s = .next ((s.fatal 0x0013 0x0B 0xFFFF 0).modDev fun d => { d with locked := false }) := by
  show execRootLockLoss s = _
  simp only [execRootLockLoss, hp, hk, Bool.not_true, Bool.or_self, Bool.false_eq_true, if_false]

theorem exec_rstNAssert_held (hr : s.dev.rstHeld = true) : exec .rstNAssert s = .next s := by
  show execRstNAssert s = _
  simp only [execRstNAssert, hr, Bool.or_true, if_true]

/-- A device reset while the contact is held stops at root lock. -/
theorem State.resetDevice_held (h : s.dev.rstHeld = true) :
    s.resetDevice.dev.rstHeld = true ∧ s.resetDevice.dev.nclk = 0 ∧ s.resetDevice.dev.mgmt = 0 ∧ s.resetDevice.ses = State.reset.ses
      ∧ s.resetDevice.run = State.reset.run ∧ s.resetDevice.dev.bootEpoch = (s.dev.bootEpoch + 1) % 65536 := by
  have hlock : ∃ t : State, s.resetDevice = t.afterLock ∧ t.dev.rstHeld = s.dev.rstHeld ∧ t.dev.nclk = 0 ∧ t.dev.mgmt = 0
      ∧ t.ses = State.reset.ses ∧ t.run = State.reset.run ∧ t.dev.bootEpoch = (s.dev.bootEpoch + 1) % 65536 :=
    ⟨_, rfl, rfl, rfl, rfl, rfl, rfl, rfl⟩
  obtain ⟨t, ht, hheld, hrest⟩ := hlock
  rw [ht, State.afterLock_held (hheld.trans h)]
  exact ⟨hheld.trans h, hrest⟩

/-- A contact that goes low resets the device, and makes no second reset in the cycle in which the root locked. -/
theorem exec_rstNAssert (hp : s.powered = true) (hr : s.dev.rstHeld = false) :
    exec .rstNAssert s = .next (if s.dev.power = .starting ∧ s.dev.nclk = 0 then
      (((s.modDev fun d => { d with rstHeld := true, bootEpoch := (d.bootEpoch + 65535) % 65536 }).modMg fun g =>
        { g with boot := g.bootWas }).modErr fun g => { g with fatal := s.mg.fatalWas }).resetDevice.setObj 0x2100 4 0 0 (s.obj 0x2100 4 0)
      else (s.modDev fun d => { d with rstHeld := true }).resetDevice) := by
  show execRstNAssert s = _
  simp only [execRstNAssert, hp, hr, Bool.not_true, Bool.or_self, Bool.false_eq_true, if_false, Bool.and_eq_true, beq_iff_eq]
  split <;> rfl

theorem exec_rstNRelease (hp : s.powered = true) (hr : s.dev.rstHeld = true) :
    exec .rstNRelease s = .next (s.modDev fun d => { d with rstHeld := false }).bootRows := by
  show execRstNRelease s = _
  simp only [execRstNRelease, hp, hr, Bool.not_true, Bool.or_self, Bool.false_eq_true, if_false]

/-! ### Sensors and units that fail (12 R360; 15 R429; 16 R449, R450) -/

theorem exec_sensorRead {temps : List Int} (ht : temps.length = 17) (hp : s.powered = true) (hk : s.dev.locked = true) :
    exec (.sensorRead temps) s = .next (temps.zipIdx.foldl (fun t e => t.sensor e.2 e.1) s) := by
  show execSensorRead temps s = _
  simp only [execSensorRead, ht, hp, hk, ne_eq, not_true_eq_false, decide_false, Bool.not_true, Bool.or_self, Bool.false_eq_true, if_false]

/-- A reading below every threshold of its row sets no flag. -/
theorem State.sensor_below {i : Nat} {x : Int} (hw : s.dev.warned[i]? = some false) (hh : s.dev.throttled[i]? = some false)
    (hx : x < 100 * (s.limits i).1) (h1 : (s.limits i).1 ≤ (s.limits i).2.1) (h2 : (s.limits i).1 ≤ (s.limits i).2.2) :
    s.sensor i x = s.modDev fun d => { d with temps := d.temps.set i x } := by
  have hlw : latch (s.dev.warned.getD i false) x (s.limits i).1 = false := by simp [latch, hw]; omega
  have hlh : latch (s.dev.throttled.getD i false) x (s.limits i).2.1 = false := by simp [latch, hh]; omega
  have hset (l : List Bool) (hl : l[i]? = some false) : l.set i false = l := by
    obtain ⟨hi, hv⟩ := List.getElem?_eq_some_iff.1 hl
    rw [← hv, List.set_getElem_self]
  unfold State.sensor
  simp only [hlw, hlh, Bool.false_and, Bool.false_eq_true, if_false, if_neg (show ¬100 * (s.limits i).2.2 ≤ x by omega)]
  simp only [State.modDev, hset _ hw, hset _ hh]

theorem exec_serviceDegradedClear {x : Nat} (hl : s.live = true) (hd : s.err.degraded = some x) (hx : x ≤ s.tick) :
    exec .serviceDegradedClear s = .next ((s.modErr fun g => { g with degraded := none }).tellDegraded 0) := by
  show execServiceDegradedClear s = _
  simp only [execServiceDegradedClear, hd, hl, decide_eq_true hx, Bool.and_self, if_true]

theorem exec_memoryIslandFailure {die : Nat} (hd : die < 4) (hl : s.live = true) (hp : s.dev.power = .up) (hi : s.islandUp die = true) :
    exec (.memoryIslandFailure die) s = .next ((s.modDev fun d =>
      { d with hbmSt := d.hbmSt.zipIdx.map fun e => if e.2 / 3 = die then 2 else e.1 }).fatal 0x0017 0x0F die 0) := by
  show execMemoryIslandFailure die s = _
  simp only [execMemoryIslandFailure, if_neg (Nat.not_le.2 hd), hl, hp, hi]
  rfl

theorem exec_dieSequencerOrRailFault {die : Nat} (hd : die < 4) (hl : s.live = true) (hp : s.dev.power = .up)
    (hf : s.dieFenced die = false) : exec (.dieSequencerOrRailFault die false) s = .next (s.fenceAuto die) := by
  show execDieSequencerOrRailFault die false s = _
  simp only [execDieSequencerOrRailFault, if_neg (Nat.not_le.2 hd), hl, hp, hf]
  rfl

end

/-- Settles O56: each row by its rule; what start-up keeps by `BootKeeps`, what a warning keeps by `CkptStep`. -/
theorem powerAndSensors : Obligations.PowerAndSensors := by
  unfold Obligations.PowerAndSensors
  intro s
  refine ⟨fun mv phy rst hp hlo hhi => ?_, fun hp hl hr hm => ⟨_, exec_startUpComplete hp hl hr hm, rfl, rfl, rfl⟩,
    fun hp => ⟨fun mv => exec_supplyLevelChange_critical hp, fun mv => exec_supplyLevelChange_inWindow hp, fun mv hlo hhi hw hwf => ?_⟩,
    fun x => exec_supplyWarningClear, fun hp hr => ⟨_, exec_hostRailFault hp hr, rfl, rfl, rfl⟩, fun temps => exec_sensorRead,
    fun i x _ _ hw hh hx h1 h2 => ?_, fun hp hk hf => ?_, fun _ => exec_rstNAssert_held, fun hp hr => ?_, fun hp hr => ?_,
    fun x => exec_serviceDegradedClear, fun die hd hl hp => ⟨exec_memoryIslandFailure hd hl hp, fun hf ho => ?_, fun hf ho => ?_⟩⟩
  · have hk := (BootKeeps.refl ((s.rootLocked.take1.2.modSec fun g =>
      { g with devKey := Config.fresh s.rootLocked.take1.1 % 2 ^ 512 }).modDev fun d =>
        { d with vin := mv, phy := b2n phy, rstHeld := rst, cold := true })).afterLock
    refine ⟨_, exec_powerOn phy rst hp hlo hhi, hk.locked, hk.nclk, hk.vin, hk.bootEpoch, hk.retired, hk.pending, hk.ses, fun hrst => ?_⟩
    rw [State.afterLock_held hrst]
    exact ⟨rfl, rfl⟩
  · refine ⟨_, exec_supplyLevelChange_warns hp hlo hhi hw, ?_⟩
    obtain ⟨hdev, hobj⟩ := State.recordWarning (s := (s.modDev fun d => { d with vin := mv }).modDev fun d =>
      { d with supplyWarn := true, supplyOk := none }) (e := { sev := 0, code := 0x0012, source := 0x0B, unit := 0xFFFF }) rfl hwf 3
    exact ⟨congrArg Dev.supplyWarn hdev, congrArg Dev.vin hdev, hobj⟩
  · rw [State.sensor_below hw hh hx h1 h2]
    exact ⟨rfl, rfl, rfl⟩
  · refine ⟨_, exec_rootLockLoss hp hk, rfl, State.fatal_siteFatal _ _ _ _ _, ?_, State.fatal_ses _ _ _ _ _⟩
    unfold State.fatal
    rw [if_neg (by simp [hf])]
    rfl
  · refine ⟨_, exec_rstNAssert hp hr, ?_⟩
    split
    next h =>
      obtain ⟨h1, h2, h3, h4, h5, h6⟩ := State.resetDevice_held
        (s := ((s.modDev fun d => { d with rstHeld := true, bootEpoch := (d.bootEpoch + 65535) % 65536 }).modMg fun g =>
          { g with boot := g.bootWas }).modErr fun g => { g with fatal := s.mg.fatalWas }) rfl
      refine ⟨h1, h2, h3, h4, h5, fun hne => absurd h hne, fun _ _ hb => h6.trans ?_⟩
      show ((s.dev.bootEpoch + 65535) % 65536 + 1) % 65536 = s.dev.bootEpoch
      omega
    next h =>
      obtain ⟨h1, h2, h3, h4, h5, h6⟩ := (State.resetDevice_held (s := s.modDev fun d => { d with rstHeld := true }) rfl)
      exact ⟨h1, h2, h3, h4, h5, fun _ => h6, fun ha hb => absurd ⟨ha, hb⟩ h⟩
  · have hk := (BootKeeps.refl (s.modDev fun d => { d with rstHeld := false })).bootRows
    exact ⟨_, exec_rstNRelease hp hr, hk.rstHeld, hk.ses⟩
  · rw [exec_dieSequencerOrRailFault hd hl hp hf]
    simp [State.fenceAuto, hf, ho]
  · rw [exec_dieSequencerOrRailFault hd hl hp hf]
    simp [State.fenceAuto, hf, ho]

end Sys2Proof.Machine

/-! PROOFS. Management messages (14 R391, R392): the checks that every message passes, READ and WRITE alike. -/

namespace Sys2Proof.Machine

/-! ### The checks of R391, one rule for each that can be the first to fail -/

/-- The header, the body and `form` of the operation are well formed (item 2 of R391). -/
def MgmtFormed (m : MgmtHdr) (form : Bool) : Prop := m.mver = 1 ∧ m.bodyOk = true ∧ form = true ∧ m.seq ≠ 0

theorem mgmtFormed_iff {m : MgmtHdr} {form : Bool} :
    MgmtFormed m form ↔ (m.mver != 1 || !m.bodyOk || !form || m.seq.toNat == 0) = false := by
  have hz : m.seq.toNat = 0 ↔ m.seq = 0 := (BitVec.toNat_eq (y := 0)).symm
  simp [MgmtFormed, and_assoc, hz]

section
variable {s : State} {m : MgmtHdr} (op : Nat) {form : Bool} (plan : State → Nat → MgmtPlan)

theorem State.mgmtMsg_down (hu : s.mgmtUp = false) : s.mgmtMsg m op form plan = .next s := by
  simp [State.mgmtMsg, hu]

variable (hu : s.mgmtUp = true)
include hu

theorem State.mgmtMsg_discarded (ha : s.authentic m = false) : s.mgmtMsg m op form plan = .next (s.count 0x1202 1) := by
  simp [State.mgmtMsg, hu, ha]

variable (ha : s.authentic m = true)
include ha

theorem State.mgmtMsg_format (hf : ¬MgmtFormed m form) :
    s.mgmtMsg m op form plan = .next (s.say (s.mgmtReply m op stMgmtFormat 0xFF [])) := by
  have hbad := Bool.eq_true_of_not_eq_false (mt mgmtFormed_iff.2 hf)
  simp only [State.mgmtMsg, hu, ha, hbad, Bool.not_true, Bool.false_eq_true, if_false, if_true]

variable (hf : MgmtFormed m form)
include hf

theorem State.mgmtMsg_epoch (he : m.bootEpoch.toNat ≠ s.dev.bootEpoch) :
    s.mgmtMsg m op form plan = .next (s.say (s.mgmtReply m op stMgmtEpoch 0xFF [])) := by
  simp only [State.mgmtMsg, hu, ha, mgmtFormed_iff.1 hf, he, not_false_eq_true, ne_eq, Bool.not_true,
    Bool.false_eq_true, if_false, if_true]

variable (he : m.bootEpoch.toNat = s.dev.bootEpoch)
include he

theorem State.mgmtMsg_state (hm : s.dev.mgmt = 0) :
    s.mgmtMsg m op form plan = .next (s.say (s.mgmtReply m op stMgmtState 0xFF [])) := by
  simp only [State.mgmtMsg, hu, ha, mgmtFormed_iff.1 hf, he, hm, not_true_eq_false, ne_eq, Bool.not_true,
    Bool.false_eq_true, if_false, if_true]

variable (hm : s.dev.mgmt ≠ 0)
include hm

theorem State.mgmtMsg_below (hw : (tblGet winNone s.mg.wins m.keySlot.toNat).below m.seq.toNat = true) :
    s.mgmtMsg m op form plan = .next ((s.count 0x1202 2).say ((s.count 0x1202 2).mgmtReply m op stMgmtSeq 0xFF [])) := by
  simp only [State.mgmtMsg, hu, ha, mgmtFormed_iff.1 hf, he, hm, hw, not_true_eq_false, ne_eq, Bool.not_true,
    Bool.false_eq_true, if_false, if_true]

variable (hw : (tblGet winNone s.mg.wins m.keySlot.toNat).below m.seq.toNat = false)
  (hn : m.seq.toNat ∈ (tblGet winNone s.mg.wins m.keySlot.toNat).seen)
include hw hn

/-- A message seen before is answered as it was. -/
theorem State.mgmtMsg_kept {r : MgmtReply} (hr : tblFind (tblGet winNone s.mg.wins m.keySlot.toNat).replies m.seq.toNat = some r) :
    s.mgmtMsg m op form plan = .next (s.say r) := by
  simp only [State.mgmtMsg, hu, ha, mgmtFormed_iff.1 hf, he, hm, hw, decide_eq_true hn, hr, not_true_eq_false, ne_eq, Bool.not_true,
    Bool.false_eq_true, if_false, if_true]

/-- One whose reply is no longer kept is ST_DUP. -/
theorem State.mgmtMsg_dup (hr : tblFind (tblGet winNone s.mg.wins m.keySlot.toNat).replies m.seq.toNat = none) :
    s.mgmtMsg m op form plan = .next (s.say (s.mgmtReply m op stDup 0xFF [])) := by
  simp only [State.mgmtMsg, hu, ha, mgmtFormed_iff.1 hf, he, hm, hw, decide_eq_true hn, hr, not_true_eq_false, ne_eq, Bool.not_true,
    Bool.false_eq_true, if_false, if_true]

end

/-- A list of items has the right length (R397). -/
theorem itemsForm_iff (items : List MgmtItem) :
    (decide (1 ≤ items.length) && decide (items.length ≤ 16)) = true ↔ items ≠ [] ∧ items.length ≤ 16 := by
  rw [Bool.and_eq_true, decide_eq_true_iff, decide_eq_true_iff, Nat.one_le_iff_ne_zero, ne_eq, List.length_eq_zero_iff]

theorem exec_write (m : MgmtHdr) (items : List MgmtItem) (s : State) : exec (.write m items) s =
    s.mgmtMsg m 0x03 (decide (1 ≤ items.length) && decide (items.length ≤ 16)) fun t r => t.writePlan items r := rfl

theorem exec_read (m : MgmtHdr) (items : List MgmtItem) (s : State) : exec (.read m items) s =
    s.mgmtMsg m 0x02 (decide (1 ≤ items.length) && decide (items.length ≤ 16)) fun t r => t.readPlan items r := rfl

/-- Settles O52: READ and WRITE are both messages whose form is the number of their items, so each case is one rule for both. -/
theorem managementMessagesAreCheckedInOrder : Obligations.ManagementMessagesAreCheckedInOrder := by
  unfold Obligations.ManagementMessagesAreCheckedInOrder
  intro s m items w no
  rw [exec_write, exec_read]
  refine ⟨fun hu => ⟨State.mgmtMsg_down _ _ hu, State.mgmtMsg_down _ _ hu, if_pos (by simp [hu])⟩,
    fun hu ha => ⟨State.mgmtMsg_discarded _ _ hu ha, State.mgmtMsg_discarded _ _ hu ha⟩, fun hu ha hbad => ?_,
    fun hu ha hv hb hne hlen hs => ?_⟩
  · have hf : ¬MgmtFormed m (decide (1 ≤ items.length) && decide (items.length ≤ 16)) := by
      rintro ⟨hv, hb, hform, hs⟩
      obtain ⟨hne, hlen⟩ := (itemsForm_iff items).1 hform
      rcases hbad with h | h | h | h | h
      · exact h hv
      · exact Bool.false_ne_true (h.symm.trans hb)
      · exact hne h
      · exact absurd hlen (Nat.not_le.2 h)
      · exact hs h
    exact ⟨State.mgmtMsg_format _ _ hu ha hf, State.mgmtMsg_format _ _ hu ha hf⟩
  · have hf : MgmtFormed m (decide (1 ≤ items.length) && decide (items.length ≤ 16)) := ⟨hv, hb, (itemsForm_iff items).2 ⟨hne, hlen⟩, hs⟩
    refine ⟨fun he => ⟨State.mgmtMsg_epoch _ _ hu ha hf he, State.mgmtMsg_epoch _ _ hu ha hf he⟩,
      fun he hm => ⟨State.mgmtMsg_state _ _ hu ha hf he hm, State.mgmtMsg_state _ _ hu ha hf he hm⟩,
      fun he hm => ⟨fun hw => ⟨State.mgmtMsg_below _ _ hu ha hf he hm hw, State.mgmtMsg_below _ _ hu ha hf he hm hw⟩,
        fun r hw hn hr => ⟨State.mgmtMsg_kept _ _ hu ha hf he hm hw hn hr, State.mgmtMsg_kept _ _ hu ha hf he hm hw hn hr⟩,
        fun hw hn hr => ⟨State.mgmtMsg_dup _ _ hu ha hf he hm hw hn hr, State.mgmtMsg_dup _ _ hu ha hf he hm hw hn hr⟩⟩⟩

end Sys2Proof.Machine

/-! PROOFS. IDENT, CLAIM, READ and WRITE (14 R393-R398): what each message brings about once its checks have passed. -/

namespace Sys2Proof.Machine

/-! ### IDENT and CLAIM (R393, R395) -/

theorem certBytes_length (c : Cert) : (certBytes c).length = 128 := by
  rw [certBytes, List.length_append, certBody, leBytes_length, leBytes_length]

theorem exec_ident {s : State} {m : MgmtHdr} (hu : s.mgmtUp = true) (hl : m.lenOk = true)
    (hs : m.serial.toNat = serial ∨ m.serial.toNat = 0) :
    let b := certBytes idCert ++ certBytes s.akCert ++ leBytes 16 serial ++ leBytes 2 s.dev.bootEpoch ++ leBytes 1 s.dev.mgmt
    exec (.ident m) s = .next (s.say (s.mgmtReply m 0x01 stOk 0xFF (b ++ List.replicate (288 - b.length) 0))) := by
  have hser : (m.serial.toNat == serial || m.serial == 0) = true := by
    rw [Bool.or_eq_true, beq_iff_eq, beq_iff_eq, BitVec.toNat_eq]
    exact hs
  show execIdent m s = _
  simp only [execIdent, hu, hl, hser, Bool.not_true, Bool.or_self, Bool.false_eq_true, if_false]

section
variable {s : State} {m : MgmtHdr} {key : BitVec 256} (hu : s.mgmtUp = true) (hl : m.lenOk = true) (hs : m.serial.toNat = serial)
  (hk : m.signer = some key) (hslot : m.keySlot.toNat = 0xFE) (hv : m.mver = 1) (hb : m.bodyOk = true) (hq : m.seq ≠ 0)
  (he : m.bootEpoch.toNat = s.dev.bootEpoch)
include hu hl hs hk hslot hv hb hq he

/-- A CLAIM under slot 0xFE, whose signature verifies with the key it brings, is decided by the key table and the state. -/
theorem exec_claim : exec (.claim m key) s = .next (if (s.unclaimed && s.dev.mgmt == 1) = true then
      ((s.setObj 0x1201 1 0 0 key.toNat).setObj 0x1201 2 0 0 0x3F).say (s.mgmtReply m 0x05 stOk 0xFF [])
    else s.say (s.mgmtReply m 0x05 stMgmtRight 0xFF [])) := by
  have hop : m.opListed = true := by
    simp only [MgmtHdr.bodyOk, Bool.and_eq_true] at hb
    exact hb.1.1.1
  have hz : (m.seq == 0) = false := beq_false_of_ne hq
  show execClaim m key s = _
  simp only [execClaim, hu, hop, hl, hs, hk, hslot, hv, hb, hz, he, BEq.rfl, bne_self_eq_false, Bool.not_true, Bool.and_self, Bool.true_or,
    Bool.or_self, Bool.false_eq_true, ne_eq, not_true_eq_false, if_false, if_true]
  split <;> rfl

end

/-- The first key is enrolled in slot 0 with every right. -/
theorem State.obj_enrolled (s : State) {key : BitVec 256} (hk : key ≠ 0) :
    let t := (s.setObj 0x1201 1 0 0 key.toNat).setObj 0x1201 2 0 0 0x3F
    t.obj 0x1201 1 0 = key.toNat ∧ t.obj 0x1201 2 0 = 0x3F := by
  have hstored (u : State) (sub v : Nat) (hd : v ≠ objDefault 0x1201 sub) : (u.setObj 0x1201 sub 0 0 v).obj 0x1201 sub 0 = v := by
    show tblGet _ (tblPut _ _ _ _) _ = v
    rw [tblPut, if_neg hd, tblGet_tblIns_self]
  have hne : key.toNat ≠ objDefault 0x1201 1 := fun h => hk (BitVec.eq_of_toNat_eq h)
  exact ⟨(State.obj_setObj_of_ne _ _ _ _ _ _ (by decide)).trans (hstored s 1 _ hne), hstored _ 2 _ (by decide)⟩

/-! ### READ and WRITE (R397-R399) -/

section
variable {s : State} {m : MgmtHdr} (h : Heard s m)
include h

/-- A message that is heard is answered by its plan, and takes effect after the answer. -/
theorem Heard.mgmtMsg (op : Nat) {form : Bool} (plan : State → Nat → MgmtPlan) (hf : form = true) :
    let p := plan s (s.obj 0x1201 2 m.keySlot.toNat)
    s.mgmtMsg m op form plan = .next (p.effect (answered_ s m (s.mgmtReply m op p.status p.item p.body))) := by
  obtain ⟨hu, ha, hv, hb, hs, he, hm, hw, hn⟩ := h
  exact State.mgmtMsg_heard plan hu ha hv hb hf hs he hm hw hn

theorem Heard.exec_read {items : List MgmtItem} (h1 : 1 ≤ items.length) (h16 : items.length ≤ 16) (hr : holdsRight s m 0)
    (hform : firstFail (itemForm · true) items = none) (hsize : (items.map itemSize).foldl (· + ·) 0 ≤ 1104) :
    exec (.read m items) s = .next (items.foldl State.itemClear
      (answered_ s m (s.mgmtReply m 0x02 stOk 0xFF (items.flatMap (s.itemBody s.freeCtr)))).take1.2) := by
  have hp : s.readPlan items (s.obj 0x1201 2 m.keySlot.toNat)
      = ⟨stOk, 0xFF, items.flatMap (s.itemBody s.freeCtr), fun t => items.foldl State.itemClear t.take1.2⟩ := by
    simp only [State.readPlan, show bit (s.obj 0x1201 2 m.keySlot.toNat) 0 = true from hr, hform, if_neg (Nat.not_lt.2 hsize), Bool.not_true,
      Bool.false_eq_true, if_false]
  rw [Machine.exec_read, h.mgmtMsg _ _ (by simp [h1, h16]), hp]

theorem Heard.exec_write {items : List MgmtItem} (h1 : 1 ≤ items.length) (h16 : items.length ≤ 16) :
    let p := s.writePlan items (s.obj 0x1201 2 m.keySlot.toNat)
    exec (.write m items) s = .next (p.effect (answered_ s m (s.mgmtReply m 0x03 p.status p.item p.body))) := by
  rw [Machine.exec_write, h.mgmtMsg _ _ (by simp [h1, h16])]

end

section
variable {s : State} {items : List MgmtItem} {rights : Nat}

theorem State.writePlan_ok (hf : firstFail (s.itemRule (items.foldl State.stageItem s) rights) items = none) :
    s.writePlan items rights = planOk fun u => items.foldl s.itemDo ((items.foldl State.stageItem u).count 0x1202 3) := by
  simp only [State.writePlan, hf]

/-- A WRITE that fails changes nothing, but where it is a trigger whose failure sets CKPT_RESULT. -/
theorem State.writePlan_fails {st k : Nat} (hf : firstFail (s.itemRule (items.foldl State.stageItem s) rights) items = some (st, k))
    (hm : st ≠ stCkptManifest) (hs : st ≠ stCkptSpace) : s.writePlan items rights = planBad st k := by
  simp only [State.writePlan, hf, planBad]
  congr 1
  cases items[k]? with
  | none => rfl
  | some i =>
    funext u
    exact if_neg (by simp [hm, hs])

end

/-- Settles O53: IDENT and CLAIM by their rules; READ and WRITE are heard, and their plans say what they answer and do. -/
theorem managementReadsAndWrites : Obligations.ManagementReadsAndWrites := by
  unfold Obligations.ManagementReadsAndWrites
  intro s m
  refine ⟨fun hu hl hs => ⟨_, exec_ident hu hl hs, rfl, rfl, rfl, ?_, ?_⟩, fun key hu hl hs hk hslot hv hb hq he hkey => ?_,
    fun items h => h.exec_read, fun items h h1 h16 => ⟨fun hf => ?_, fun st k hf hm hsp => ?_⟩⟩
  · show List.take 128 (_ ++ _) = _
    simp only [List.append_assoc]
    exact List.take_left' (certBytes_length _)
  · show (_ ++ _ : List Byte).length = 288
    simp [certBytes_length]
  · rw [exec_claim hu hl hs hk hslot hv hb hq he]
    refine ⟨fun hun hm => ⟨_, rfl, ?_⟩, fun hun => ?_⟩
    · rw [if_pos (by simp [hun, hm])]
      exact State.obj_enrolled s hkey
    · rw [if_neg (by simp [hun])]
  · rw [h.exec_write h1 h16, State.writePlan_ok hf]
    rfl
  · rw [h.exec_write h1 h16, State.writePlan_fails hf hm hsp]
    rfl

end Sys2Proof.Machine

/-! PROOFS. WRITEs of one row (14 R398-R400, R407 and the rows of other chapters): the checks of the one item, what the answered
message leaves alone, and what each row does. -/

namespace Sys2Proof.Machine

/-! ### The item that a WRITE of one row carries (R397, R398) -/

/-- The object of `r` and a row of it are named in the fields of an item. -/
structure ItemRow (r : ObjRow) (ix sub row : Nat) : Prop where
  row_eq : objRow ix sub = some r
  ix_eq : r.ix = ix
  sub_eq : r.sub = sub
  ix_lt : ix < 65536
  sub_lt : sub < 256
  typ_lt : r.typ < 256
  bytes_lt : r.rowBytes < 65536
  rows_le : r.rows ≤ 65536
  row_lt : row < r.rows

section
variable {r : ObjRow} {ix sub row : Nat} (hi : ItemRow r ix sub row) (data : Nat)
include hi

theorem itemRow_item1 : itemRow (item1 ix sub row data) = some r := by
  show objRow (BitVec.ofNat 16 ix).toNat (BitVec.ofNat 8 sub).toNat = some r
  rw [BitVec.toNat_ofNat, BitVec.toNat_ofNat, Nat.mod_eq_of_lt hi.ix_lt, Nat.mod_eq_of_lt hi.sub_lt, hi.row_eq]

theorem item1_row : (item1 ix sub row data).row.toNat = row := by
  show (BitVec.ofNat 16 row).toNat = row
  rw [BitVec.toNat_ofNat, Nat.mod_eq_of_lt (Nat.lt_of_lt_of_le hi.row_lt hi.rows_le)]

theorem itemForm_item1 : itemForm (item1 ix sub row data) false = none := by
  have htyp : (item1 ix sub row data).typ.toNat = r.typ := by
    show (BitVec.ofNat 8 _).toNat = _
    rw [hi.row_eq, BitVec.toNat_ofNat]
    exact Nat.mod_eq_of_lt hi.typ_lt
  have hlen : (item1 ix sub row data).len.toNat = r.rowBytes := by
    show (BitVec.ofNat 16 _).toNat = _
    rw [hi.row_eq, BitVec.toNat_ofNat]
    exact Nat.mod_eq_of_lt hi.bytes_lt
  have hrows : (item1 ix sub row data).rows.toNat = 1 := rfl
  have hle : row + 1 ≤ r.rows := hi.row_lt
  simp [itemForm, itemRow_item1 hi, item1_row hi, htyp, hlen, hrows, firstBad, hle]

/-- The checks of R398 on the item, in their order. -/
theorem State.itemRule_item1 (s t : State) (rights : Nat) : s.itemRule t rights (item1 ix sub row data) =
    (s.accessRule r).orElse fun _ => (must (bit rights (writeRight ix sub)) stMgmtRight).orElse fun _ =>
      (must (inRange r data 1) stMgmtRange).orElse fun _ =>
        (s.rowRule t ix sub row).orElse fun _ => s.actRule t ix sub row (itemElem r data 0 0) := by
  have hbefore : t.ckptBefore (item1 ix sub row data) 0 = t := by
    simp [State.ckptBefore, itemRow_item1 hi]
  have hrows : (item1 ix sub row data).rows.toNat = 1 := rfl
  have hdata : (item1 ix sub row data).data = data := rfl
  simp [State.itemRule, itemForm_item1 hi, itemRow_item1 hi, item1_row hi, hrows, hdata, hbefore, hi.ix_eq, hi.sub_eq, List.range_one]

/-- An object that is not a stored one is not staged. -/
theorem State.stageItem_command (s : State) (ha : r.acc = 3) : s.stageItem (item1 ix sub row data) = s := by
  simp [State.stageItem, itemRow_item1 hi, ha]

/-- The elements of the one row are staged, column by column. -/
theorem State.stageItem_stored (s : State) (ha : r.acc = 1 ∨ r.acc = 2) : s.stageItem (item1 ix sub row data) =
    (List.range r.cols.length).foldl (fun u c => u.setObj ix sub row c (itemElem r data 0 c)) s := by
  have hrows : (item1 ix sub row data).rows.toNat = 1 := rfl
  have hdata : (item1 ix sub row data).data = data := rfl
  have hacc : ¬(r.acc ≠ 1 ∧ r.acc ≠ 2) := fun h => ha.elim h.1 h.2
  simp only [State.stageItem, itemRow_item1 hi, item1_row hi, hrows, hdata, if_neg hacc, List.range_one, List.foldl_cons, List.foldl_nil,
    hi.ix_eq, hi.sub_eq, Nat.add_zero]

theorem State.itemDo_item1 (s u : State) :
    s.itemDo u (item1 ix sub row data) = (s.after u ix sub row).actDo ix sub row (itemElem r data 0 0) := by
  have hrows : (item1 ix sub row data).rows.toNat = 1 := rfl
  have hdata : (item1 ix sub row data).data = data := rfl
  simp only [State.itemDo, itemRow_item1 hi, item1_row hi, hrows, hdata, List.range_one, List.foldl_cons, List.foldl_nil, hi.ix_eq, hi.sub_eq,
    Nat.add_zero]

end

theorem firstFail_single (f : MgmtItem → Option Nat) (i : MgmtItem) : firstFail f [i] = (f i).map fun st => (st, 0) := by
  simp [firstFail]

/-- A WRITE of one row whose item passes its checks. -/
theorem Heard.write1_ok {s : State} {m : MgmtHdr} (h : Heard s m) {ix sub row data : Nat}
    (hrule : s.itemRule (s.stageItem (item1 ix sub row data)) (s.obj 0x1201 2 m.keySlot.toNat) (item1 ix sub row data) = none) :
    s.write1 m ix sub row data = .next (s.itemDo (((answered_ s m (s.mgmtReply m 0x03 stOk 0xFF [])).stageItem
      (item1 ix sub row data)).count 0x1202 3) (item1 ix sub row data)) := by
  have hf : firstFail (s.itemRule ([item1 ix sub row data].foldl State.stageItem s) (s.obj 0x1201 2 m.keySlot.toNat))
      [item1 ix sub row data] = none := by
    rw [firstFail_single, List.foldl_cons, List.foldl_nil, hrule, Option.map_none]
  show s.mgmtMsg m 0x03 true _ = _
  rw [h.mgmtMsg _ _ rfl, State.writePlan_ok hf]
  rfl

/-- One whose item fails a check: nothing changes but the window. -/
theorem Heard.write1_fails {s : State} {m : MgmtHdr} (h : Heard s m) {ix sub row data st : Nat}
    (hrule : s.itemRule (s.stageItem (item1 ix sub row data)) (s.obj 0x1201 2 m.keySlot.toNat) (item1 ix sub row data) = some st)
    (hm : st ≠ stCkptManifest) (hs : st ≠ stCkptSpace) :
    s.write1 m ix sub row data = .next (answered_ s m (s.mgmtReply m 0x03 st 0 [])) := by
  have hf : firstFail (s.itemRule ([item1 ix sub row data].foldl State.stageItem s) (s.obj 0x1201 2 m.keySlot.toNat))
      [item1 ix sub row data] = some (st, 0) := by
    rw [firstFail_single, List.foldl_cons, List.foldl_nil, hrule, Option.map_some]
  show s.mgmtMsg m 0x03 true _ = _
  rw [h.mgmtMsg _ _ rfl, State.writePlan_fails hf hm hs]
  rfl

/-- A WRITE of one item is the row that writes it. -/
theorem exec_write_item1 (s : State) (m : MgmtHdr) (ix sub row data : Nat) :
    exec (.write m [item1 ix sub row data]) s = s.write1 m ix sub row data := rfl

/-! ### The checks of a row that its key may write -/

/-- What R397 and R398 ask of a write of `data` to a row of `r`, apart from the rules of its chapter. -/
structure MayWrite (s : State) (m : MgmtHdr) (r : ObjRow) (data : Nat) : Prop where
  access : s.accessRule r = none
  right : holdsRight s m (writeRight r.ix r.sub)
  range : inRange r data 1 = true

section
variable {s : State} {m : MgmtHdr} (h : Heard s m) {r : ObjRow} {ix sub row : Nat} (hi : ItemRow r ix sub row) {data : Nat}
  (hw : MayWrite s m r data)
include hi hw

theorem MayWrite.itemRule (t : State) : s.itemRule t (s.obj 0x1201 2 m.keySlot.toNat) (item1 ix sub row data) =
    (s.rowRule t ix sub row).orElse fun _ => s.actRule t ix sub row (itemElem r data 0 0) := by
  have hright : bit (s.obj 0x1201 2 m.keySlot.toNat) (writeRight ix sub) = true := by
    have := hw.right
    rwa [hi.ix_eq, hi.sub_eq] at this
  simp [State.itemRule_item1 hi, hw.access, hright, hw.range, must]

include h

/-- A command, an object that keeps no value, does what it says. -/
theorem MayWrite.write1_command (ha : r.acc = 3) (hrow : s.rowRule s ix sub row = none)
    (hact : s.actRule s ix sub row (itemElem r data 0 0) = none) (hafter : ∀ u, s.after u ix sub row = u) :
    s.write1 m ix sub row data = .next ((written s m).actDo ix sub row (itemElem r data 0 0)) := by
  rw [h.write1_ok (by rw [hw.itemRule hi, State.stageItem_command hi _ _ ha, hrow]; exact hact), State.itemDo_item1 hi,
    State.stageItem_command hi _ _ ha, hafter]
  rfl

end

/-! ### Commands of one column -/

theorem ItemRow.of_objRow {r : ObjRow} {ix sub row : Nat} (hr : objRow ix sub = some r) (hrow : row < r.rows)
    (hb : (r.ix = ix ∧ r.sub = sub) ∧ ix < 65536 ∧ sub < 256 ∧ r.typ < 256 ∧ r.rowBytes < 65536 ∧ r.rows ≤ 65536) : ItemRow r ix sub row := by
  obtain ⟨⟨hix, hsub⟩, hix_lt, hsub_lt, htyp, hbytes, hrows⟩ := hb
  exact ⟨hr, hix, hsub, hix_lt, hsub_lt, htyp, hbytes, hrows, hrow⟩

theorem State.accessRule_none {s : State} {r : ObjRow} (hacc : r.acc ≠ 0 ∧ r.acc ≠ 4) (hfault : s.dev.mgmt ≠ 4 ∨ r.ix = 0x2100)
    (hservice : r.acc ≠ 2 ∨ s.dev.mgmt = 1 ∨ s.dev.mgmt = 3) (hover : r.ix ≠ 0xA004 ∨ s.dev.mgmt = 3) : s.accessRule r = none := by
  obtain ⟨h0, h4⟩ := hacc
  have h2 : (r.acc != 2 || s.dev.mgmt == 1 || s.dev.mgmt == 3) = true := by simpa [or_assoc] using hservice
  have h3 : (s.dev.mgmt != 4 || r.ix == 0x2100) = true := by simpa using hfault
  have h5 : (r.ix != 0xA004 || s.dev.mgmt == 3) = true := by simpa using hover
  have h1 : (r.acc != 0 && r.acc != 4) = true := by simp [h0, h4]
  simp only [State.accessRule, firstBad, h1, h2, h3, h5, if_true]

/-- The one element of a row of one column. -/
theorem itemElem_single {r : ObjRow} {w data : Nat} (hc : r.cols = [w]) (hd : data < 2 ^ (8 * w)) : itemElem r data 0 0 = data := by
  simp [itemElem, hc, Nat.mod_eq_of_lt hd]

theorem inRange_single {r : ObjRow} {w data : Nat} (hc : r.cols = [w]) (hd : data < 2 ^ (8 * w)) (hlo : r.lo ≤ data)
    (hhi : ∀ x, r.hi = some x → data ≤ x) : inRange r data 1 = true := by
  have he := itemElem_single hc hd
  cases hr : r.hi with
  | none => simp [inRange, hc, he, hlo, hr, List.range_one]
  | some x => simp [inRange, hc, he, hlo, hr, hhi x hr, List.range_one]

/-- A command of one column acts where its key may write it and its chapter allows it. -/
theorem Heard.command {s : State} {m : MgmtHdr} (h : Heard s m) {r : ObjRow} {ix sub row data w : Nat} (hi : ItemRow r ix sub row)
    (ha : r.acc = 3) (hc : r.cols = [w]) (hfault : s.dev.mgmt ≠ 4 ∨ r.ix = 0x2100) (hover : r.ix ≠ 0xA004)
    (hright : holdsRight s m (writeRight r.ix r.sub)) (hd : data < 2 ^ (8 * w)) (hlo : r.lo ≤ data) (hhi : ∀ x, r.hi = some x → data ≤ x)
    (hrow : s.rowRule s ix sub row = none) (hact : s.actRule s ix sub row data = none) (hafter : ∀ u, s.after u ix sub row = u) :
    s.write1 m ix sub row data = .next ((written s m).actDo ix sub row data) := by
  have hw : MayWrite s m r data := ⟨State.accessRule_none (by simp [ha]) hfault (.inl (by simp [ha])) (.inl hover), hright,
    inRange_single hc hd hlo hhi⟩
  have he := itemElem_single hc hd
  rw [hw.write1_command h hi ha hrow (by rw [he]; exact hact) hafter, he]

/-! ### The commands (R400, R409, R411; 12 R348; 13 R372, R380, R381; 15 R422-R426; 16 R442, R450) -/

/-- MGMT_CMD. -/
theorem itemRow_mgmtCmd : ItemRow ⟨0x1203, 2, 2, 1, [1], 3, 0, 0, none⟩ 0x1203 2 0 := .of_objRow rfl (by decide) (by decide)
/-- RESET_CMD. -/
theorem itemRow_resetCmd : ItemRow ⟨0x2100, 1, 2, 1, [1], 3, 0, 0, none⟩ 0x2100 1 0 := .of_objRow rfl (by decide) (by decide)
/-- QUOTE_NONCE. -/
theorem itemRow_quoteNonce : ItemRow ⟨0x7001, 1, 9, 1, [32], 3, 0, 0, none⟩ 0x7001 1 0 := .of_objRow rfl (by decide) (by decide)
/-- CKPT_CMD. -/
theorem itemRow_ckptCmd (ctx : BitVec 8) : ItemRow ⟨0x8002, 1, 11, 256, [1], 3, 0, 1, some 3⟩ 0x8002 1 ctx.toNat :=
  .of_objRow rfl ctx.isLt (by decide)
/-- FATAL_CLEAR. -/
theorem itemRow_fatalClear : ItemRow ⟨0x9001, 2, 1, 1, [1], 3, 0, 0, some 1⟩ 0x9001 2 0 := .of_objRow rfl (by decide) (by decide)
/-- FENCE_DIE. -/
theorem itemRow_fenceDie : ItemRow ⟨0x9003, 2, 2, 1, [1], 3, 0, 0, some 3⟩ 0x9003 2 0 := .of_objRow rfl (by decide) (by decide)
/-- IMG_ACTIVATE. -/
theorem itemRow_imgActivate : ItemRow ⟨0xA002, 1, 2, 1, [1], 3, 0, 0, some 4⟩ 0xA002 1 0 := .of_objRow rfl (by decide) (by decide)
/-- IMG_DISCARD. -/
theorem itemRow_imgDiscard : ItemRow ⟨0xA002, 2, 2, 1, [1], 3, 0, 0, some 4⟩ 0xA002 2 0 := .of_objRow rfl (by decide) (by decide)
/-- IMG_COMMIT. -/
theorem itemRow_imgCommit : ItemRow ⟨0xA002, 3, 1, 1, [1], 3, 0, 0, some 1⟩ 0xA002 3 0 := .of_objRow rfl (by decide) (by decide)

section
variable {s : State} {m : MgmtHdr} (h : Heard s m)
include h

theorem Heard.mgmtCmd (h4 : s.dev.mgmt ≠ 4) (hr : holdsRight s m 2) {v : Nat} (hv : v < 256) (hrule : s.cmdRule s v = none) :
    s.write1 m 0x1203 2 0 v = .next ((written s m).modDev fun d => { d with mgmt := cmdState v }) :=
  h.command itemRow_mgmtCmd rfl rfl (.inl h4) (by decide) hr hv (Nat.zero_le _) nofun (by simp [State.rowRule, State.ruleOf, sealedObj])
    hrule fun _ => rfl

theorem Heard.resetCmd (hr : holdsRight s m 1) {v : Nat} (hv : v < 256) (hrule : s.resetRule v = none) :
    s.write1 m 0x2100 1 0 v = .next ((written s m).resetDo v) :=
  h.command itemRow_resetCmd rfl rfl (.inr rfl) (by decide) hr hv (Nat.zero_le _) nofun (by simp [State.rowRule, State.ruleOf, sealedObj])
    hrule fun _ => rfl

theorem Heard.quoteNonce (h4 : s.dev.mgmt ≠ 4) (hr : holdsRight s m 1) (nonce : BitVec 256) :
    s.write1 m 0x7001 1 0 nonce.toNat = .next ((written s m).modSec fun g => { g with quote := some ((written s m).mkQuote nonce) }) := by
  rw [h.command itemRow_quoteNonce rfl rfl (.inl h4) (by decide) hr nonce.isLt (Nat.zero_le _) nofun
    (by simp [State.rowRule, State.ruleOf, sealedObj]) rfl fun _ => rfl]
  show Host.Outcome.next ((written s m).modSec fun g => { g with quote := some ((written s m).mkQuote (BitVec.ofNat 256 nonce.toNat)) }) = _
  rw [BitVec.ofNat_toNat, BitVec.setWidth_eq]

theorem Heard.ckptCmd (h4 : s.dev.mgmt ≠ 4) (hr : holdsRight s m 1) (ctx : BitVec 8) {v : Nat} (h1 : 1 ≤ v) (h3 : v ≤ 3)
    (hrule : s.ckptRule ctx.toNat v = none) : s.write1 m 0x8002 1 ctx.toNat v = .next ((written s m).ckptDo ctx.toNat v) :=
  h.command (itemRow_ckptCmd ctx) rfl rfl (.inl h4) (by decide) hr (show v < 256 by omega) h1 (by rintro _ ⟨⟩; exact h3)
    (by simp [State.rowRule, State.ruleOf, sealedObj]) hrule fun _ => rfl

theorem Heard.fatalClear (h4 : s.dev.mgmt ≠ 4) (hr : holdsRight s m 1) :
    s.write1 m 0x9001 2 0 1 = .next ((written s m).modErr fun g => { g with fatal := [] }) :=
  h.command itemRow_fatalClear rfl rfl (.inl h4) (by decide) hr (by decide) (by decide) (by rintro _ ⟨⟩; decide)
    (by simp [State.rowRule, State.ruleOf, sealedObj]) rfl fun _ => rfl

theorem Heard.fenceDie (h4 : s.dev.mgmt ≠ 4) (hr : holdsRight s m 1) {die : Nat} (hd : die < 4)
    (hfree : ∀ d, d < 4 → s.dieFenced d = false ∧ s.dieInReset d = false) :
    s.write1 m 0x9003 2 0 die = .next ((written s m).fenceDie die) := by
  have hall : ((List.range 4).all fun d => !s.dieFenced d && !s.dieInReset d) = true := by
    simpa using hfree
  refine h.command itemRow_fenceDie rfl rfl (.inl h4) (by decide) hr (show die < 256 by omega) (Nat.zero_le _)
    (by rintro _ ⟨⟩; omega) (by simp [State.rowRule, State.ruleOf, sealedObj]) ?_ fun _ => rfl
  show must _ stFenced = none
  rw [hall]
  rfl

end

end Sys2Proof.Machine

/-! PROOFS. The one-row management commands: stored rows, the cap while steps end, and resets (14 R400, R407; 15 R418, R422-R426). -/

namespace Sys2Proof.Machine

/-! ### Rows that are stored (10 R285; 12 R356; 14 R407; 15 R418, R434) -/

/-- CTX_ENABLE. -/
theorem itemRow_ctxEnable (ctx : BitVec 8) : ItemRow ⟨0x5000, 1, 11, 256, [1], 1, 0, 0, some 1⟩ 0x5000 1 ctx.toNat :=
  .of_objRow rfl ctx.isLt (by decide)
/-- POWER_CAP. -/
theorem itemRow_powerCap : ItemRow ⟨0x2101, 3, 3, 1, [2], 1, 3700, 1200, some 3700⟩ 0x2101 3 0 := .of_objRow rfl (by decide) (by decide)
/-- HOST_VSET. -/
theorem itemRow_hostVset : ItemRow ⟨0x2001, 1, 3, 1, [2], 2, 0, 0, some 1100⟩ 0x2001 1 0 := .of_objRow rfl (by decide) (by decide)
/-- JOIN_OUT. -/
theorem itemRow_joinOut (ctx : BitVec 8) : ItemRow ⟨0x7004, 1, 11, 256, [2, 1, 1], 1, 0, 0, none⟩ 0x7004 1 ctx.toNat :=
  .of_objRow rfl ctx.isLt (by decide)
/-- IMG_OVERRIDE. -/
theorem itemRow_imgOverride : ItemRow ⟨0xA004, 1, 9, 1, [64], 1, 0, 0, none⟩ 0xA004 1 0 := .of_objRow rfl (by decide) (by decide)

/-- `s` once a WRITE has passed its checks and stored `data` in the one element it names, before what it sets going. -/
def stored (s : State) (m : MgmtHdr) (ix sub row data : Nat) : State :=
  ((answered_ s m (s.mgmtReply m 0x03 stOk 0xFF [])).setObj ix sub row 0 data).count 0x1202 3

theorem tblWf_stored {s : State} (hwf : tblWf s.mg.objs = true) (m : MgmtHdr) (ix sub row data : Nat) :
    tblWf (stored s m ix sub row data).mg.objs = true :=
  State.tblWf_setObj (State.tblWf_setObj hwf _ _ _ _ _) _ _ _ _ _

/-- The element holds what was written. -/
theorem obj_stored {s : State} (hwf : tblWf s.mg.objs = true) (m : MgmtHdr) {ix sub row data : Nat}
    (hne : okey ix sub row 0 ≠ okey 0x1202 3 0 0) : (stored s m ix sub row data).obj ix sub row = data :=
  (State.obj_count_of_ne _ _ _ _ _ hne).trans (State.obj_setObj_self (s := answered_ s m (s.mgmtReply m 0x03 stOk 0xFF [])) hwf _ _ _ _ _)

/-- The WRITE counts. -/
theorem obj_stored_writes {s : State} (hwf : tblWf s.mg.objs = true) (m : MgmtHdr) {ix sub row data : Nat}
    (hne : okey 0x1202 3 0 0 ≠ okey ix sub row 0) : (stored s m ix sub row data).obj 0x1202 3 = (s.obj 0x1202 3 + 1) % 2 ^ 64 := by
  have hw : tblWf ((answered_ s m (s.mgmtReply m 0x03 stOk 0xFF [])).setObj ix sub row 0 data).mg.objs = true :=
    State.tblWf_setObj hwf _ _ _ _ _
  rw [stored, State.obj_count_self hw, State.obj_setObj_of_ne _ _ _ _ _ _ hne]
  rfl

section
variable {s : State} {m : MgmtHdr} (h : Heard s m)
include h

/-- A stored object of one column is stored, and what its write sets going follows. -/
theorem Heard.store {r : ObjRow} {ix sub row data w : Nat} (hi : ItemRow r ix sub row) (ha : r.acc = 1 ∨ r.acc = 2) (hc : r.cols = [w])
    (hw : MayWrite s m r data) (hd : data < 2 ^ (8 * w)) (hrow : s.rowRule (s.setObj ix sub row 0 data) ix sub row = none)
    (hact : ∀ t v, s.actRule t ix sub row v = none) (hdo : ∀ u v, State.actDo u ix sub row v = u) :
    s.write1 m ix sub row data = .next (s.after (stored s m ix sub row data) ix sub row) := by
  have hstage (u : State) : u.stageItem (item1 ix sub row data) = u.setObj ix sub row 0 data := by
    rw [State.stageItem_stored hi _ _ ha, hc]
    show u.setObj ix sub row 0 (itemElem r data 0 0) = _
    rw [itemElem_single hc hd]
  rw [h.write1_ok (by rw [hw.itemRule hi, hstage, hrow]; exact hact _ _), State.itemDo_item1 hi, hstage, hdo]
  rfl

end

theorem State.profile_setObj (s : State) {ix sub row data : Nat} (hne : okey 0x2101 1 0 0 ≠ okey ix sub row 0) :
    (s.setObj ix sub row 0 data).profile = s.profile := by
  unfold State.profile
  rw [State.obj_setObj_of_ne _ _ _ _ _ _ hne]
  rfl

/-! ### A context comes to exist (10 R285) -/

theorem State.unitAlloc_kept {s t : State} {ctx die f : Nat} {u : SlabUse} (h : s.unitAlloc ctx die u = some (f, t)) :
    t.mg = s.mg ∧ t.sec = s.sec := by
  unfold State.unitAlloc at h
  dsimp only at h
  split at h
  · cases h
    exact ⟨rfl, rfl⟩
  · split at h
    · obtain ⟨k, -, hk⟩ := Option.map_eq_some_iff.1 h
      cases hk
      exact ⟨rfl, rfl⟩
    · cases h

theorem State.unitsAlloc_kept {s t : State} {ctx die n : Nat} {u : SlabUse} {fs : List Nat} (h : s.unitsAlloc ctx die u n = some (fs, t)) :
    t.mg = s.mg ∧ t.sec = s.sec := by
  induction n generalizing s fs with
  | zero => cases h; exact ⟨rfl, rfl⟩
  | succ n ih =>
    unfold State.unitsAlloc at h
    split at h
    · cases h
    next f t1 h1 =>
      obtain ⟨⟨gs, t2⟩, h2, ht⟩ := Option.map_eq_some_iff.1 h
      cases ht
      obtain ⟨hmg, hsec⟩ := ih h2
      obtain ⟨hmg1, hsec1⟩ := State.unitAlloc_kept h1
      exact ⟨hmg.trans hmg1, hsec.trans hsec1⟩

/-- A context starts in a new epoch of its own; no object changes. -/
theorem State.ctxStart_kept (s : State) (c : Nat) : (s.ctxStart c).mg = s.mg
    ∧ (s.ctxStart c).sec.epochs = tblIns s.sec.epochs c ((tblGet 0 s.sec.epochs c + 1) % 2 ^ 32) := by
  unfold State.ctxStart
  dsimp only
  split
  next h =>
    obtain ⟨hmg, hsec⟩ := State.unitsAlloc_kept h
    exact ⟨hmg, congrArg Sec.epochs hsec⟩
  · exact ⟨rfl, rfl⟩

section
variable {s : State} {m : MgmtHdr} (h : Heard s m)
include h

theorem Heard.ctxEnable (hwf : tblWf s.mg.objs = true) (hr : holdsRight s m 1) (ctx : BitVec 8) (hm : s.dev.mgmt = 2)
    (hp : s.profile ≠ 2) (hoff : s.obj 0x5000 1 ctx.toNat = 0) :
    s.write1 m 0x5000 1 ctx.toNat 1 = .next ((stored s m 0x5000 1 ctx.toNat 1).ctxStart ctx.toNat) := by
  have hw : MayWrite s m ⟨0x5000, 1, 11, 256, [1], 1, 0, 0, some 1⟩ 1 :=
    ⟨State.accessRule_none (by decide) (.inl (by omega)) (.inl (by decide)) (.inl (by decide)), hr, by decide⟩
  have hrow : s.rowRule (s.setObj 0x5000 1 ctx.toNat 0 1) 0x5000 1 ctx.toNat = none := by
    have hprof : (s.setObj 0x5000 1 ctx.toNat 0 1).profile = s.profile := State.profile_setObj s (by unfold okey; omega)
    simp [State.rowRule, State.ruleOf, State.obj_setObj_self hwf, firstBad, hm, hprof, hp]
  rw [h.store (itemRow_ctxEnable ctx) (.inl rfl) rfl hw (by decide) hrow (fun _ _ => rfl) fun _ _ => rfl]
  have hon : (stored s m 0x5000 1 ctx.toNat 1).obj 0x5000 1 ctx.toNat = 1 := obj_stored hwf m (by unfold okey; omega)
  exact congrArg _ (if_pos (by simp [hon, hoff]))

/-- A context that holds work stays. -/
theorem Heard.ctxEnable_busy (hwf : tblWf s.mg.objs = true) (h4 : s.dev.mgmt ≠ 4) (hr : holdsRight s m 1) (ctx : BitVec 8)
    (hon : s.obj 0x5000 1 ctx.toNat = 1) (hwork : s.holdsWork ctx.toNat = true) :
    s.write1 m 0x5000 1 ctx.toNat 0 = .next (answered_ s m (s.mgmtReply m 0x03 stBusy 0 [])) := by
  have hi := itemRow_ctxEnable ctx
  have hw : MayWrite s m ⟨0x5000, 1, 11, 256, [1], 1, 0, 0, some 1⟩ 0 :=
    ⟨State.accessRule_none (by decide) (.inl h4) (.inl (by decide)) (.inl (by decide)), hr, by decide⟩
  have hstage : s.stageItem (item1 0x5000 1 ctx.toNat 0) = s.setObj 0x5000 1 ctx.toNat 0 0 := State.stageItem_stored hi _ _ (.inl rfl)
  refine h.write1_fails ?_ (by decide) (by decide)
  rw [hw.itemRule hi, hstage]
  simp [State.rowRule, State.ruleOf, State.obj_setObj_self hwf, firstBad, hon, hwork]

theorem Heard.powerCap (hwf : tblWf s.mg.objs = true) (h4 : s.dev.mgmt ≠ 4) (hr : holdsRight s m 1) {watts : Nat} (hh : watts % 100 = 0)
    (hlo : 1200 ≤ watts) (hhi : watts ≤ 3700) (hcap : (s.setObj 0x2101 3 0 0 watts).capOk = true) :
    s.write1 m 0x2101 3 0 watts = .next (stored s m 0x2101 3 0 watts).capWaiting := by
  have hd : watts < 65536 := by omega
  have hw : MayWrite s m ⟨0x2101, 3, 3, 1, [2], 1, 3700, 1200, some 3700⟩ watts :=
    ⟨State.accessRule_none (by decide) (.inl h4) (.inl (by decide)) (.inl (by decide)), hr,
      inRange_single rfl hd hlo (by rintro _ ⟨⟩; exact hhi)⟩
  have hrow : s.rowRule (s.setObj 0x2101 3 0 0 watts) 0x2101 3 0 = none := by
    simp [State.rowRule, State.ruleOf, State.obj_setObj_self hwf, firstBad, hh, hcap, sealedObj]
  rw [h.store itemRow_powerCap (.inl rfl) rfl hw hd hrow (fun _ _ => rfl) fun _ _ => rfl]
  rfl

theorem Heard.hostVset (hwf : tblWf s.mg.objs = true) (hm : s.dev.mgmt = 1 ∨ s.dev.mgmt = 3) (hr : holdsRight s m 1) {mv : Nat}
    (hlo : 650 ≤ mv) (hhi : mv ≤ 1100) (h5 : mv % 5 = 0) :
    s.write1 m 0x2001 1 0 mv = .next ((stored s m 0x2001 1 0 mv).hostRailSet mv) := by
  have hd : mv < 65536 := by omega
  have hw : MayWrite s m ⟨0x2001, 1, 3, 1, [2], 2, 0, 0, some 1100⟩ mv :=
    ⟨State.accessRule_none (by decide) (.inl (by omega)) (.inr hm) (.inl (by decide)), hr,
      inRange_single rfl hd (Nat.zero_le _) (by rintro _ ⟨⟩; exact hhi)⟩
  have hrow : s.rowRule (s.setObj 0x2001 1 0 0 mv) 0x2001 1 0 = none := by
    simp [State.rowRule, State.ruleOf, State.obj_setObj_self hwf, must, hlo, h5, sealedObj]
  rw [h.store itemRow_hostVset (.inr rfl) rfl hw hd hrow (fun _ _ => rfl) fun _ _ => rfl]
  show Host.Outcome.next ((stored s m 0x2001 1 0 mv).hostRailSet ((stored s m 0x2001 1 0 mv).obj 0x2001 1)) = _
  rw [obj_stored hwf m (by decide)]

theorem Heard.imgOverride (hm : s.dev.mgmt = 3) (hr : holdsRight s m 5) {v : Nat} (hv : v < 2 ^ 512) :
    s.write1 m 0xA004 1 0 v = .next (stored s m 0xA004 1 0 v) := by
  have hw : MayWrite s m ⟨0xA004, 1, 9, 1, [64], 1, 0, 0, none⟩ v :=
    ⟨State.accessRule_none (by decide) (.inl (by omega)) (.inl (by decide)) (.inr hm), hr, inRange_single rfl hv (Nat.zero_le _) nofun⟩
  rw [h.store itemRow_imgOverride (.inl rfl) rfl hw hv (by simp [State.rowRule, State.ruleOf, sealedObj]) (fun _ _ => rfl) fun _ _ => rfl]
  rfl

/-- Outside SERVICE the override may not be written. -/
theorem Heard.imgOverride_state (hm : s.dev.mgmt = 1 ∨ s.dev.mgmt = 2) (v : Nat) :
    s.write1 m 0xA004 1 0 v = .next (answered_ s m (s.mgmtReply m 0x03 stMgmtState 0 [])) := by
  have hacc : s.accessRule ⟨0xA004, 1, 9, 1, [64], 1, 0, 0, none⟩ = some stMgmtState := by
    rcases hm with hm | hm <;> simp [State.accessRule, firstBad, hm]
  refine h.write1_fails ?_ (by decide) (by decide)
  rw [State.itemRule_item1 itemRow_imgOverride, hacc]
  rfl

end

/-! ### A row of JOIN_OUT that is not armed (12 R356) -/

/-- The three columns of a row of JOIN_OUT that is not armed, from the bytes of its item. -/
theorem itemElem_joinOut (peer : BitVec 16) (pc : BitVec 8) :
    let r : ObjRow := ⟨0x7004, 1, 11, 256, [2, 1, 1], 1, 0, 0, none⟩
    let data := peer.toNat + pc.toNat * 2 ^ 16 + b2n false * 2 ^ 24
    itemElem r data 0 0 = peer.toNat ∧ itemElem r data 0 1 = pc.toNat ∧ itemElem r data 0 2 = 0 := by
  have hpeer := peer.isLt
  have hpc := pc.isLt
  simp [itemElem, b2n, ObjRow.rowBytes]
  omega

/-- `s` with the three columns of a row set. -/
def State.setRow3 (s : State) (ix sub row a b c : Nat) : State :=
  ((s.setObj ix sub row 0 a).setObj ix sub row 1 b).setObj ix sub row 2 c

theorem State.obj_setRow3 {s : State} (hwf : tblWf s.mg.objs = true) (ix sub row a b c : Nat) :
    let t := s.setRow3 ix sub row a b c
    t.obj ix sub row 0 = a ∧ t.obj ix sub row 1 = b ∧ t.obj ix sub row 2 = c := by
  have h1 : tblWf (s.setObj ix sub row 0 a).mg.objs = true := State.tblWf_setObj hwf _ _ _ _ _
  have h2 : tblWf ((s.setObj ix sub row 0 a).setObj ix sub row 1 b).mg.objs = true := State.tblWf_setObj h1 _ _ _ _ _
  have hne {c1 c2 : Nat} (h : c1 ≠ c2) : okey ix sub row c1 ≠ okey ix sub row c2 := by unfold okey; omega
  refine ⟨?_, ?_, State.obj_setObj_self h2 _ _ _ _ _⟩
  · exact (State.obj_setObj_of_ne _ _ _ _ _ _ (hne (by decide))).trans
      ((State.obj_setObj_of_ne _ _ _ _ _ _ (hne (by decide))).trans (State.obj_setObj_self hwf _ _ _ _ _))
  · exact (State.obj_setObj_of_ne _ _ _ _ _ _ (hne (by decide))).trans (State.obj_setObj_self h1 _ _ _ _ _)

/-- A row of JOIN_OUT that is not armed is stored, and sends nothing. -/
theorem Heard.joinOut {s : State} {m : MgmtHdr} (h : Heard s m) (hwf : tblWf s.mg.objs = true) (h4 : s.dev.mgmt ≠ 4)
    (hr : holdsRight s m 1) (ctx : BitVec 8) (peer : BitVec 16) (pc : BitVec 8) :
    let u := ((answered_ s m (s.mgmtReply m 0x03 stOk 0xFF [])).setRow3 0x7004 1 ctx.toNat peer.toNat pc.toNat 0).count 0x1202 3
    exec (.joinOut m ctx peer pc false) s = .next u := by
  intro u
  have hi := itemRow_joinOut ctx
  obtain ⟨he0, he1, he2⟩ := itemElem_joinOut peer pc
  have hstage (t : State) : t.stageItem (item1 0x7004 1 ctx.toNat (peer.toNat + pc.toNat * 2 ^ 16 + b2n false * 2 ^ 24))
      = t.setRow3 0x7004 1 ctx.toNat peer.toNat pc.toNat 0 := by
    rw [State.stageItem_stored hi _ _ (.inl rfl)]
    show ((t.setObj _ _ _ 0 (itemElem _ _ 0 0)).setObj _ _ _ 1 (itemElem _ _ 0 1)).setObj _ _ _ 2 (itemElem _ _ 0 2) = _
    rw [he0, he1, he2]
    rfl
  have hw : MayWrite s m ⟨0x7004, 1, 11, 256, [2, 1, 1], 1, 0, 0, none⟩ (peer.toNat + pc.toNat * 2 ^ 16 + b2n false * 2 ^ 24) :=
    ⟨State.accessRule_none (by decide) (.inl h4) (.inl (by decide)) (.inl (by decide)), hr, by simp [inRange]⟩
  have hrow : s.rowRule (s.setRow3 0x7004 1 ctx.toNat peer.toNat pc.toNat 0) 0x7004 1 ctx.toNat = none := by
    obtain ⟨-, -, h2⟩ := State.obj_setRow3 hwf 0x7004 1 ctx.toNat peer.toNat pc.toNat 0
    simp [State.rowRule, State.ruleOf, firstBad, h2, sealedObj]
  have hafter : s.after u 0x7004 1 ctx.toNat = u := by
    have hne : okey 0x7004 1 ctx.toNat 2 ≠ okey 0x1202 3 0 0 := by unfold okey; omega
    obtain ⟨-, -, h2⟩ := State.obj_setRow3 (s := answered_ s m (s.mgmtReply m 0x03 stOk 0xFF [])) hwf 0x7004 1 ctx.toNat peer.toNat pc.toNat 0
    have hu : u.obj 0x7004 1 ctx.toNat 2 = 0 := (State.obj_count_of_ne _ _ _ _ _ hne).trans h2
    exact if_neg (by rw [hu]; decide)
  show s.write1 m 0x7004 1 ctx.toNat _ = _
  rw [h.write1_ok (by rw [hw.itemRule hi, hstage, hrow]; rfl), State.itemDo_item1 hi, hstage, hafter]
  rfl

/-! ### POWER_CAP stays while steps end (15 R434) -/

/-- Object 0x2101.3 reads `v`. -/
def CapIs (v : Nat) (s : State) : Prop := s.obj 0x2101 3 = v

namespace CapIs
variable {v : Nat} {s : State} {α : Type}
theorem modDev (h : CapIs v s) (f : Dev → Dev) : CapIs v (s.modDev f) := h
theorem modErr (h : CapIs v s) (f : Errs → Errs) : CapIs v (s.modErr f) := h
theorem modRun (h : CapIs v s) (f : Run → Run) : CapIs v (s.modRun f) := h
theorem modSes (h : CapIs v s) (f : Ses → Ses) : CapIs v (s.modSes f) := h
theorem modTxt (h : CapIs v s) (f : Txt → Txt) : CapIs v (s.modTxt f) := h
theorem modFab (h : CapIs v s) (f : Fab → Fab) : CapIs v (s.modFab f) := h
theorem modBulk (h : CapIs v s) (f : Bulk → Bulk) : CapIs v (s.modBulk f) := h
theorem modSite (h : CapIs v s) (f : Site → Site) : CapIs v (s.modSite f) := h

theorem place (h : CapIs v s) (q : Nat) (e : CqEntry) : CapIs v (s.place q e) := by
  unfold CapIs State.obj
  rw [State.place_mg]
  exact h

/-- Counters of objects above it are others. -/
theorem count (h : CapIs v s) {ix : Nat} (hix : 0x2101 < ix) (sub row n : Nat) : CapIs v (s.count ix sub row n) :=
  (State.obj_count_of_ne _ _ _ _ _ (by unfold okey; omega)).trans h

theorem ite {c : Prop} [Decidable c] {a b : State} (ha : CapIs v a) (hb : CapIs v b) : CapIs v (if c then a else b) := by
  split <;> assumption

theorem foldl {f : State → α → State} (h : CapIs v s) (l : List α) (hf : ∀ t a, CapIs v t → CapIs v (f t a)) : CapIs v (l.foldl f s) :=
  List.foldlRecOn l f (motive := CapIs v) h fun t ht a _ => hf t a ht

theorem each {f : State → α → State} (h : CapIs v s) (l : List α) (hf : ∀ t a, CapIs v t → CapIs v (f t a)) : CapIs v (s.each l f) :=
  h.foldl l hf

end CapIs

section
variable {v : Nat} {s : State}

theorem CapIs.setQp (hs : CapIs v s) (q : Nat) (p : Qp) : CapIs v (s.setQp q p) := hs.modSite _

theorem CapIs.event (hs : CapIs v s) (q : Nat) (e : CqEntry) : CapIs v (s.event q e) :=
  .ite hs (.ite (hs.place _ _) ((hs.setQp _ _).count (by decide) _ _ _))

theorem CapIs.settle (hs : CapIs v s) (sq q : Nat) (e : CqEntry) : CapIs v (s.settle sq q e) :=
  .ite hs (.ite (hs.count (by decide) _ _ _) ((CapIs.ite ((hs.setQp _ _).setQp _ _) (hs.setQp _ _)).place _ _))

theorem CapIs.otherEvent (hs : CapIs v s) (q ctx code status id value : Nat) : CapIs v (s.otherEvent q ctx code status id value) :=
  hs.event _ _

theorem CapIs.tellDegraded (hs : CapIs v s) (value : Nat) : CapIs v (s.tellDegraded value) := by
  unfold State.tellDegraded
  refine hs.foldl _ fun _ _ ht => ?_
  split
  · exact ht.otherEvent _ _ _ _ _ _
  · exact ht

theorem CapIs.degrade (hs : CapIs v s) : CapIs v s.degrade := (CapIs.ite hs (hs.tellDegraded _)).modErr _

theorem CapIs.record (hs : CapIs v s) (e : ErrIn) : CapIs v (s.record e) := by
  unfold State.record
  refine .ite ?_ ?_
  · refine CapIs.degrade ?_
    split
    · exact (hs.count (by decide) _ _ _).modErr _
    · exact .ite (((hs.count (by decide) _ _ _).modErr _).count (by decide) _ _ _) ((hs.count (by decide) _ _ _).modErr _)
  · split
    · exact (hs.count (by decide) _ _ _).modErr _
    · exact .ite (((hs.count (by decide) _ _ _).modErr _).count (by decide) _ _ _) ((hs.count (by decide) _ _ _).modErr _)

theorem CapIs.fatal (hs : CapIs v s) (code source unit addr : Nat) : CapIs v (s.fatal code source unit addr) :=
  .ite (hs.record _) ((hs.record _).modDev _)

theorem CapIs.charge (hs : CapIs v s) (c r : Nat) (n : ℤ) : CapIs v (s.charge c r n) := hs.modRun _

theorem CapIs.unitFree (hs : CapIs v s) (f : Nat) : CapIs v (s.unitFree f) := by
  unfold State.unitFree
  dsimp only
  split
  · exact hs
  · exact hs.modSes _

theorem CapIs.unitsFree (hs : CapIs v s) (fs : List Nat) : CapIs v (s.unitsFree fs) := hs.each _ (fun _ _ ht => ht.unitFree _)

theorem CapIs.setSess (hs : CapIs v s) (h : Nat) (x : Session) : CapIs v (s.setSess h x) := hs.modSes _

theorem CapIs.updSess (hs : CapIs v s) (h : Nat) (f : Session → Session) : CapIs v (s.updSess h f) := hs.modSes _

theorem CapIs.devUe (hs : CapIs v s) (l : Nat) : CapIs v (s.devUe l) := ((hs.count (by decide) _ _ _).modErr _).fatal _ _ _ _

theorem CapIs.devRead (hs : CapIs v s) (a n : Nat) : CapIs v (s.devRead a n) := by
  unfold State.devRead
  split
  · exact hs.devUe _
  · exact hs

theorem CapIs.updLease (hs : CapIs v s) (ctx l : Nat) (f : Lease → Lease) : CapIs v (s.updLease ctx l f) := hs.modSes _

theorem CapIs.runFree (hs : CapIs v s) (ctx l o : Nat) : CapIs v (s.runFree ctx l o) := by
  unfold State.runFree
  split
  · exact (hs.updLease _ _ _).updLease _ _ _
  · exact hs.updLease _ _ _

theorem CapIs.copyFree (hs : CapIs v s) (ctx : Nat) (e : Pte) : CapIs v (s.copyFree ctx e) :=
  .ite (hs.unitFree _) (.ite (hs.runFree _ _ _) hs)

theorem CapIs.entFree (hs : CapIs v s) (ctx : Nat) (e : Pte) : CapIs v (s.entFree ctx e) :=
  .ite (hs.copyFree _ _) (.ite (hs.unitFree _) hs)

theorem CapIs.orphan (hs : CapIs v s) (p : Purpose → Bool) : CapIs v (s.orphan p) := hs.modBulk _

theorem CapIs.ringOrphan (hs : CapIs v s) (n : Nat) : CapIs v (s.ringOrphan n) := hs.orphan _

theorem CapIs.ringSilent (hs : CapIs v s) (n : Nat) : CapIs v (s.ringSilent n) := (hs.modBulk _).ringOrphan _

theorem CapIs.setFlow (hs : CapIs v s) (node : Nat) (f : Flow) : CapIs v (s.setFlow node f) := hs.modBulk _

theorem CapIs.updFlow (hs : CapIs v s) (node : Nat) (f : Flow → Flow) : CapIs v (s.updFlow node f) := hs.modBulk _

theorem CapIs.lwPut (hs : CapIs v s) (node r : Nat) (w : Option LwRec) : CapIs v (s.lwPut node r w) :=
  hs.modSes _

theorem CapIs.evict (hs : CapIs v s) (node : Nat) : CapIs v (s.evict node) := by
  unfold State.evict
  split
  · exact hs
  · exact (CapIs.ite (((hs.modBulk _).lwPut _ _ _).lwPut _ _ _) ((hs.modBulk _).lwPut _ _ _)).count (by decide) _ _ _

theorem CapIs.flowLoad (hs : CapIs v s) (node : Nat) : AllSome (CapIs v) (s.flowLoad node) := by
  unfold State.flowLoad
  dsimp only
  split
  · exact .some ((hs.modBulk _).setFlow _ _)
  · exact .ite (.some (((hs.modBulk _).devRead _ _).setFlow _ _)) (.map_any fun _ => (((hs.modBulk _).evict _).devRead _ _).setFlow _ _)

theorem CapIs.bulkIssue {s0 : State} (hs : CapIs v s0) (node : Nat) (m0 : BulkMsg) : CapIs v (s0.bulkIssue node m0) := by
  unfold State.bulkIssue
  dsimp only
  split
  next he => exact ((hs.modFab _).flowLoad _ _ he).updFlow _ _
  · exact (hs.modFab _).modBulk _

theorem CapIs.adRetire (hs : CapIs v s) (ctx a : Nat) : CapIs v (s.adRetire ctx a) := by
  unfold State.adRetire
  split
  · exact hs
  · exact (hs.modSes _).each _ (fun _ _ ht => ht.otherEvent _ _ _ _ _ _)

theorem CapIs.adPin (hs : CapIs v s) (ctx a : Nat) (d : ℤ) (version : Nat) : CapIs v (s.adPin ctx a d version) :=
  hs.modSes _

theorem CapIs.commitPage (p : Step) (i : Nat) (e : SeqEnt) (g j : Nat) (hs : CapIs v s) : CapIs v
    (State.commitPage p i e g j s) := by
  unfold State.commitPage
  split
  · exact hs
  · exact .ite hs (.ite (hs.setSess _ _) (.ite ((hs.copyFree _ _).updSess _ _) hs))

theorem CapIs.zeroSlots (hs : CapIs v s) (b : BindRec) (c : Pte) (k m : Nat) : CapIs v (s.zeroSlots b c k m) :=
  hs.modSes _

theorem CapIs.unappend (p : Step) (hs : CapIs v s) (a : AppendLog) : CapIs v (State.unappend p s a) := by
  unfold State.unappend
  dsimp only
  split
  · exact hs
  · exact .ite (hs.zeroSlots _ _ _ _) hs

theorem CapIs.undoPage (hs : CapIs v s) (u : UndoPage) : CapIs v (s.undoPage u) := by
  unfold State.undoPage
  split
  · exact hs
  · exact .ite ((hs.entFree _ _).updSess _ _) (.ite hs (hs.setSess _ _))

theorem CapIs.endRes (hs : CapIs v s) (n : Nat) (p : Step) (bad : Bool) : CapIs v (s.endRes n p bad) := by
  unfold State.endRes
  refine CapIs.foldl ?_ _ (fun _ _ ht => ht.updSess _ _)
  refine .ite ((hs.each _ (fun _ _ ht => ht.unappend _ _)).each _ (fun _ _ ht => ht.undoPage _)) ?_
  refine hs.foldl _ fun _ _ ht => ?_
  split
  · exact ht.foldl _ (fun _ _ hu => hu.foldl _ (fun _ _ hv => hv.commitPage _ _ _ _ _))

theorem CapIs.unpin (hs : CapIs v s) (h : Nat) : CapIs v (s.unpin h) := by
  unfold State.unpin
  split
  · exact hs
  · exact .ite (hs.setSess _ _) (hs.setSess _ _)

theorem CapIs.sendPost (hs : CapIs v s) (p : Step) (q : Post) : CapIs v (s.sendPost p q) :=
  .ite (hs.modTxt _) (.ite (hs.count (by decide) _ _ _) (hs.event _ _))

theorem CapIs.stepEntry (hs : CapIs v s) (sq cq ctx : Nat) (d : StepDesc) (status cycles discarded : Nat) (at_ : Option (Nat × Nat))
    (head : Nat) : CapIs v (s.stepEntry sq cq ctx d status cycles discarded at_ head) :=
  hs.settle _ _ _

theorem CapIs.lastCredits (hs : CapIs v s) (p : Step) : CapIs v (s.lastCredits p) := by
  unfold State.lastCredits
  split
  · exact .ite hs (hs.foldl _ (fun _ _ ht => ht.bulkIssue _ _))
  · exact hs

theorem CapIs.endOne (hs : CapIs v s) (n : Nat) (p : Step) (status : Nat) (at_ : Option (Nat × Nat)) :
    CapIs v (s.endOne n p status at_) := by
  unfold State.endOne
  extract_lets q s1 s2 s3 s4 s5 s6
  have h4 : CapIs v s4 := (((hs.modRun _).each _ fun _ _ ht => ht.sendPost _ _).endRes _ _ _).each _ fun _ _ ht => ht.unpin _
  have h5 : CapIs v s5 := by
    unfold s5
    split
    · exact h4.unitsFree _
    · exact h4
  have h6 : CapIs v s6 := .ite h5 (h5.charge _ _ _)
  exact (CapIs.ite (h6.ringSilent _) ((h6.lastCredits _).ringOrphan _)).stepEntry _ _ _ _ _ _ _ _ _

theorem CapIs.endJob (hs : CapIs v s) (j : Nat) : CapIs v (s.endJob j) := by
  unfold State.endJob
  split
  · exact hs
  · exact (hs.foldl _ (fun _ _ ht => (ht.adPin _ _ _ _).adRetire _ _)).modRun _

theorem CapIs.preempt (hs : CapIs v s) (n : Nat) : CapIs v (s.preempt n) := by
  unfold State.preempt
  split
  · exact hs
  · exact (hs.modRun _).count (by decide) _ _ _

theorem CapIs.resume (hs : CapIs v s) (c : Nat) (ends : Bool) : CapIs v (s.resume c ends) :=
  (CapIs.ite hs (hs.each _ (fun _ _ ht => ht.preempt _))).modRun _

theorem CapIs.endStep (hs : CapIs v s) (n status : Nat) (at_ : Option (Nat × Nat)) : CapIs v (s.endStep n status at_) := by
  unfold State.endStep
  split
  · exact hs
  · exact (CapIs.ite (((hs.endOne _ _ _ _).foldl _ (fun _ _ ht => ht.endOne _ _ _ _)).endJob _)
      (.ite ((hs.endOne _ _ _ _).endJob _) (hs.endOne _ _ _ _))).resume _ _

theorem CapIs.capWaiting (hs : CapIs v s) : CapIs v s.capWaiting := by
  unfold State.capWaiting
  exact .ite hs (hs.foldl _ fun _ _ ht => ht.endStep _ _ _)

end

/-! ### The rules of a reset command (15 R423, R436) -/

section
variable {s : State} (h4 : s.dev.mgmt ≠ 4) (hact : s.mg.act = none)
include h4 hact

theorem State.resetRule_plinth (hq : s.quiescing = false) : s.resetRule 2 = none := by
  simp [State.resetRule, h4, hact, hq, must]

theorem State.resetRule_die {d : Nat} (hd : d < 4) (hr : s.dieInReset d = false) : s.resetRule (0x10 + d) = none := by
  have h1 : ¬0x10 + d = 1 := by omega
  have h2 : ¬0x10 + d = 2 := by omega
  have hdie : 0x10 ≤ 0x10 + d ∧ 0x10 + d < 0x14 := by omega
  simp only [State.resetRule, h4, hact, h1, h2, hdie, hr, Nat.add_sub_cancel_left, must, Option.any_none]
  simp

theorem State.resetRule_port {p : Nat} (hp : p < 18) (hr : s.portInReset p = false) : s.resetRule (0x20 + p) = none := by
  have h1 : ¬0x20 + p = 1 := by omega
  have h2 : ¬0x20 + p = 2 := by omega
  have hdie : ¬(0x10 ≤ 0x20 + p ∧ 0x20 + p < 0x14) := by omega
  have hport : 0x20 ≤ 0x20 + p ∧ 0x20 + p < 0x32 := by omega
  simp only [State.resetRule, h4, hact, h1, h2, hdie, hport, hr, Nat.add_sub_cancel_left, must, Option.any_none]
  simp

end

theorem State.resetDo_die (s : State) {d : Nat} (hd : d < 4) : s.resetDo (0x10 + d) = s.resetDie d := by
  have h1 : ¬0x10 + d = 1 := by omega
  have h2 : ¬0x10 + d = 2 := by omega
  have hdie : 0x10 + d < 0x20 := by omega
  simp only [State.resetDo, h1, h2, hdie, if_false, if_true, Nat.add_sub_cancel_left]

theorem State.resetDo_port (s : State) (p : Nat) : s.resetDo (0x20 + p) = s.resetPort p := by
  have h1 : ¬0x20 + p = 1 := by omega
  have h2 : ¬0x20 + p = 2 := by omega
  have hport : ¬0x20 + p < 0x20 := by omega
  simp only [State.resetDo, h1, h2, hport, if_false, Nat.add_sub_cancel_left]

/-! ### The rows -/

section
variable {s : State} {m : MgmtHdr} (h : Heard s m) (hr : holdsRight s m 1) (h4 : s.dev.mgmt ≠ 4)
include h hr h4

theorem Heard.exec_ckptCheckpoint (ctx : BitVec 8) {t u : State} (ht : s.ckptStart ctx.toNat 0 = .ok t)
    (hu : (written s m).ckptStart ctx.toNat 0 = .ok u) : exec (.ckptCheckpoint m ctx) s = .next u := by
  show s.write1 m 0x8002 1 ctx.toNat 1 = _
  rw [h.ckptCmd h4 hr ctx (by decide) (by decide) (by simp [State.ckptRule, ht])]
  simp [State.ckptDo, hu]

theorem Heard.exec_ckptRestore (ctx : BitVec 8) {t u : State} (ht : s.restoreStart ctx.toNat = .ok t)
    (hu : (written s m).restoreStart ctx.toNat = .ok u) : exec (.ckptRestore m ctx) s = .next u := by
  show s.write1 m 0x8002 1 ctx.toNat 2 = _
  rw [h.ckptCmd h4 hr ctx (by decide) (by decide) (by simp [State.ckptRule, ht])]
  simp [State.ckptDo, hu]

omit h4 in
theorem Heard.exec_ctxEnable (hwf : tblWf s.mg.objs = true) (ctx : BitVec 8) (hm : s.dev.mgmt = 2) (hp : s.profile ≠ 2)
    (hoff : s.obj 0x5000 1 ctx.toNat = 0) : ∃ t, exec (.ctxEnable m ctx 1) s = .next t
      ∧ t.obj 0x5000 1 ctx.toNat = 1 ∧ t.obj 0x1202 3 = (s.obj 0x1202 3 + 1) % 2 ^ 64
      ∧ tblFind t.sec.epochs ctx.toNat = some ((tblGet 0 s.sec.epochs ctx.toNat + 1) % 2 ^ 32) := by
  refine ⟨_, h.ctxEnable hwf hr ctx hm hp hoff, ?_⟩
  obtain ⟨hmg, hep⟩ := State.ctxStart_kept (stored s m 0x5000 1 ctx.toNat 1) ctx.toNat
  rw [State.obj, hmg, State.obj, hmg, hep, tblFind_tblIns_self]
  exact ⟨obj_stored hwf m (by unfold okey; omega), obj_stored_writes hwf m (by unfold okey; omega), rfl⟩

omit h4 in
theorem Heard.exec_hostVset (hwf : tblWf s.mg.objs = true) (mv : BitVec 16) (hm : s.dev.mgmt = 1 ∨ s.dev.mgmt = 3) (hlo : 650 ≤ mv.toNat)
    (hhi : mv.toNat ≤ 1100) (h5 : mv.toNat % 5 = 0) (hrail : s.dev.hostRail = 0) :
    ∃ t, exec (.hostVset m mv) s = .next t ∧ t.obj 0x2001 1 = mv.toNat ∧ t.dev.hostRail = 2 ∧ t.site.bringing = true := by
  have hset : (stored s m 0x2001 1 0 mv.toNat).hostRailSet mv.toNat = ((stored s m 0x2001 1 0 mv.toNat).modDev fun d =>
      { d with hostRail := 2 }).modSite fun g => { g with bringing := true, retryAt := none } := by
    have hoff : ¬(stored s m 0x2001 1 0 mv.toNat).dev.hostRail = 2 := fun he => absurd (hrail.symm.trans he) (by decide)
    rw [State.hostRailSet, if_neg (by omega), if_neg hoff]
  refine ⟨_, h.hostVset hwf hm hr hlo hhi h5, ?_⟩
  rw [hset]
  exact ⟨obj_stored hwf m (by decide), rfl, rfl⟩

theorem Heard.exec_joinOut (hwf : tblWf s.mg.objs = true) (ctx : BitVec 8) (peer : BitVec 16) (pc : BitVec 8) :
    ∃ t, exec (.joinOut m ctx peer pc false) s = .next t ∧ t.obj 0x7004 1 ctx.toNat 0 = peer.toNat
      ∧ t.obj 0x7004 1 ctx.toNat 1 = pc.toNat ∧ t.obj 0x7004 1 ctx.toNat 2 = 0 := by
  refine ⟨_, h.joinOut hwf h4 hr ctx peer pc, ?_⟩
  obtain ⟨h0, h1, h2⟩ := State.obj_setRow3 (s := answered_ s m (s.mgmtReply m 0x03 stOk 0xFF [])) hwf 0x7004 1 ctx.toNat peer.toNat pc.toNat 0
  have hne (c : Nat) : okey 0x7004 1 ctx.toNat c ≠ okey 0x1202 3 0 0 := by unfold okey; omega
  exact ⟨(State.obj_count_of_ne _ _ _ _ _ (hne 0)).trans h0, (State.obj_count_of_ne _ _ _ _ _ (hne 1)).trans h1,
    (State.obj_count_of_ne _ _ _ _ _ (hne 2)).trans h2⟩

theorem Heard.exec_diePartialReset {d : Nat} (hd : d < 4) (hin : s.dieInReset d = false) (hact : s.mg.act = none) :
    exec (.diePartialReset m d) s = .next ((written s m).resetDie d) := by
  show s.write1 m 0x2100 1 0 (0x10 + min d 15) = _
  rw [Nat.min_eq_left (by omega), h.resetCmd hr (by omega) (State.resetRule_die h4 hact hd hin), State.resetDo_die _ hd]

theorem Heard.exec_portPartialReset {p : Nat} (hp : p < 18) (hin : s.portInReset p = false) (hact : s.mg.act = none) :
    exec (.portPartialReset m p) s = .next ((written s m).resetPort p) := by
  show s.write1 m 0x2100 1 0 (0x20 + min p 31) = _
  rw [Nat.min_eq_left (by omega), h.resetCmd hr (by omega) (State.resetRule_port h4 hact hp hin), State.resetDo_port]

end

/-- Settles O54: each row is a WRITE of one item, which passes the checks of R398 and then acts; POWER_CAP is still read back where the
lowered cap has ended steps. -/
theorem managementCommandsAct : Obligations.ManagementCommandsAct := by
  unfold Obligations.ManagementCommandsAct
  intro s m h hwf w
  refine ⟨fun hr hm hc => ?_, fun hr hm hu => ?_, fun hr hm => ?_, fun hr hm hu => ?_, fun hr h4 => ?_, fun hr => ?_,
    fun v _ hm _ => h.imgOverride_state hm v, fun v hv hm hr => ?_⟩
  · exact h.mgmtCmd (by omega) hr (by decide) (by simp [State.cmdRule, hm, hc, must])
  · exact h.mgmtCmd (by omega) hr (by decide) (by simp [State.cmdRule, hm, hu, must])
  · exact h.mgmtCmd (by omega) hr (by decide) (by simp [State.cmdRule, hm])
  · exact h.mgmtCmd (by omega) hr (by decide) (by simp [State.cmdRule, hm, hu, must])
  · refine ⟨h.quoteNonce h4 hr, fun ctx => h.ckptCmd h4 hr ctx (by decide) (by decide) rfl, fun ctx t u => h.exec_ckptCheckpoint hr h4 ctx,
      fun ctx t u => h.exec_ckptRestore hr h4 ctx, fun die hd hfree => h.fenceDie h4 hr hd hfree, h.fatalClear h4 hr,
      fun ctx => h.exec_ctxEnable hr hwf ctx, fun ctx _ => h.ctxEnable_busy hwf h4 hr ctx, fun watts hh hlo hhi hcap => ?_,
      fun mv => h.exec_hostVset hr hwf mv, h.exec_joinOut hr h4 hwf, fun hq hact => ?_, fun d => h.exec_diePartialReset hr h4,
      fun p => h.exec_portPartialReset hr h4⟩
    · have hcap0 : CapIs watts.toNat (stored s m 0x2101 3 0 watts.toNat) := obj_stored hwf m (by decide)
      exact ⟨_, h.powerCap hwf h4 hr hh hlo hhi hcap, hcap0.capWaiting⟩
    · exact h.resetCmd hr (by decide) (State.resetRule_plinth h4 hact hq)
  · exact h.resetCmd hr (by decide) (by simp [State.resetRule])
  · exact ⟨_, h.imgOverride hm hr hv, obj_stored hwf m (by decide)⟩

end Sys2Proof.Machine

/-! PROOFS. Firmware images (14 R408-R411). -/

namespace Sys2Proof.Machine

/-! ### Chunks of an image (14 R408) -/

theorem exec_imgData (m : MgmtHdr) (kind : BitVec 8) (off : W32) (data : List Byte) (s : State) : exec (.imgData m kind off data) s =
    s.mgmtMsg m 0x04 (decide (kind.toNat ≤ 4) && off.toNat % 1024 == 0 && decide (1 ≤ data.length) && decide (data.length ≤ 1024))
      fun t r => t.imgPlan kind.toNat off.toNat data r := rfl

section
variable {s : State} {k off rights : Nat} {data : List Byte} (hr : bit rights 3 = true) (h4 : s.dev.mgmt ≠ 4) (hk : s.activating k = false)
include hr h4 hk

/-- The first chunk starts the image anew. -/
theorem State.imgPlan_first (h0 : off = 0) : s.imgPlan k off data rights = planOk fun t => t.imgStore k data := by
  simp only [State.imgPlan, hr, h4, hk, h0, Bool.not_true, Bool.false_eq_true, if_false, if_true]

/-- A chunk that has come before is not stored again. -/
theorem State.imgPlan_again (h0 : off ≠ 0) (hlt : off < (s.mg.stage.getD k ⟨0, [], 0⟩).bytes.length) :
    s.imgPlan k off data rights = planBad stDup 0xFF := by
  simp only [State.imgPlan, hr, h4, hk, h0, hlt, Bool.not_true, Bool.false_eq_true, if_false, if_true]

/-- The chunk that follows is stored behind the bytes before it. -/
theorem State.imgPlan_next (h0 : off ≠ 0) (heq : off = (s.mg.stage.getD k ⟨0, [], 0⟩).bytes.length)
    (hst : (s.mg.stage.getD k ⟨0, [], 0⟩).state = 1) (hc : imgComplete k (s.mg.stage.getD k ⟨0, [], 0⟩).bytes = false)
    (hmax : off + data.length ≤ imgMax k) :
    s.imgPlan k off data rights = planOk fun t => t.imgStore k ((s.mg.stage.getD k ⟨0, [], 0⟩).bytes ++ data) := by
  have hlt : ¬off < (s.mg.stage.getD k ⟨0, [], 0⟩).bytes.length := heq ▸ Nat.lt_irrefl _
  have hgt : ¬(s.mg.stage.getD k ⟨0, [], 0⟩).bytes.length < off := heq ▸ Nat.lt_irrefl _
  simp only [State.imgPlan, hr, h4, hk, h0, hlt, hgt, hst, hc, Nat.not_lt.2 hmax, Bool.not_true, bne_self_eq_false, decide_false,
    Bool.or_self, Bool.false_eq_true, if_false]

end

/-! ### Verification (14 R408) -/

theorem exec_imageVerified {s : State} {k : Nat} {st : StageSt} (hk : k < 5) (hp : s.powered = true) (hg : s.mg.stage[k]? = some st)
    (h1 : st.state = 1) (hc : imgComplete k st.bytes = true) :
    let r := if !s.imgOk k st.bytes then stImage else if k < 4 && !s.levelOk st.bytes then stVersion else stOk
    exec (.imageVerified k) s = .next (s.modMg fun g => { g with stage := g.stage.set k ⟨if r = stOk then 2 else 3, st.bytes, r⟩ }) := by
  have hget : s.mg.stage.getD k ⟨0, [], 0⟩ = st := by rw [List.getD_eq_getElem?_getD, hg, Option.getD_some]
  show execImageVerified k s = _
  simp only [execImageVerified, Nat.not_le.2 hk, hget, hp, h1, hc, Bool.not_true, bne_self_eq_false, Bool.or_self, Bool.false_eq_true, if_false]

/-- The image passes, and its result is ST_OK, where its checks hold. -/
theorem verified_iff {ok low lv : Bool} :
    (if (if !ok then stImage else if low && !lv then stVersion else stOk) = stOk then 2 else 3) = 2 ↔ ok = true ∧ (low = true → lv = true) := by
  cases ok <;> cases low <;> cases lv <;> decide

/-! ### Activation, discard and commit (14 R409-R411) -/

section
variable {s : State} {m : MgmtHdr} (h : Heard s m) (h4 : s.dev.mgmt ≠ 4) (hr : holdsRight s m 3)
include h h4 hr

theorem Heard.imgActivate {k : Nat} (hk : k ≤ 4) (hrule : s.activateRule k = none) :
    s.write1 m 0xA002 1 0 k = .next ((written s m).activateDo k) :=
  h.command itemRow_imgActivate rfl rfl (.inl h4) (by decide) hr (show k < 256 by omega) (Nat.zero_le _) (by rintro _ ⟨⟩; exact hk)
    (by simp [State.rowRule, State.ruleOf, sealedObj]) hrule fun _ => rfl

theorem Heard.imgDiscard {k : Nat} (hk : k ≤ 4) (hact : s.activating k = false) :
    s.write1 m 0xA002 2 0 k = .next ((written s m).modMg fun g => { g with stage := g.stage.set k ⟨0, [], 0⟩ }) := by
  refine h.command itemRow_imgDiscard rfl rfl (.inl h4) (by decide) hr (show k < 256 by omega) (Nat.zero_le _) (by rintro _ ⟨⟩; exact hk)
    (by simp [State.rowRule, State.ruleOf, sealedObj]) ?_ fun _ => rfl
  show must (!s.activating k) stImageBusy = none
  rw [hact]
  rfl

theorem Heard.imgCommit (hrule : s.commitRule = none) : s.write1 m 0xA002 3 0 1 = .next (written s m).commitDo :=
  h.command itemRow_imgCommit rfl rfl (.inl h4) (by decide) hr (by decide) (Nat.zero_le _) (by rintro _ ⟨⟩; decide)
    (by simp [State.rowRule, State.ruleOf, sealedObj]) hrule fun _ => rfl

end

theorem exec_activationDone {s : State} {a : Activation} (ha : s.mg.act = some a) (hl : s.live = true) (ht : a.todo = [])
    (hc : a.current = none) (hq : a.kind = 1 → s.quiescing = false) : exec .activationDone s = .next (s.activated a) := by
  have hk : (a.kind != 1 || !s.quiescing) = true := by simpa [imp_iff_not_or] using hq
  show execActivationDone s = _
  simp only [execActivationDone, ha, hl, ht, hc, hk, List.isEmpty_nil, Option.isNone_none, Bool.and_self, if_true]

/-! ### A drain that lasts too long (14 R409) -/

/-- The steps that hold quads of die `d`. -/
def State.onDie (s : State) (d : Nat) : List (Nat × Step) := s.run.steps.filter fun e => !e.2.waits && e.2.quads.any fun g => g / 64 == d

theorem State.mem_onDie {s : State} {d n : Nat} {p : Step} :
    (n, p) ∈ s.onDie d ↔ (n, p) ∈ s.run.steps ∧ p.waits = false ∧ ∃ g ∈ p.quads, g / 64 = d := by
  simp [State.onDie, List.mem_filter]

theorem exec_activationDrainExpiry {s : State} {a : Activation} {d x : Nat} (ha : s.mg.act = some a) (hl : s.live = true) (hk : a.kind = 2)
    (hc : a.current = some d) (hx : a.drainTill = some x) (hle : x ≤ s.tick) :
    exec .activationDrainExpiry s = .next ((s.onDie d).foldl (fun u e => u.endStep e.1 stFenced none) s).actStep := by
  show execActivationDrainExpiry s = _
  simp [execActivationDrainExpiry, ha, hl, hk, hc, hx, hle, State.onDie]

/-! ### What ends steps starts none -/

/-- From `s` to `t` the table of steps stays one, and no step comes to it. -/
def State.NoNewStep (s t : State) : Prop := tblWf s.run.steps = true → tblWf t.run.steps = true ∧ ∀ n, s.stp n = none → t.stp n = none

namespace State.NoNewStep
variable {s t u : State}

theorem of_steps (h : t.run.steps = s.run.steps) : s.NoNewStep t := fun hw =>
  ⟨h ▸ hw, fun n hn => (congrArg (tblFind · n) h).trans hn⟩

theorem of_run (h : t.run = s.run) : s.NoNewStep t := of_steps (congrArg Run.steps h)

theorem refl (s : State) : s.NoNewStep s := of_run rfl

theorem trans (h : s.NoNewStep t) (h2 : t.NoNewStep u) : s.NoNewStep u := fun hw =>
  ⟨(h2 (h hw).1).1, fun n hn => (h2 (h hw).1).2 n ((h hw).2 n hn)⟩

theorem ite {c : Prop} [Decidable c] (ht : s.NoNewStep t) (hu : s.NoNewStep u) : s.NoNewStep (if c then t else u) := by
  split <;> assumption

theorem foldl {α : Type} {f : State → α → State} (hf : ∀ (t : State) a, t.NoNewStep (f t a)) (l : List α) (s : State) : s.NoNewStep (l.foldl f s) :=
  List.foldlRecOn l f (motive := fun t => s.NoNewStep t) (refl s) fun t ht a _ => ht.trans (hf t a)

end State.NoNewStep

section
variable (s : State)

theorem State.noNewStep_endOne (m : Nat) (p : Step) (st : Nat) (a : Option (Nat × Nat)) : s.NoNewStep (s.endOne m p st a) := fun hw => by
  have hs : (s.endOne m p st a).run.steps = tblDel s.run.steps m := (s.endOne_run m p st a).1
  refine ⟨hs ▸ tblWf_tblDel hw m, fun n hn => ?_⟩
  rw [State.stp, hs]
  by_cases hm : n = m
  · exact hm ▸ tblFind_tblDel_self hw n
  · exact (tblFind_tblDel_of_ne _ hm).trans hn

theorem State.noNewStep_endJob (j : Nat) : s.NoNewStep (s.endJob j) := by
  unfold State.endJob
  split
  · exact .refl _
  next b _ =>
    have hrun : (b.pins.foldl (fun t v => (t.adPin b.ctx v.1 (-1) v.2.1).adRetire b.ctx v.1) s).run = s.run :=
      State.foldl_run (fun t v => (State.adRetire_run _ _ _).trans (State.adPin_run _ _ _ _ _)) _ _
    have hsteps := congrArg Run.steps hrun
    exact .of_steps hsteps

/-- A pre-empted course is one that is there. -/
theorem State.noNewStep_preempt (m : Nat) : s.NoNewStep (s.preempt m) := by
  unfold State.preempt
  split
  · exact .refl _
  next q hq =>
    refine fun hw => ⟨tblWf_tblIns hw _ _, fun n hn => ?_⟩
    have hne : n ≠ m := by
      rintro rfl
      cases hn.symm.trans hq
    exact (tblFind_tblIns_of_ne _ _ hne).trans hn

theorem State.noNewStep_resume (c : Nat) (ends : Bool) : s.NoNewStep (s.resume c ends) := by
  have hmap (t : State) (f : Nat → Step → Step) : t.NoNewStep (t.modRun fun g => { g with steps := tblMap g.steps f }) := fun hw =>
    ⟨tblWf_tblMap hw f, fun n hn => (tblFind_tblMap _ f n).trans (by rw [show tblFind t.run.steps n = none from hn, Option.map_none])⟩
  unfold State.resume
  dsimp only
  refine State.NoNewStep.trans ?_ (hmap _ _)
  exact .ite (.refl _) (.foldl State.noNewStep_preempt _ _)

theorem State.noNewStep_endStep (n st : Nat) (a : Option (Nat × Nat)) : s.NoNewStep (s.endStep n st a) := by
  unfold State.endStep
  split
  · exact .refl _
  next p _ =>
    dsimp only
    generalize hs1 : s.endOne n p _ _ = s1
    have h1 : s.NoNewStep s1 := hs1 ▸ s.noNewStep_endOne n p _ _
    refine .trans (h1.trans (State.NoNewStep.ite ?_ ?_)) (State.noNewStep_resume _ _ _)
    · exact .trans (.foldl (fun t _ => t.noNewStep_endOne _ _ _ _) _ _) (State.noNewStep_endJob _ _)
    · exact .ite (State.noNewStep_endJob _ _) (.refl _)

theorem State.noNewStep_abortJob (j : Nat) : s.NoNewStep (s.abortJob j) :=
  .trans (.foldl (fun t _ => t.noNewStep_endOne _ _ _ _) _ _) (State.noNewStep_endJob _ _)

theorem State.noNewStep_endDie (d st : Nat) : s.NoNewStep (s.endDie d st) :=
  .trans (.foldl (fun t _ => t.noNewStep_endStep _ _ _) _ _) (.foldl (fun t _ => t.noNewStep_abortJob _) _ _)

theorem State.noNewStep_resetDie (d : Nat) : s.NoNewStep (s.resetDie d) := by
  unfold State.resetDie
  dsimp only
  refine State.NoNewStep.trans ?_ (State.noNewStep_endDie _ d stReset)
  exact .of_run rfl

theorem State.resetPort_run (p : Nat) : (s.resetPort p).run = s.run := by
  have hdown : (if (s.port p).up then s.portDown p else s.setPort p portReset).run = s.run :=
    State.ite_run (State.record_run _ _) rfl
  unfold State.resetPort
  generalize (if (s.port p).up then s.portDown p else s.setPort p portReset) = t at hdown ⊢
  dsimp only
  rw [State.count_run]
  split <;> exact hdown

theorem State.noNewStep_actNext (a : Activation) : s.NoNewStep (s.actNext a) := by
  unfold State.actNext
  split
  · exact .refl _
  next u l _ =>
    exact .ite (.ite (.of_run (s.resetPort_run u)) (.of_run rfl)) (.ite (.of_run rfl) (.ite (.refl _) (.of_run rfl)))

/-- What an activation does by itself ends steps and starts none. -/
theorem State.noNewStep_actStep : s.NoNewStep s.actStep := by
  unfold State.actStep
  split
  · exact .refl _
  next a _ =>
    split
    · exact s.noNewStep_actNext a
    next u _ =>
      exact .ite (.ite (.refl _) (.of_run rfl)) (.ite (.of_run rfl) (.ite (.ite (.refl _) (s.noNewStep_resetDie u)) (.ite (.refl _) (.of_run rfl))))

end

/-- A step that ends is not there. -/
theorem State.stp_endStep {s : State} (hw : tblWf s.run.steps = true) (n st : Nat) (a : Option (Nat × Nat)) : (s.endStep n st a).stp n = none := by
  cases hp : s.stp n with
  | none => exact (s.noNewStep_endStep n st a hw).2 n hp
  | some p => exact (State.gone_endStep hw hp st a).step

/-- Every step of a list of steps that end is gone, in whatever order they end. -/
theorem State.stp_foldl_endStep {n st : Nat} {l : List (Nat × Step)} {s : State} (hw : tblWf s.run.steps = true) (hn : ∃ p, (n, p) ∈ l) :
    (l.foldl (fun u e => u.endStep e.1 st none) s).stp n = none := by
  obtain ⟨p, hp⟩ := hn
  induction l generalizing s with
  | nil => cases hp
  | cons e l ih =>
    have hw1 := (s.noNewStep_endStep e.1 st none hw).1
    rw [List.foldl_cons]
    rcases List.mem_cons.1 hp with rfl | hl
    · exact (State.NoNewStep.foldl (fun t e => t.noNewStep_endStep e.1 st none) l _ hw1).2 n (State.stp_endStep hw n st none)
    · exact ih hw1 hl

/-- Settles O55: each message by its plan or its row, each event by its rule; the steps that a drain ends are gone, and the activation's own
step brings none back. -/
theorem firmwareImages : Obligations.FirmwareImages := by
  unfold Obligations.FirmwareImages
  intro s
  refine ⟨fun m kind off data h hr h4 hk hact h1 h1024 => ⟨?_, fun h0 hmod heq hst hc hmax => ?_, fun h0 hmod hlt => ?_⟩,
    fun k st hk hp hg h1 hc => ?_, fun m kind h hr h4 hk => ⟨h.imgActivate h4 hr hk, h.imgDiscard h4 hr hk⟩,
    fun m h hr h4 => h.imgCommit h4 hr, fun a ha hl ht hc => exec_activationDone ha hl ht hc,
    fun a d x ha hl hk hc hx hle hnone => ?_, fun a d x ha hl hk hc hx hle hw => ?_⟩
  · intro h0
    rw [exec_imgData, h.mgmtMsg _ _ (by simp [hk, h1, h1024, h0]), State.imgPlan_first hr h4 hact (by rw [h0]; rfl)]
    rfl
  · rw [exec_imgData, h.mgmtMsg _ _ (by simp [hk, h1, h1024, hmod]),
      State.imgPlan_next hr h4 hact (fun hz => h0 (BitVec.eq_of_toNat_eq hz)) heq hst hc hmax]
    rfl
  · rw [exec_imgData, h.mgmtMsg _ _ (by simp [hk, h1, h1024, hmod]),
      State.imgPlan_again hr h4 hact (fun hz => h0 (BitVec.eq_of_toNat_eq hz)) hlt]
    rfl
  · refine ⟨_, exec_imageVerified hk hp hg h1 hc, ?_⟩
    have hlt : k < s.mg.stage.length := (List.getElem?_eq_some_iff.1 hg).1
    rw [State.modMg_mg, List.getElem?_set_self hlt, Option.map_some, Option.map_some, Option.some_inj]
    exact ⟨rfl, by simpa using (verified_iff (ok := s.imgOk k st.bytes) (low := decide (k < 4)) (lv := s.levelOk st.bytes)).symm⟩
  · have hnil : s.onDie d = [] := List.eq_nil_iff_forall_not_mem.2 fun ⟨n, p⟩ he => by
      obtain ⟨hmem, hrun, g, hg, hgd⟩ := State.mem_onDie.1 he
      exact (hnone _ hmem).elim (fun hwait => by cases hwait.symm.trans hrun) fun hno => hno g hg hgd
    rw [exec_activationDrainExpiry ha hl hk hc hx hle, hnil, List.foldl_nil]
  · refine ⟨_, exec_activationDrainExpiry ha hl hk hc hx hle, rfl, fun n p hp hrun hquad => ?_⟩
    have hmem : (n, p) ∈ s.onDie d := State.mem_onDie.2 ⟨mem_of_tblFind hp, hrun, hquad⟩
    have hkept := State.NoNewStep.foldl (fun t (e : Nat × Step) => t.noNewStep_endStep e.1 stFenced none) (s.onDie d) s hw
    exact (State.noNewStep_actStep _ hkept.1).2 n (State.stp_foldl_endStep hw ⟨p, hmem⟩)

end Sys2Proof.Machine
